-- ==== Sys2Proof/Word.lean ====
section
/-! DEFINITION. The word types of the block and the two plain-data containers the state is made of. -/

namespace Sys2Proof

/-- A byte (R3). -/
abbrev Byte := BitVec 8
/-- A BAR0 register or a 32-bit field (R4). -/
abbrev Word := BitVec 32
/-- A 64-bit quantity (R4, R201). -/
abbrev Dword := BitVec 64

/-- Sparse data by key: pairs in strictly rising key order. -/
abbrev Tab (α : Type) := List (Nat × α)

/-- Bytes by address, in strictly rising address order; which bytes an unlisted address reads as is said where the memory is read. -/
abbrev Mem := List Host.Cell

/-- The access codes of R7. -/
inductive Acc where
  | rw | ro | wo | w1c | w1s | rwp
  deriving DecidableEq, Repr

/-- One field of a register: byte offset of its register, lowest bit, width, access code and reset value. -/
structure Fld where
  off : Nat
  lo : Nat
  w : Nat
  acc : Acc
  reset : Nat
  deriving DecidableEq, Repr

/-- The same field of another copy of its register, `b` bytes further. -/
def Fld.at (f : Fld) (b : Nat) : Fld := { f with off := f.off + b }

/-- Which block layout of BAR0 a register belongs to (R28, R30). -/
inductive Blk where
  | gl | comp | bl | div | cg | pt | ac | ctl | md | dr | dk | dkq | dkh | sw | txw | rxw | cfg
  deriving DecidableEq, Repr

end Sys2Proof
end

