-- ==== Sys2Proof/Syntax.lean ====
section
/-! DEFINITION. The commands of the block: one constructor per row of spec/opcode_table.json, with the operands the row needs. -/

namespace Sys2Proof

/-- A hardware error that a unit or memory reports while an instruction works (R116, R122, R123, R191). -/
inductive UnitErr where
  | none
  /-- A single-bit error of a scratchpad word, or of a Landing or tally word, was corrected; address. -/
  | sramCorrected (landing : Bool) (addr : Nat)
  /-- A double-bit error of such a word; address. -/
  | sramUncorrected (landing : Bool) (addr : Nat)
  /-- A single-bit error of an accumulator word was corrected: array, and bank × 1,024 + word. -/
  | accCorrected (array : Fin 16) (word : Fin 2048)
  /-- A double-bit error of an accumulator word. -/
  | accUncorrected (array : Fin 16) (word : Fin 2048)
  /-- A residue mismatch on a lane of the MVP or the VU. -/
  | residue (lane : Nat)
  /-- A parity failure of the VU. -/
  | parity (lane : Nat)
  deriving DecidableEq, Repr

/-- A pulse on TL_SYNC_IN (R51, R54): its width in ns, whether it begins with a falling edge, and the frequency deviation measured at it. -/
structure SyncPulse where
  ns : Nat
  fall : Bool
  trim : Int
  deriving DecidableEq, Repr

/-- The context whose instruction stands at its word, and the error that this instruction's own read of a record or a counter meets (R191). -/
structure CtxRead where
  ctx : Fin 4
  err : UnitErr
  deriving DecidableEq, Repr

/-- A command whose save ends, and the error that the save's reads meet at a bole (R191). -/
structure SaveEnd where
  slot : Fin 4096
  bole : Fin 68
  err : UnitErr
  deriving DecidableEq, Repr

/-- What a fault of the hardware makes of a tile's drain and of what it is checked by; without one they are what the operands give (R92, R101, R107,
R123, R240). -/
inductive Upset where
  /-- The drain brings another value for a word. -/
  | drained (array : Fin 16) (word : Fin 1024) (v : Word)
  /-- The understory row brings another c_j or g_j. -/
  | checksum (array : Fin 16) (col : Fin 32) (c g : Word)
  /-- A PE brings another residue or wrap count. -/
  | residue (array : Fin 16) (word : Fin 1024) (r w : Fin 3)
  /-- A PE's multiplier forms a significand product that its residue does not match. -/
  | significand (array : Fin 16) (word : Fin 1024)
  /-- In quartered mode, a fault in what the quarters of an array share. -/
  | shared (array : Fin 16)
  /-- An integer addition of the T5 combiner does not match its residue. -/
  | combiner
  /-- A drain that accumulates reads an accumulator word with a single-bit or a double-bit error. -/
  | accError (array : Fin 16) (word : Fin 1024) (uncorrected : Bool)
  deriving DecidableEq, Repr

/-- What an array's pattern test finds (R94). -/
inductive Diagnosis where
  | clean
  | row (r : Fin 32)
  | understory
  | other
  deriving DecidableEq, Repr

/-- Where a prologue instruction runs: in a context of a bole, or in the controller of a group for a command's slot (R228); controllers are the
quads 0 to 15, the groves 16 to 19 and the die 20. -/
inductive Site where
  | bole (p : Fin 68) (x : Fin 4)
  | ctl (slot : Fin 4096) (k : Fin 21)
  deriving DecidableEq, Repr


/-- Who makes a DRAM request (R375, R378): a command by its slot, a function or Skidway port under a partition's tag, or the module itself. -/
inductive MemSrc where
  | cmd (slot : Fin 4096)
  | part (p : Fin 16)
  | module
  deriving DecidableEq, Repr

/-- Link fields of a Skidway message (R485, R486): its sequence and the acknowledgement it carries. -/
structure Link where
  seq : Fin 4096
  ack : Fin 4096
  deriving DecidableEq, Repr

/-- Addressing fields of a Skidway WRITE (R485). -/
structure SkyWrite where
  src : Fin 8
  dst : Fin 8
  hops : Fin 4
  part : Fin 16
  /-- 0 DRAM window, 1 bole window, 2 grove window. -/
  kind : Fin 3
  target : Fin 64
  window : Fin 16
  off : Fin (2 ^ 40)
  slot : Fin 4096
  idx : Fin 1024
  deriving DecidableEq, Repr

/-- What the headers of an access unit's picture say (R320, R327, R338, table Picture outcomes): whether *Decode support* covers them, its size and
samples, whether it is a key or IRAP picture and stays a reference, and the positions in the decoded picture buffer of the pictures that are no
longer references. -/
structure PicHead where
  ok : Bool
  w : Nat
  h : Nat
  d10 : Bool
  chroma : Fin 3
  key : Bool
  isRef : Bool
  unref : List Nat
  deriving DecidableEq, Repr

/-- What an engine finds while it decodes a picture (R322, R329, R334, R339, table Picture outcomes): the coded luma samples it decoded and those it concealed,
the bins, the conditions that damaged it, the parity of a field without partner, its intra and concealed blocks, the blocks marked because they are predicted
from concealed ones, the positions in the decoded picture buffer that the standard outputs now and those that leave it, and the DRAM bytes read. -/
structure PicEnd where
  coded : Nat
  concealed : Nat
  bins : Nat
  short : Bool
  syntaxErr : Bool
  refMissing : Bool
  lone : Option (Fin 2)
  intra : List Nat
  hidden : List Nat
  marked : List Nat
  outs : List Nat
  leaves : List Nat
  read : Nat
  deriving DecidableEq, Repr

/-- What a start-up stage finds out (R533, R575, R579, R384): stage 1, the replay-protected region authenticates; stage 2, the entropy health tests pass;
stage 3, the module number of the straps; stage 5, the physical boles and the engines that fail their self-test and the states that it decides for
arrays (bole, array, byte of BL_ARR_SPARE), and the boles whose start-up scrub finds a word that is not zero; stage 6, whether a subchannel was trained in full and whether every one is trained; and the ms since
die reset release. -/
structure StageFacts where
  replayOk : Bool
  entropyOk : Bool
  modId : Fin 8
  boles : List (Fin 68)
  engines : List (Fin 6)
  arrays : List (Fin 68 × Fin 16 × Fin 256)
  scrubs : List (Fin 68)
  cold : Bool
  trained : Bool
  ms : Fin 65536
  deriving DecidableEq, Repr

/-- How a completion for a read of host memory ends (R432): with its data, with Unsupported Request, with Completer Abort, or with poisoned data. -/
inductive CplStatus where
  | success
  | unsupported
  | abort
  | poisoned
  deriving DecidableEq, Repr

/-- What a PLDM firmware update brings (R600): a component's manifest, a piece of its image, the request to activate it, where a piece may read back wrong,
or its cancelling. -/
inductive PldmFw where
  | manifest (data : List Byte)
  | piece (n : Nat) (data : List Byte)
  | activate (bad : Option Nat)
  | cancel
  deriving DecidableEq, Repr
/-- The commands and events of the module; an event that the world brings about has what is observed with it as its operands. -/
inductive Instr where
  /-- REGISTER_WRITE: A write to a register that has no row of its own takes effect according to its access code, and RWP fields ignore it after seal
  (R7) -/
  | registerWrite (fn : Fin 16) (bar4 : Bool) (off : Nat) (v : Word)
  /-- FRAME_BOUNDARY: The timeline line count wraps to the next frame, which applies pending raster, rate and PTM mapping changes and starts the
  frame's duties (R38) -/
  | frameBoundary
  /-- COMMAND_ELIGIBLE: A command's not-before stamp is reached and it becomes eligible, with the slack test run for LIVE commands (R45) -/
  | commandEligible (slot : Fin 4096)
  /-- DEADLINE_PASS: A command's deadline passes before dispatch and its queue's late policy runs or drops it (R276) -/
  | deadlinePass (slot : Fin 4096)
  /-- TL_SWITCH_ARM: A write of TL_CTRL.arm checks the new timeline source and latches a pending switch or refuses it (R49) -/
  | tlSwitchArm (v : Word)
  /-- TL_SWITCH_AT_STAMP: At the switch stamp the timeline source is checked again and changed or the switch is cancelled (R49) -/
  | tlSwitchAtStamp
  /-- TL_SYNC_IN_FRAME_PULSE: A frame pulse on TL_SYNC_IN steps, slews or is ignored according to its position in the frame (R51) -/
  | tlSyncInFramePulse (x : SyncPulse)
  /-- TL_SYNC_IN_LINE_PULSE: A line pulse on TL_SYNC_IN corrects line phase within a ±1/8 line window (R54) -/
  | tlSyncInLinePulse
  /-- FRAME_SYNC_EDGE: A falling edge on FRAME_SYNC driven by another module acts as a frame edge for a follower or as a conflict for a master (R59)
  -/
  | frameSyncEdge (trim : Int)
  /-- TL_HOLDOVER_ENTRY: After loss_frames frames without an in-window edge the timeline enters holdover and logs 0x0104 (R53) -/
  | tlHoldoverEntry
  /-- PTM_DIALOG: A completed PTM dialog gives a reference stamp whose phase error steps, slews or is ignored (R56) -/
  | ptmDialog (ns : Nat) (trim : Int)
  /-- PTM_VALID_TIMEOUT: 100 ms without a completed PTM dialog clears ptm_valid (R55) -/
  | ptmValidTimeout
  /-- TL_PTM_MAPPING_WRITE: A write of TL_PTM_ORIGIN or TL_PTM_FRAME stages a new mapping for the next frame boundary (R57) -/
  | tlPtmMappingWrite (r : Fin 3) (v : Word)
  /-- SKIDWAY_FRAME_BLOCK: A received Frame control block supplies a follower's frame number by lowest hop count (R60) -/
  | skidwayFrameBlock (port : Fin 3) (hop : Fin 4) (frame : Word)
  /-- TL_ALARM_LO_WRITE: A write to TL_ALARMn_LO is held until the next write to TL_ALARMn_HI (R64) -/
  | tlAlarmLoWrite (n : Fin 16) (v : Word)
  /-- TL_ALARM_HI_WRITE: A write to TL_ALARMn_HI sets the whole alarm stamp at once (R64) -/
  | tlAlarmHiWrite (n : Fin 16) (v : Word)
  /-- TL_ALARM_FIRE: An armed alarm's stamp is reached and it sets fired, sends its vector, signals wake and disarms or rearms (R64) -/
  | tlAlarmFire (n : Fin 16)
  /-- CK_SWITCH_ARM: A write of CK_SWITCH_CTRL.arm tests newly selected clock sources and latches or refuses the switch (R68) -/
  | ckSwitchArm (v : Word)
  /-- CK_SWITCH_AT_STAMP: At the switch stamp the clock domains move to their new sources glitch-free, or the switch is cancelled (R68) -/
  | ckSwitchAtStamp
  /-- CLOCK_LOSS: The monitor fails a clock source, moving its domains to the ring oscillator and pausing compute, or logging a corrected loss (R70)
  -/
  | clockLoss (src : Fin 4)
  /-- FALLBACK_CLOCK_LOST: The internal ring oscillator fails and its domains move to the first good permitted source, or a corrected loss is logged
  (R73) -/
  | fallbackClockLost
  /-- CK_CLKOUT_WRITE: A change of CK_CLKOUT sel or div takes effect at the next output rising edge, or holds the output low when too fast (R74) -/
  | ckClkoutWrite (v : Word)
  /-- SQ_FETCH: The queue manager reserves a CQ entry, fetches a descriptor and checks it at fetch (R467) -/
  | sqFetch (sq : Fin 16400)
  /-- COMPUTE_COMMAND: A compute command is dispatched to its compartment after the dispatch checks, binding its epoch and seed (R198) -/
  | computeCommand (slot : Fin 4096)
  /-- SHARE_START: A member starts its share when an issue context is free, loading registers and applying pending signals (R197) -/
  | shareStart (slot : Fin 4096) (n : Fin 64)
  /-- INSTR_BLOCK_FETCHED: A block of 64 instructions arrives in a context's instruction buffer and releases a waiting issue (R207) -/
  | instrBlockFetched (p : Fin 68) (x : Fin 4)
  /-- UNIT_INSTRUCTION_COMPLETE: An instruction on a unit completes and signals its token (R205) -/
  | unitInstructionComplete (p : Fin 68) (x : Fin 4) (u : Fin 4) (e : UnitErr)
  /-- CMD_BUDGET_EXCEEDED: A member's cycle count reaches cycle_budget and the command ends with 0x060A (R208) -/
  | cmdBudgetExceeded (p : Fin 68) (x : Fin 4)
  /-- NOP: The NOP instruction issues and does nothing (R209) -/
  | nop (site : Site)
  /-- LOOP: A LOOP computes its count and pushes a loop entry or skips past its ENDL (R210) -/
  | loop (p : Fin 68) (x : Fin 4)
  /-- ENDL: An ENDL advances the loop, stepping index and address registers, or pops the entry (R210) -/
  | endl (p : Fin 68) (x : Fin 4)
  /-- SKIP: A SKIP with a test of 0 to 3 takes its target when its result is true (R211) -/
  | skip (p : Fin 68) (x : Fin 4)
  /-- SKIP_CHANGE_MAP: A SKIP with test 4 loads the change map if needed and tests the tile's receptive field for change (R252) -/
  | skipChangeMap (p : Fin 68) (x : Fin 4)
  /-- TILE: A TILE instruction computes one bole tile of its shape on the arrays with masking of edges (R212) -/
  | tile (p : Fin 68) (x : Fin 4) (e : UnitErr)
  /-- TILE_CHECK_COMPLETE: A tile's drain and checks complete and its accumulator bank becomes readable if every check passed (R88) -/
  | tileCheckComplete (p : Fin 68) (ups : List Upset)
  /-- DIAGNOSIS_COMPLETE: An array's 4,096-cycle pattern test ends and decides the array's next state (R94) -/
  | diagnosisComplete (p : Fin 68) (d : Diagnosis)
  /-- BL_ARR_DIAG_START: A write of BL_ARR_DIAG.start runs a report-only pattern test on an offline or fenced bole or is refused (R125) -/
  | blArrDiagStart (p : Fin 68) (v : Word)
  /-- BOLE_SCRUB_COMPLETE: A bole scrub of scratchpad and accumulators finishes its read-back, completing a stand-in, hand-over or return, or failing
  the bole (R172) -/
  | boleScrubComplete (p : Fin 68) (ok : Bool)
  /-- MV_DOT: An MV instruction in dot mode streams rows against the vector into row sums (R113) -/
  | mvDot (p : Fin 68) (x : Fin 4) (e : UnitErr) (stall : Nat)
  /-- MV_AXPY: An MV instruction in axpy mode scales streamed rows by vector elements into lane outputs (R114) -/
  | mvAxpy (p : Fin 68) (x : Fin 4) (e : UnitErr) (stall : Nat)
  /-- VEC_ARITH: A VEC FP32 or INT32 arithmetic operation processes its vectors on the VU (R117) -/
  | vecArith (p : Fin 68) (x : Fin 4) (e : UnitErr)
  /-- VEC_CONVERT: A VEC conversion narrows or widens values between formats under the rounding mode (R137) -/
  | vecConvert (p : Fin 68) (x : Fin 4) (e : UnitErr)
  /-- VEC_REQUANTIZE: A VEC requantize turns INT32 accumulators into narrow integers using parameter records (R140) -/
  | vecRequantize (p : Fin 68) (x : Fin 4) (e : UnitErr)
  /-- VEC_FLOAT_REQUANTIZE: A VEC float requantize forms acc × m_f + b_f and narrows it (R141) -/
  | vecFloatRequantize (p : Fin 68) (x : Fin 4) (e : UnitErr)
  /-- VEC_BLOCK_QUANTIZE: A VEC block-quantize narrows 32-element blocks and writes their tagged scale entries (R154) -/
  | vecBlockQuantize (p : Fin 68) (x : Fin 4) (e : UnitErr)
  /-- VEC_FUNCTION: A VEC exp, reciprocal, rsqrt or sigmoid maps FP32 inputs to outputs (R120) -/
  | vecFunction (p : Fin 68) (x : Fin 4) (e : UnitErr)
  /-- VEC_REDUCE: A VEC reduction combines vectors into the reduction accumulator (R119) -/
  | vecReduce (p : Fin 68) (x : Fin 4) (e : UnitErr)
  /-- VEC_REDUCE_STORE: A VEC stores the reduction accumulator lanes and clears it (R214) -/
  | vecReduceStore (p : Fin 68) (x : Fin 4) (e : UnitErr)
  /-- VEC_DROPOUT: A VEC dropout keeps or zeroes elements by generator draws (R145) -/
  | vecDropout (p : Fin 68) (x : Fin 4) (e : UnitErr)
  /-- VEC_DRAW: A VEC draw writes the generator's 32-bit draws (R215) -/
  | vecDraw (p : Fin 68) (x : Fin 4) (e : UnitErr)
  /-- SCALE_BIND: A SCALE instruction binds a scale tensor to a slot (R216) -/
  | scaleBind (p : Fin 68) (x : Fin 4)
  /-- SCALE_UNBIND: A SCALE instruction with unbind releases a slot (R216) -/
  | scaleUnbind (p : Fin 68) (x : Fin 4)
  /-- STAT_OPEN: A STAT open takes the lowest free statistics slot for an output tensor (R225) -/
  | statOpen (p : Fin 68) (x : Fin 4)
  /-- STAT_CLOSE: A STAT close adds the slot's counts into the statistics record with saturation (R157) -/
  | statClose (p : Fin 68) (x : Fin 4)
  /-- FETCH: A FETCH without boom copies lines into the scratchpad or Landing, decompressing if zc is set (R217) -/
  | fetch (p : Fin 68) (x : Fin 4) (e : UnitErr)
  /-- FETCH_BOOM: A boom FETCH sends data to every destination in its mask as 1 KiB window writes (R217) -/
  | fetchBoom (p : Fin 68) (x : Fin 4) (e : UnitErr)
  /-- BOOM_STAGING_LINE_FILLED: A staging line filled from DRAM is delivered to every boom destination and freed once all answer (R189) -/
  | boomStagingLineFilled (g : Fin 4)
  /-- PUT_STORE: A store PUT writes its source into an output's private region (R219) -/
  | putStore (p : Fin 68) (x : Fin 4) (e : UnitErr)
  /-- PUT_REDUCE: A reduction PUT is held as a ticket-tagged entry in the staging deck until commit (R220) -/
  | putReduce (p : Fin 68) (x : Fin 4) (e : UnitErr)
  /-- WIN_OPEN: A WIN instruction opens a window over scratchpad or Landing after ordered checks (R175) -/
  | winOpen (p : Fin 68) (x : CtxRead)
  /-- WIN_CLOSE: A WIN instruction closes a window the command opened (R222) -/
  | winClose (p : Fin 68) (x : Fin 4)
  /-- WAIT_SEMAPHORE: A WAIT blocks its context until a semaphore reaches a value, optionally consuming it (R223) -/
  | waitSemaphore (p : Fin 68) (x : Fin 4)
  /-- WAIT_WINDOW: A WAIT blocks its context until a window becomes exhausted, ending the command if it expires (R223) -/
  | waitWindow (p : Fin 68) (x : Fin 4)
  /-- WAIT_TOKENS: A WAIT of kind 2 waits only on its token mask (R205) -/
  | waitTokens (p : Fin 68) (x : Fin 4)
  /-- SIG_LOCAL: A SIG increments the context's own semaphore (R223) -/
  | sigLocal (p : Fin 68) (x : Fin 4)
  /-- SIG_REMOTE: A SIG increments a semaphore of the same command on another bole, pending if its share has not started (R224) -/
  | sigRemote (p : Fin 68) (x : Fin 4)
  /-- TALLY_INIT: A TALLY init sets a counter and its owner tag (R226) -/
  | tallyInit (site : Site)
  /-- TALLY_TAKE: A TALLY take returns a ticket, advances the counter and updates address registers (R226) -/
  | tallyTake (p : Fin 68) (x : Fin 4) (e : UnitErr)
  /-- TALLY_READ: A TALLY read returns a counter value without changing it (R226) -/
  | tallyRead (p : Fin 68) (x : CtxRead)
  /-- DIV: A division controller ranks its online members and hands each a share of the ticket set (R228) -/
  | div (slot : Fin 4096) (k : Fin 21)
  /-- COMMIT: A member's COMMIT waits for its issued instructions and reports to the controller (R230) -/
  | commit (p : Fin 68) (x : Fin 4)
  /-- SEND_PHASE: Before commit step 1, the commit unit sends staged Skidway bytes as WRITE transfers and waits for DONE (R496) -/
  | sendPhase (slot : Fin 4096)
  /-- COMMAND_COMMIT: With every member reported, the commit unit combines reductions, publishes outputs and advances rings and CQ as one step (R473)
  -/
  | commandCommit (slot : Fin 4096) (kill : Bool)
  /-- REMOTE_WRITE: A boom, remote or Skidway write arriving at a window is tested and written whole or rejected (R177) -/
  | remoteWrite (k : Nat)
  /-- WINDOW_EXPIRY: An open window's expiry stamp is reached and it becomes expired, ending any WAIT on it (R177) -/
  | windowExpiry (dst : Fin 68) (w : Fin 16)
  /-- SAVE_WINDOW_WAIT_EXPIRY: A group-level save waiting 2 µs for an open window gives up and kills the command (R180) -/
  | saveWindowWaitExpiry (slot : Fin 4096)
  /-- SPAD_GATE_REQUEST: A write of a gate request mask asks for scratchpad banks or Landing segments to be gated or ungated (R181) -/
  | spadGateRequest (landing : Bool) (hi : Bool) (n : Fin 68) (v : Word)
  /-- BANK_GATE_ENTRY: A requested bank or segment gates once no window, write or activity covers it, losing its contents (R181) -/
  | bankGateEntry (landing : Bool) (n : Fin 68) (k : Fin 48)
  /-- BANK_UNGATE_COMPLETE: A bank or segment returns to service with zero contents after its request clears (R183) -/
  | bankUngateComplete (landing : Bool) (n : Fin 68) (k : Fin 48)
  /-- LANDING_SCRUB_COMPLETE: A Landing segment or tally group scrub finishes, or fails and takes the segment out of service (R190) -/
  | landingScrubComplete (g : Fin 4) (k : Fin 32) (ok : Bool)
  /-- COMPARTMENT_HAND_OVER: A drained compartment is scrubbed and its OWNER changes to the new partition (R27) -/
  | compartmentHandOver (n : Fin 64)
  /-- SLICE_EXPIRY: A class's time slice expires and the next class with eligible work takes a slice (R274) -/
  | sliceExpiry (k : Fin 85)
  /-- GROUP_SAVE_COMPLETE: A group-level save ends and the boles are freed for the LIVE command (R285) -/
  | groupSaveComplete (slot : SaveEnd)
  /-- GROUP_RESTORE_COMPLETE: A suspended command's state is restored and it continues from its next instruction (R286) -/
  | groupRestoreComplete (slot : Fin 4096)
  /-- PT_PREEMPT_REQUEST: A write of PT_PREEMPT.req pre-empts all non-LIVE commands of the partition at command level (R280) -/
  | ptPreemptRequest (p : Fin 16)
  /-- EPOCH_SHADOW_WRITE: A write to a shadow copy stages a value or is refused while an epoch is pending (R291) -/
  | epochShadowWrite (p : Fin 16) (k : Fin 8) (v : Word)
  /-- SC_EPOCH_ARM: A write of SC_EPOCH_CTRL.arm checks the shadow set and freezes it or refuses (R290) -/
  | scEpochArm (v : Word)
  /-- EPOCH_SWITCH_STAMP: At the epoch stamp the current epoch advances and live copies take the shadow values (R292) -/
  | epochSwitchStamp
  /-- UNIT_EPOCH_SWITCH: A compartment, engine or commit unit switches to the new epoch once no old-epoch command is in flight on it (R293) -/
  | unitEpochSwitch (u : Fin 95)
  /-- ENERGY_CALIBRATION: Every 10 ms the module recomputes the dynamic energy factor k from input energy (R299) -/
  | energyCalibration (eIn : Nat) (eStatic : Nat) (eDyn : Nat)
  /-- AC_QSEL_WRITE: A write of AC_QSEL snapshots a queue's accounting counters (R300) -/
  | acQselWrite (fn : Fin 16) (v : Word)
  /-- PT_SEED_HI_WRITE: A write of PT_SEED_HI stores a seed table entry and sets it valid (R311) -/
  | ptSeedHiWrite (p : Fin 16) (v : Word)
  /-- PT_SEED_INVALIDATE: Writing 1 to a PT_SEED_VALID bit invalidates the seed entry (R318) -/
  | ptSeedInvalidate (p : Fin 16) (w : Fin 8) (v : Word)
  /-- DECODE_ACCESS_UNIT: A decode command carrying one access unit is queued for its context in submission order (R327) -/
  | decodeAccessUnit (slot : Fin 4096)
  /-- DECODE_FLUSH: A flush command outputs every picture left in the decoded picture buffer at its commit (R327) -/
  | decodeFlush (slot : Fin 4096) (order : List Nat)
  /-- PICTURE_ENGINE_START: An eligible picture takes an idle engine by priority, taking its buffers from the decks (R340) -/
  | pictureEngineStart (slot : Fin 4096) (h : PicHead)
  /-- SEGMENT_CHECKPOINT: After 200,000 cycles the engine checkpoints the picture at a coding-block boundary and may switch epoch (R332) -/
  | segmentCheckpoint (e : Fin 6)
  /-- PICTURE_BUDGET_EXPIRY: A picture's cycle budget or block limit runs out and its remaining blocks are concealed (R333) -/
  | pictureBudgetExpiry (e : Fin 4)
  /-- PICTURE_COMPLETE: An engine finishes a picture, writes its change map and commits its command (R329) -/
  | pictureComplete (e : Fin 4) (r : PicEnd)
  /-- ENGINE_FAULT: An engine parity, watchdog or bounds fault kills and re-runs the picture and reloads or retires the engine (R347) -/
  | engineFault (e : Fin 6) (bounds : Bool)
  /-- ENGINE_RELOAD: A write of reload makes the engine finish its picture and load verified microcode (R346) -/
  | engineReload (e : Fin 6)
  /-- ENGINE_RELOAD_COMPLETE: An engine's microcode load and self-test end and it returns online (R346) -/
  | engineReloadComplete (e : Fin 6)
  /-- ENGINE_OFFLINE_REQUEST: A write of offline_req stops or restarts the engine at a picture boundary (R346) -/
  | engineOfflineRequest (e : Fin 6) (v : Bool)
  /-- ENCODE_PICTURE: An encode command checks its source and encodes one picture or slice group (R342) -/
  | encodePicture (e : Fin 2) (read : Nat)
  /-- BATCH_COMMAND: A batch command assembles samples into fixed slots with pyramids and a status tensor (R349) -/
  | batchCommand (slot : Fin 4096)
  /-- TOKENIZE: A tokenize command emits token IDs from a session's carry and input (R361) -/
  | tokenize (slot : Fin 4096)
  /-- TRACK: A track command associates detections with a session's tracks and writes TRK and STAT records (R363) -/
  | track (slot : Fin 4096)
  /-- ROI_COMMAND: An ROI command crops and resamples boxes from decoded pictures (R261) -/
  | roiCommand (slot : Fin 4096)
  /-- DRAM_READ: A DRAM read decodes its burst, correcting, retrying or raising address or uncorrectable faults (R371) -/
  | dramRead (src : MemSrc) (a : Nat) (chk : Bool) (e1 : List (Nat × Nat)) (e2 : List (Nat × Nat))
  /-- DRAM_WRITE: A DRAM write enters its subchannel write queue and updates its check cache line (R378) -/
  | dramWrite (src : MemSrc) (a : Nat) (data : List Byte)
  /-- BANK_REFRESH: Every 3.9 µs, or half that when hot, the controller refreshes each bank (R381) -/
  | bankRefresh (sc : Fin 32) (rank : Fin 2) (bank : Fin 4)
  /-- DRAM_TEMP_REPORT: A device MR4 temperature crossing 85 °C halves or restores the refresh interval (R381) -/
  | dramTempReport (sc : Fin 32) (temp : Fin 256)
  /-- RETRAIN_DUE: DQS drift or temperature change marks a subchannel for retraining (R386) -/
  | retrainDue (sc : Fin 32) (drift : Bool)
  /-- RETRAIN_START: A due retraining starts at the next timeline gap, one subchannel at a time (R386) -/
  | retrainStart (sc : Fin 32)
  /-- RETRAIN_FORCED: With no gap within max_wait, the retraining runs at the next frame start (R386) -/
  | retrainForced (sc : Fin 32)
  /-- RETRAIN_COMPLETE: A retraining ends, or fails and triggers full training or a device-fatal fault (R386) -/
  | retrainComplete (sc : Fin 32) (ok : Bool)
  /-- WRITE_CRC_ERROR: A device signals a write CRC error and the controller replays or retrains (R387) -/
  | writeCrcError (sc : Fin 32) (fails : Fin 5)
  /-- POWER_DOWN_ENTRY: A rank idle for pd_idle enters power-down (R388) -/
  | powerDownEntry (sc : Fin 32) (rank : Fin 2)
  /-- SELF_REFRESH_ENTRY: A subchannel idle for sr_idle enters self-refresh (R388) -/
  | selfRefreshEntry (sc : Fin 32)
  /-- SELF_REFRESH_EXIT: A subchannel leaves self-refresh and checks its DQS oscillator before serving (R388) -/
  | selfRefreshExit (sc : Fin 32) (drift : Bool)
  /-- PATROL_SCRUB_READ: Patrol scrub reads and corrects the next burst of its pass (R390) -/
  | patrolScrubRead (e1 : List (Nat × Nat)) (e2 : List (Nat × Nat))
  /-- PPR_REPAIR: A row due for repair is remapped to a spare row in a timeline gap (R392) -/
  | pprRepair (sc : Fin 32)
  /-- DECK_INIT_COMPLETE: A deck's free ring, bitmap and owner table are initialised and it becomes ready (R397) -/
  | deckInitComplete (d : Fin 64)
  /-- DECK_WAITER_SERVED: Returned buffers serve waiting allocations in recovery, LIVE, other order (R404) -/
  | deckWaiterServed (d : Fin 64)
  /-- DK_RETURN: A write of DK_RETURN_HI returns a host hold after ordered checks (R407) -/
  | dkReturn (fn : Fin 16) (v : Word)
  /-- DK_RECLAIM: A write of DK_RECLAIM releases a partition's holds of the selected kinds (R410) -/
  | dkReclaim (fn : Fin 16) (v : Word)
  /-- DK_MIN_FREE_REARM: Writing rearm sets DK_MIN_FREE.low to the current available count (R413) -/
  | dkMinFreeRearm (d : Fin 64) (v : Word)
  /-- DECK_RING_REBUILD_COMPLETE: A free ring rebuilt from the bitmap after an uncorrectable read resumes allocations and returns (R411) -/
  | deckRingRebuildComplete (d : Fin 64)
  /-- CONFIG_REQUEST: A configuration request is answered, or retried until 80 ms after PERST# (R416) -/
  | configRequest (fn : Fin 16) (write : Bool) (r : Fin 1024) (be : Fin 16) (v : Word)
  /-- LINK_TRAINED: The link trains to a rate and width and flags degradation (R415) -/
  | linkTrained (speed : Fin 7) (width : Fin 5) (flit : Bool)
  /-- BAR0_ACCESS: A BAR0 access of an illegal size or alignment is aborted or dropped (R424) -/
  | bar0Access (fn : Fin 16) (bar4 : Bool) (write : Bool) (off : Nat) (size : Nat) (v : Nat)
  /-- APERTURE_READ: A host read through BAR2 reaches decrypted DRAM or is refused (R422) -/
  | apertureRead (fn : Fin 16) (off : Nat) (n : Fin 4097)
  /-- APERTURE_WRITE: A host write through BAR2 reaches DRAM under the partition key or is dropped (R422) -/
  | apertureWrite (fn : Fin 16) (off : Nat) (data : List Byte)
  /-- SQ_DOORBELL: A write of an SQ tail doorbell advances the tail or stops the SQ (R455) -/
  | sqDoorbell (fn : Fin 16) (n : Fin 16384) (v : Word)
  /-- CQ_DOORBELL: A write of a CQ consumer index frees entries or is ignored (R456) -/
  | cqDoorbell (fn : Fin 16) (n : Fin 4096) (v : Word)
  /-- RING_DOORBELL: A write of a ring consumer index frees slots or is ignored (R456) -/
  | ringDoorbell (fn : Fin 16) (n : Fin 1024) (v : Word)
  /-- NUMVFS_WRITE: A write of NumVFs sets the number of virtual functions or is ignored (R426) -/
  | numvfsWrite (v : Fin 65536)
  /-- VF_ENABLE_CLEAR: Clearing VF Enable resets every virtual function as an FLR (R427) -/
  | vfEnableClear
  /-- HOST_COMPLETION: A completion for a module read arrives, delivering data or failing the read, or is discarded as late (R432) -/
  | hostCompletion (fn : Fin 16) (tag : Fin 1024) (st : CplStatus) (data : List Byte)
  /-- COMPLETION_TIMEOUT: A host read times out, its tag is quarantined and the read fails (R430) -/
  | completionTimeout (fn : Fin 16) (tag : Fin 1024)
  /-- TAG_QUARANTINE_END: A quarantined tag returns to service after twice the timeout (R430) -/
  | tagQuarantineEnd (fn : Fin 16) (tag : Fin 1024)
  /-- POISONED_TLP_RECEIVED: A poisoned request is dropped and logged (R433) -/
  | poisonedTlpReceived (fn : Fin 16)
  /-- BUS_MASTER_ENABLE_CHANGE: A change of Bus Master Enable holds or releases the function's host requests and messages (R604) -/
  | busMasterEnableChange (fn : Fin 16) (v : Bool)
  /-- MSIX_UNMASK: Unmasking a vector with its pending bit set sends one message (R436) -/
  | msixUnmask (fn : Fin 16) (vec : Fin 2048)
  /-- FUNCTION_LEVEL_RESET: An FLR stops the function's requests, kills its commands and starts resetting its partition (R438) -/
  | functionLevelReset (fn : Fin 16)
  /-- FLR_COMPLETE: An FLR completes, restoring the plan state of the partition and logging 0x0D07 (R438) -/
  | flrComplete (fn : Fin 16)
  /-- LINK_DOWN: A link down or hot reset acts as an FLR of every function (R440) -/
  | linkDown
  /-- POWER_STATE_WRITE: A PMCSR write moves a function between D0 and D3hot (R441) -/
  | powerStateWrite (fn : Fin 16) (st : Fin 4)
  /-- SKIDWAY_WAKE: A Skidway wake message or receiver idle exit signals a wake event (R443) -/
  | skidwayWake (port : Fin 3)
  /-- ASPM_L1_ENTRY: After 10 µs with nothing to send the endpoint requests L1 (R444) -/
  | aspmL1Entry
  /-- MS_SLOT_OFF: A write of off = 1 idles the link and switches the 48 V side off (R447) -/
  | msSlotOff
  /-- CREATE_SQ: The control operation creates a submission queue (R460) -/
  | createSq (slot : Fin 4096)
  /-- DELETE_SQ: The control operation stops an SQ for deletion after its commands end (R460) -/
  | deleteSq (slot : Fin 4096)
  /-- DELETE_SQ_COMPLETE: An SQ delete completes once its last command in flight has ended (R460) -/
  | deleteSqComplete (n : Fin 16384)
  /-- CREATE_CQ: The control operation creates a completion queue (R460) -/
  | createCq (slot : Fin 4096)
  /-- DELETE_CQ: The control operation deletes a completion queue not bound to an SQ (R460) -/
  | deleteCq (slot : Fin 4096)
  /-- CREATE_RING: The control operation creates a metadata ring (R460) -/
  | createRing (slot : Fin 4096)
  /-- DELETE_RING: The control operation deletes a metadata ring not named by a command in flight (R460) -/
  | deleteRing (slot : Fin 4096)
  /-- OPEN_CONTEXT: The control operation opens a context of a given kind after its checks (R461) -/
  | openContext (slot : Fin 4096)
  /-- CLOSE_CONTEXT: The control operation closes a context, releasing its holds once its commands end (R326) -/
  | closeContext (slot : Fin 4096)
  /-- WRITE_CONTEXT: The control operation writes bytes of a context's record (R461) -/
  | writeContext (slot : Fin 4096)
  /-- READ_CONTEXT: The control operation returns bytes of a context's record (R461) -/
  | readContext (slot : Fin 4096)
  /-- LOAD_CUT_LIST: The control operation registers a cut list after its checks and returns a handle (R195) -/
  | loadCutList (slot : Fin 4096)
  /-- UNLOAD_CUT_LIST: The control operation unloads a cut list once no command names it (R462) -/
  | unloadCutList (slot : Fin 4096)
  /-- LOAD_DICTIONARY: The control operation loads a tokenizer dictionary and returns a handle (R359) -/
  | loadDictionary (slot : Fin 4096)
  /-- UNLOAD_DICTIONARY: The control operation unloads a dictionary once no command names it (R462) -/
  | unloadDictionary (slot : Fin 4096)
  /-- SC_CTL_ENABLE: A write of SC_CTL_CFG.en enables or disables the control queue pair (R481) -/
  | scCtlEnable (p : Fin 16) (v : Word)
  /-- SC_CTL_SQ_TAIL_WRITE: A write of SC_CTL_SQ_TAIL rings the control SQ doorbell (R458) -/
  | scCtlSqTailWrite (p : Fin 16) (v : Word)
  /-- SC_CTL_CQ_HEAD_WRITE: A write of SC_CTL_CQ_HEAD sets the control CQ consumer (R456) -/
  | scCtlCqHeadWrite (p : Fin 16) (v : Word)
  /-- SC_QSEL_WRITE: A write of SC_QSEL snapshots a queue object's state (R482) -/
  | scQselWrite (fn : Fin 16) (v : Word)
  /-- HELLO_RECEIVED: A HELLO message marks a port up or miswired and triggers route recomputation (R490) -/
  | helloReceived (port : Fin 3) (l : Link) (modId : Fin 8) (peerPort : Fin 3) (ups : Fin 8)
  /-- SKIDWAY_WRITE_RECEIVED: A WRITE message is forwarded or checked against a bole, grove or DRAM window and answered with DONE (R499) -/
  | skidwayWriteReceived (port : Fin 3) (l : Link) (w : SkyWrite) (data : List Byte)
  /-- DONE_RECEIVED: A DONE message reports acceptance or rejection of a transfer (R496) -/
  | doneReceived (port : Fin 3) (l : Link) (src : Fin 8) (dst : Fin 8) (hops : Fin 4) (slot : Fin 4096) (idx : Fin 1024) (result : Fin 9)
  /-- LNAK_RECEIVED: An LNAK makes the transmitter resend after the acknowledged sequence (R486) -/
  | lnakReceived (port : Fin 3) (ack : Fin 4096)
  /-- LACK_RECEIVED: A LACK acknowledges messages and frees replay entries (R486) -/
  | lackReceived (port : Fin 3) (ack : Fin 4096)
  /-- SKIDWAY_BAD_MESSAGE: A message with bad CRC or a sequence gap is discarded and LNAK sent (R486) -/
  | skidwayBadMessage (port : Fin 3)
  /-- LACK_TIMER: A receiver with nothing to send sends LACK within 500 ns (R486) -/
  | lackTimer (port : Fin 3)
  /-- PORT_SILENCE_TIMEOUT: 1 µs without a valid block brings a port down (R488) -/
  | portSilenceTimeout (port : Fin 3)
  /-- PORT_RETRY_TRAINING: A down port retries training every 10 ms (R488) -/
  | portRetryTraining (port : Fin 3)
  /-- SW_ACK_TIMEOUT: A transfer without DONE within SW_ACK_TO kills the command for re-run (R498) -/
  | swAckTimeout (slot : Fin 4096) (idx : Fin 1024)
  /-- SW_RXW_CTL_WRITE: A write of SW_RXW_CTL.en opens a DRAM window, clearing wcnt, or closes it (R499) -/
  | swRxwCtlWrite (n : Fin 16) (v : Word)
  /-- AUX_POWER_ON: 3V3_AUX power-on resets everything, including the timeline (R529) -/
  | auxPowerOn
  /-- PRESENCE_MATED: J2 presence mates and the hot-swap controller starts qualifying the input (R510) -/
  | presenceMated
  /-- INPUT_QUALIFIED: With the input at 38 V for 10 ms the switch closes and the bank charges, starting the rails (R510) -/
  | inputQualified
  /-- PRESENCE_LOST: Presence breaks and the switch opens with a power-fail stop (R510) -/
  | presenceLost (written : Bool)
  /-- INPUT_OVERVOLTAGE: Input above 64 V opens the switch (R510) -/
  | inputOvervoltage (written : Bool)
  /-- OVERVOLTAGE_RECOVERY: Input below 62 V for 10 ms recovers from overvoltage (R510) -/
  | overvoltageRecovery
  /-- OVERCURRENT_TRIP: Timed or fast overcurrent or switch overtemperature opens and latches the switch (R510) -/
  | overcurrentTrip (cause : Fin 5) (written : Bool)
  /-- INPUT_UNDERVOLTAGE: Input below 36 V puts the module into pause (R512) -/
  | inputUndervoltage
  /-- INPUT_RECOVERED: Input above 38 V within ride_ms ends pause and work continues (R512) -/
  | inputRecovered
  /-- RIDE_THROUGH_EXPIRY: Pause outlasts ride_ms and the power-fail stop follows (R512) -/
  | rideThroughExpiry (written : Bool)
  /-- HOLDUP_MEASURE: A controlled discharge measures hold-up energy at start-up and every 24 h (R514) -/
  | holdupMeasure (mj : Fin 65536)
  /-- RAIL_FAULT: A regulator leaving regulation raises device-fatal 0x020A and stops the module (R516) -/
  | railFault (rail : Fin 7) (written : Bool)
  /-- RAIL_POWER_GOOD: A rail reports power-good and the next rail in sequence starts (R516) -/
  | railPowerGood (rail : Fin 7)
  /-- POWER_SAMPLE: Every 10 µs the power controller samples input power and moves the excursion timer and throttle level (R519) -/
  | powerSample (mv : Fin 65536) (ma10 : Fin 65536) (p10us : Fin 1024) (p10ms : Fin 1024) (uj : Nat)
  /-- PW_LIMIT_WRITE: A write of PW_LIMIT.host sets the host limit, clamped into range (R518) -/
  | pwLimitWrite (v : Word)
  /-- THERMAL_SAMPLE: Sensor readings update the thermal state and thermal throttle level (R521) -/
  | thermalSample (die : Fin 256) (lid : Fin 256) (dram : Fin 256) (conv : Fin 256) (sw : Fin 256) (bank : Fin 256) (hot : Fin 24) (written : Bool)
  /-- THERMAL_COMPARATOR_TRIP: A die sensor above 125 °C disables the bus converter directly (R521) -/
  | thermalComparatorTrip
  /-- ATTN_BUTTON_PRESS: A debounced press of ATTN_BTN# starts the module from off or clears a latch (R526) -/
  | attnButtonPress
  /-- MCTP_CONTROL: An MCTP control message over SMBus is answered (R524) -/
  | mctpControl (cmd : Fin 256) (arg : Fin 256)
  /-- PLDM_SENSOR_READ: A PLDM request returns a numeric or state sensor reading (R525) -/
  | pldmSensorRead (id : Fin 16)
  /-- PLDM_POWER_LIMIT_SET: The PLDM numeric effecter sets or removes the out-of-band power limit (R526) -/
  | pldmPowerLimitSet (v : Fin 65536)
  /-- PLDM_POWER_OFF: The PLDM power effecter off acts as a slot off write (R526) -/
  | pldmPowerOff
  /-- PLDM_POWER_ON: The PLDM power effecter on starts the module from auxiliary or latched off (R526) -/
  | pldmPowerOn
  /-- PLDM_FW_UPDATE: A PLDM firmware update request feeds a component's manifest and pieces to the update agent (R600) -/
  | pldmFwUpdate (r : PldmFw)
  /-- MOD_RESET: MOD_RESET# starts a start-up with rails kept up (R529) -/
  | modReset
  /-- PERST_ASSERT: PERST# resets the endpoint and each partition as an FLR (R529) -/
  | perstAssert
  /-- START_UP: A start-up begins from stage 1 after a power-on or reset (R532) -/
  | startUp
  /-- STARTUP_STAGE_COMPLETE: A start-up stage ends and the next begins, ending with ready (R532) -/
  | startupStageComplete (n : Fin 8) (f : StageFacts)
  /-- PRELOAD_COMPLETE: A preload's content object finishes decrypting and authenticates, activating its templates or failing (R546) -/
  | preloadComplete (k : Fin 256)
  /-- GL_SEAL: A write of GL_CTRL.seal seals configuration until the next start-up (R542) -/
  | glSeal (fn : Fin 16)
  /-- GL_RESTART: A write of GL_CTRL.restart with key 0x5A5A starts a start-up (R549) -/
  | glRestart (fn : Fin 16) (key : Fin 65536)
  /-- WATCHDOG_EXPIRY: A watchdog fires after 16 µs without progress and reports a fault (R557) -/
  | watchdogExpiry (e : Fin 6)
  /-- BOLE_OUT_OF_SERVICE: FT_SVC_CTRL op 1 drains a bole and replaces it with a stand-in or degrades its groups (R567) -/
  | boleOutOfService (p : Fin 128)
  /-- SERVICE_DRAIN_COMPLETE: The commands on a bole taken out of service commit and the stand-in or offline step follows (R567) -/
  | serviceDrainComplete (p : Fin 68)
  /-- BOLE_INTO_SERVICE: FT_SVC_CTRL op 2 self-tests and scrubs a bole to return it to service (R568) -/
  | boleIntoService (p : Fin 128)
  /-- BOLE_SELFTEST_COMPLETE: A returning bole's self-test ends and it goes online, stays pending, stands in or stays offline (R568) -/
  | boleSelftestComplete (p : Fin 68) (ok : Bool)
  /-- ROW_REPAIR_REQUEST: FT_SVC_CTRL op 3 queues a DRAM row repair for the next gap (R569) -/
  | rowRepairRequest
  /-- FT_RSEL_WRITE: A write of FT_RSEL snapshots a fault log or flash log record (R555) -/
  | ftRselWrite (v : Word)
  /-- SPDM_REQUEST: An SPDM request through the mailbox or MCTP is answered with signed attestation data (R583) -/
  | spdmRequest (mctp : Option (List Byte))
  /-- DEBUG_CHALLENGE: A mailbox request of kind 2 returns a debug unlock challenge (R592) -/
  | debugChallenge
  /-- DEBUG_RESPONSE: A mailbox request of kind 3 verifies the signed response and sets debug_pending or refuses (R592) -/
  | debugResponse
  /-- DEBUG_CHALLENGE_TIMEOUT: A challenge unanswered within 10 s is discarded (R592) -/
  | debugChallengeTimeout
  /-- OWNER_TRANSFER: A mailbox request of kind 4 verifies and applies an owner transfer (R588) -/
  | ownerTransfer
  /-- UPDATE_MANIFEST: UP_CTRL op 1 checks and stores an update manifest or resumes its collection (R595) -/
  | updateManifest
  /-- UPDATE_PIECE: UP_CTRL op 2 hashes, writes and records one update piece (R596) -/
  | updatePiece (n : Fin 65536)
  /-- UPDATE_ACTIVATE: UP_CTRL op 3 reads back every piece and activates the component (R599) -/
  | updateActivate (bad : Option (Fin 65536))
  /-- UPDATE_ABORT: UP_CTRL op 4 abandons the manifest being collected (R595) -/
  | updateAbort
  /-- STEWARD_HANDOVER: Verified steward firmware takes over from the old image by switching execution slots (R601) -/
  | stewardHandover (heartbeat : Bool)
  /-- HANDOVER_HEARTBEAT_TIMEOUT: A new steward image without heartbeat within 100 ms is replaced by the old slot (R601) -/
  | handoverHeartbeatTimeout
  /-- UP_ONAIR_WRITE: A write of UP_ONAIR sets the function's on_air bit (R598) -/
  | upOnairWrite (fn : Fin 16) (v : Bool)
  /-- ENTROPY_HEALTH_FAIL: An entropy health test fails, stopping start-up or refusing fresh-randomness operations (R579) -/
  | entropyHealthFail
  /-- ENTROPY_HEALTH_RECOVERED: Health tests pass for 1 s and fresh-randomness operations resume (R579) -/
  | entropyHealthRecovered
  /-- CLOCK_SOURCE_READY: A clock source held within its monitor limits for 1 ms, with its shadow PLLs locked, becomes ready again, ending the state
  of R73 in which a further source failure stops the module (R67) -/
  | clockSourceReady (src : Fin 4)
  /-- PERST_DEASSERT: Deassertion of PERST# starts the 80 ms configuration-retry bound and releases WAKE# after 48 V has returned (R416) -/
  | perstDeassert
  /-- AUX_POWER_LOSS: 3V3_AUX is removed, so the module either loses its auxiliary state with 48 V present or becomes fully unpowered and harmless
  (R508) (R509) -/
  | auxPowerLoss
  /-- SKIDWAY_PORT_TRAINED: A Skidway port's training or retrain ends, so the port sends HELLO or goes down if the retrain failed (R488) -/
  | skidwayPortTrained (port : Fin 3) (ok : Bool)
  /-- PW_RAIL_SEL_WRITE: A write of PW_RAIL_SEL clears ready and snapshots the selected rail's voltage and current into PW_RAIL_DATA (R528) -/
  | pwRailSelWrite (v : Word) (mv : Fin 65536) (ma100 : Fin 65536)
  /-- PICTURE_SET_ASIDE: After an engine fault the next online engine to reach a coding-block boundary checkpoints its own picture and sets it aside
  to take the killed picture's re-run (R557) -/
  | pictureSetAside (e : Fin 6)
  deriving DecidableEq, Repr

end Sys2Proof
end

