-- ==== Sys2Proof/Decode.lean ====
section
/-! DEFINITION. The command a table word spells: the opcode table gives no row any bits, so no word spells one. -/

namespace Sys2Proof

/-- The command that a word of the opcode table's bits spells: none, since the rows carry no bits. [DESIGN CHOICE, log entry 107] -/
def decodeTableWord (_nbits _w : Nat) : Option Instr := none

end Sys2Proof
end

