-- ==== Sys2Proof/Config.lean ====
section
/-! DEFINITION. What an implementation fixes and the values the spec leaves open: opaque constants, so that nothing can be proved about
the values they take. -/

namespace Sys2Proof.Config

/-- FREE VALUE: what a DRAM byte reads as that has not been written under the keys in use; first argument: how often keys or owners
changed, second: data address (R376, R377). [DESIGN CHOICE, log entry 4; DESIGN CHOICE, log entry 10] -/
opaque freeDram : Nat → Nat → Byte

/-- FREE VALUE: a fresh byte for every draw of the state's counter. [DESIGN CHOICE, log entry 4] -/
opaque freeByte : Nat → Byte

/-- FREE VALUE: a fresh 32-bit value for every draw. [DESIGN CHOICE, log entry 4] -/
opaque freeWord : Nat → Word

/-- FREE VALUE: how many steps of the last place the result of a table function of the vector unit lies off the exact one, which R120 bounds: number of the
function, operand. [DESIGN CHOICE, log entry 4] -/
opaque vecUlp : Nat → Word → Nat

/-- FREE VALUE: what an instruction takes for a draw in a cut list that says it draws nothing: tensor ID, element index (R313). [DESIGN CHOICE, log entry 4] -/
opaque undrawn : Nat → Nat → Word

/-- The serial number of this module (R550). -/
opaque serial : Dword

/-- SHA-384 of some bytes: 48 bytes; the standard stands outside the spec. -/
opaque sha384 : List Byte → List Byte

/-- Does an ECDSA P-384 signature (96 bytes) over the SHA-384 of a message hold under a public key (97 bytes)? The standard stands outside the spec. -/
opaque sigOk : List Byte → List Byte → List Byte → Bool

/-- Does the HMAC of a migrated plan copy hold for this steward version (R547)? -/
opaque macOk : Word → List Byte → List Byte → Bool

/-- The firmware's conversion of a plan of an older format into one of its own, with the HMAC of a migrated copy, for this steward version (R547). -/
opaque convertPlan : Word → List Byte → List Byte

/-- Is a steward or microcode image signed by the Graolo root key whose hash the ROM holds (R575, R577)? The image header's layout is not given. -/
opaque imageSigned : List Byte → Bool

/-- Is a manifest signed by the Graolo firmware key (R594)? Signed bytes and signature block. -/
opaque graoloSigned : List Byte → List Byte → Bool

/-- Is a debug challenge answered under the Graolo debug key (R592)? -/
opaque debugSigned : List Byte → List Byte → Bool

/-- Is a debug challenge answered under the owner key whose hash the owner slot holds (R592)? Owner hash, challenge, signature. -/
opaque ownerDebugSigned : List Byte → List Byte → List Byte → Bool

/-- Is an owner transfer record signed by the current owner (R588)? Owner hash and record. -/
opaque transferSigned : List Byte → List Byte → Bool

/-- A byte of the entropy source, by draw and position: nonces (R579). -/
opaque entropy : Nat → Nat → Byte

/-- The X.509 form of a certificate, by whether it is the root's, the manufacturing CA's, the DIK's, the alias key's, the CKA's or the one marked debug, by what
its key derives from, whether it names the module serial, and the measurements that it carries (R582). [PRESUMED, log entry 51] -/
opaque certForm : Nat → List Byte → Bool → List Byte → List Byte

/-- The boot ROM's version, fixed in silicon (R575, measurement 1). -/
opaque romVersion : Word

/-- The answer of the SPDM responder, by draw, request, certificate chain and the measured state as bytes: signatures and the message formats stand outside
the spec (R583, R584). [PRESUMED, log entry 51] -/
opaque spdmAnswer : Nat → List Byte → List Byte → List Byte → List Byte

/-- The answer of the MCTP control or PLDM firmware, by request and what it reports: the message formats stand outside the spec (R524, R525). [PRESUMED, log entry 51] -/
opaque mctpAnswer : List Byte → List Nat → List Byte

/-- What the unwrap and decryption of a content object give on this module, by serial number, owner hash and generation: the plaintext, or none where the
key does not unwrap or the tag does not hold (R586). -/
opaque openContent : Dword → List Byte → Nat → List Byte → Option (List Byte)

/-- New owner hash, generation and module serial named by an owner transfer record, whose layout is not given (R588). -/
opaque transferFields : List Byte → List Byte × Nat × Nat

/-- The seed records of a plan section: partition, entry, value; the layout is not given (table Plan sections). [DESIGN CHOICE, log entry 36] -/
opaque planSeeds : List Byte → List (Nat × Nat × Nat)

/-- The queue records of a plan section: operation, partition, shape words and argument words of the create operation; the layout is not given. [DESIGN CHOICE, log entry 36] -/
opaque planQueues : List Byte → List (Nat × Nat × List Nat × List Nat)

/-- The cut-list records of a plan section: partition and binary; where one ends is not given. [DESIGN CHOICE, log entry 36] -/
opaque planLists : List Byte → List (Nat × List Byte)

/-- The dictionary images of a plan section; where one ends is not given. [DESIGN CHOICE, log entry 36] -/
opaque planDicts : List Byte → List (List Byte)

/-- The context records of a plan section: kind, partition, parameter record; the layout is not given. [DESIGN CHOICE, log entry 36] -/
opaque planCtxs : List Byte → List (Nat × Nat × List Byte)

/-- The preload records of a plan section: hash of the object's header, data address, length, partition; the layout is not given. [DESIGN CHOICE, log entry 36] -/
opaque planPreloads : List Byte → List (List Byte × Nat × Nat × Nat)

/-- FREE VALUE: the sign bit of the minimum or maximum of two zeros of opposite sign; vop and operands. [DESIGN CHOICE, log entry 4; DESIGN CHOICE, log entry 82] -/
opaque zeroSign : Nat → Word → Word → Bool

/-- FREE VALUE: an INT32 shift by 32 or more; vop, value, amount. [DESIGN CHOICE, log entry 4; DESIGN CHOICE, log entry 82] -/
opaque wideShift : Nat → Word → Word → Word

/-- FREE VALUE: the convolution of a diagonal tile (T7), from its block width code and its number of feed steps: kernel size, stride, and the group width
or 0 for a depth-wise one. R110 says what the feed steps of each are; no field of TILE says which it is. [DESIGN CHOICE, log entry 4; DESIGN CHOICE, log entry 92] -/
opaque diagConv : Nat → Nat → Nat × Nat × Nat

/-- FREE VALUE: where the first input row of a channel of a diagonal tile stands in the A panel, in elements (R260: its rows follow contiguously): block
width code, feed steps, channel. [DESIGN CHOICE, log entry 4; DESIGN CHOICE, log entry 92] -/
opaque diagChan : Nat → Nat → Nat → Nat

/-- FREE VALUE: where an A operand of a grouped diagonal tile stands in the A panel, in elements: block width code, feed steps, input channel, row, tap. [DESIGN CHOICE, log entry 4; DESIGN CHOICE, log entry 92] -/
opaque diagGroup : Nat → Nat → Nat → Nat → Nat → Nat

/-- FREE VALUE: where a tap of a diagonal tile stands in the B panel, in elements: block width code, feed steps, output channel, tap, input channel in
its group. [DESIGN CHOICE, log entry 4; DESIGN CHOICE, log entry 92] -/
opaque diagTap : Nat → Nat → Nat → Nat → Nat → Nat

/-- FREE VALUE: the cache key of a delta command, from the check field of its cut list and its argument words (R249, R250); the spec does not say
where a command carries it. [DESIGN CHOICE, log entry 4] -/
opaque cacheKey : Nat → List Nat → Word

/-- FREE VALUE: does an activate draw a neighbour refresh? Draw and exponent k; it happens with probability 2^-k, and the sequence cannot be read (R382). [DESIGN CHOICE, log entry 4; DESIGN CHOICE, log entry 98] -/
opaque rowDraw : Nat → Nat → Bool

/-- FREE VALUE: does an activate bring a Refresh Management command? The rule stands in the DDR5 standard and the thresholds in the devices (R383). [DESIGN CHOICE, log entry 4; DESIGN CHOICE, log entry 98] -/
opaque rfmDraw : Nat → Bool

/-- A sample that an engine decodes: what the standards make of the context's parameters, its history, the access unit and the microcode version; plane, row,
column. The standards stand outside the spec (R303, R320, R330). [DESIGN CHOICE, log entry 4; DESIGN CHOICE, log entry 118] -/
opaque decodedSample : List Byte → Nat → List Byte → Word → Nat → Nat → Nat → Nat

/-- What an access unit makes of a decode context's history. -/
opaque decNext : List Byte → Nat → List Byte → Word → Nat

/-- A sample after film grain synthesis (R323), whose grain the access unit carries: as for a decoded sample, and the sample without grain. -/
opaque grainSample : List Byte → Nat → List Byte → Word → Nat × Nat × Nat → Nat → Nat

/-- A sample that an encode engine reconstructs, from all that its bitstream depends on (R344); plane, row, column. -/
opaque encSample : List Byte → Nat → List Byte → Nat → Word → Nat × Nat × Nat → Nat

/-- FREE VALUE: a sample of a plane that a frame does not have (R263): plane, row, column of the box. [DESIGN CHOICE, log entry 4] -/
opaque noPlane : Nat → Nat → Nat → Nat

/-- FREE VALUE: the level of a change map entry where there is no picture of the same shape to compare with: history of the context, row, column (R247). [DESIGN CHOICE, log entry 4; DEDUCED, log entry 68] -/
opaque mapLevel : Nat → Nat → Nat → Nat

/-- The bitstream of an encode command: its bytes, from context parameters, what the history makes of rate control, source samples, command flags and
microcode version, on which alone it depends (R344). [DESIGN CHOICE, log entry 70] -/
opaque encBytes : List Byte → Nat → List Byte → Nat → Word → List Byte

/-- What the history makes of rate control after the command (R344). [DESIGN CHOICE, log entry 70] -/
opaque encNext : List Byte → Nat → List Byte → Nat → Word → Nat

/-- Were at least three quarters of the picture's CTUs coded intra (R345)? [DESIGN CHOICE, log entry 70] -/
opaque encIntra : List Byte → Nat → List Byte → Nat → Word → Bool

/-- FREE VALUE: the coefficient of an activity event, in µJ / 65,536 for each: 0 DRAM byte, 1 PCIe byte, 2 Skidway byte, 3 media pixel, 4 scratchpad or
accumulator line, 64 + 16 × format of A + format of B for a MAC; the spec fixes them per stepping and does not give them (R299). [DESIGN CHOICE, log entry 4; DESIGN CHOICE, log entry 13] -/
opaque energyCoef : Nat → Nat

/-- FREE VALUE: the part of an attempt's energy, in µJ / 65,536, of events whose count the spec does not give: line accesses and writes to the host (R299). [DESIGN CHOICE, log entry 4; DESIGN CHOICE, log entry 13] -/
opaque energyLines : Nat → Nat

end Sys2Proof.Config
end

