-- ==== Sys2Proof/Machine/Bits.lean ====
section
/-! DEFINITION. Bit fields, byte order, sparse tables, byte memories, stamps and the cyclic redundancy checks that several chapters share. -/

namespace Sys2Proof.Machine

/-- Bits `lo + w - 1` down to `lo` of a number. -/
def bits (v lo w : Nat) : Nat := (v >>> lo) % 2 ^ w

/-- Bit `i` of a number. -/
def bit (v i : Nat) : Bool := v.testBit i

/-- The number with bits `lo + w - 1` down to `lo` replaced by `x`. -/
def setBits (v lo w x : Nat) : Nat := v - (bits v lo w) * 2 ^ lo + (x % 2 ^ w) * 2 ^ lo

/-- A bit as a number. -/
def b2n (b : Bool) : Nat := if b then 1 else 0

/-- Two's complement reading of the low `w` bits. -/
def sgn (w v : Nat) : Int := if v % 2 ^ w < 2 ^ (w - 1) then (v % 2 ^ w : Nat) else (v % 2 ^ w : Nat) - (2 ^ w : Nat)

/-- The low `w` bits of an integer in two's complement. -/
def wrapN (w : Nat) (v : Int) : Nat := (v % (2 ^ w : Nat)).toNat

/-- Ceiling of a quotient. -/
def cdiv (a b : Nat) : Nat := (a + b - 1) / b

/-- Little-endian bytes of a number, `n` of them (R3). -/
def leBytes : Nat → Nat → List Byte
  | 0, _ => []
  | n + 1, v => BitVec.ofNat 8 v :: leBytes n (v / 256)

/-- The number that little-endian bytes spell (R3). -/
def leNat : List Byte → Nat
  | [] => 0
  | b :: bs => b.toNat + 256 * leNat bs

/-- `n` bytes of a list from offset `o`, little-endian; bytes beyond the end read 0. -/
def field (bs : List Byte) (o n : Nat) : Nat := leNat ((bs.drop o).take n)

/-- A list with element `i` replaced. -/
def setAt {α : Type} (l : List α) (i : Nat) (x : α) : List α := l.set i x

/-- Positions whose bit is set in the low `n` bits of a mask, rising. -/
def maskList (n mask : Nat) : List Nat := (List.range n).filter (fun i => mask.testBit i)

/-- The mask of a list of positions. -/
def listMask (l : List Nat) : Nat := l.foldl (fun m i => m ||| 2 ^ i) 0

/-- The entry of a key. -/
def tget {α : Type} : Tab α → Nat → Option α
  | [], _ => none
  | (k, v) :: t, a => if k = a then some v else tget t a

/-- The entry of a key, or a default. -/
def tgetD {α : Type} (t : Tab α) (a : Nat) (d : α) : α := (tget t a).getD d

/-- Sets the entry of a key, keeping the keys in rising order. -/
def tput {α : Type} : Tab α → Nat → α → Tab α
  | [], a, x => [(a, x)]
  | (k, v) :: t, a, x =>
    if a < k then (a, x) :: (k, v) :: t
    else if a = k then (a, x) :: t
    else (k, v) :: tput t a x

/-- Removes the entry of a key. -/
def tdel {α : Type} : Tab α → Nat → Tab α
  | [], _ => []
  | (k, v) :: t, a => if k = a then tdel t a else (k, v) :: tdel t a

/-- Sets a word of a table whose unlisted words read 0. -/
def wput {n : Nat} (t : Tab (BitVec n)) (a : Nat) (x : BitVec n) : Tab (BitVec n) := if x = 0 then tdel t a else tput t a x

/-- Two tables in one; where both have a key, the first one's entry. -/
def tmerge {α : Type} : Nat → Tab α → Tab α → Tab α
  | 0, a, _ => a
  | _ + 1, [], b => b
  | _ + 1, a, [] => a
  | n + 1, (i, x) :: a, (j, y) :: b =>
    if i < j then (i, x) :: tmerge n a ((j, y) :: b)
    else if j < i then (j, y) :: tmerge n ((i, x) :: a) b
    else (i, x) :: tmerge n a b

/-- Changes the entry of a key, if there is one. -/
def tmod {α : Type} (t : Tab α) (a : Nat) (f : α → α) : Tab α :=
  match tget t a with
  | some v => tput t a (f v)
  | none => t

/-- A table with every entry changed. -/
def tmap {α : Type} (t : Tab α) (f : α → α) : Tab α := t.map fun e => (e.1, f e.2)

/-- The keys of a table. -/
def tkeys {α : Type} (t : Tab α) : List Nat := t.map (·.1)

/-- The lowest number below `n` that is no key of the table. [DESIGN CHOICE, log entry 103] -/
def tfree {α : Type} (t : Tab α) (n : Nat) : Option Nat := (List.range n).find? (fun i => (tget t i).isNone)

/-- The canonical form of a table: keys strictly rising. -/
def Tab.wf {α : Type} : Tab α → Bool
  | [] => true
  | [_] => true
  | (k, _) :: (k', v') :: t => decide (k < k') && Tab.wf ((k', v') :: t)

/-- Canonical form of a byte memory whose unlisted bytes read `d`: addresses strictly rising and no listed byte equal to `d`. -/
def Memory.wf (d : Byte) (m : Mem) : Bool := Tab.wf m && m.all (fun c => c.2 != d)

/-- Canonical form of a byte memory whose unlisted bytes hold no value of their own: addresses strictly rising. -/
def Memory.wfOpen (m : Mem) : Bool := Tab.wf m

/-- The byte at an address of a memory whose unlisted bytes read `d`. -/
def mget (d : Byte) (m : Mem) (a : Nat) : Byte := tgetD m a d

/-- Writes one byte; writing the unlisted value removes the entry. -/
def mput (d : Byte) (m : Mem) (a : Nat) (b : Byte) : Mem := if b = d then tdel m a else tput m a b

/-- Reads consecutive bytes. -/
def mread (d : Byte) (m : Mem) (a : Nat) : Nat → List Byte
  | 0 => []
  | n + 1 => mget d m a :: mread d m (a + 1) n

/-- Writes consecutive bytes. -/
def mwrite (d : Byte) (m : Mem) (a : Nat) : List Byte → Mem
  | [] => m
  | b :: bs => mwrite d (mput d m a b) (a + 1) bs

/-- Removes every listed byte in `[lo, hi)`. -/
def mclear (m : Mem) (lo hi : Nat) : Mem := m.filter (fun c => c.1 < lo || hi ≤ c.1)

/-! Stamps: the 64-bit timeline word of R10. -/

/-- Frame field of a stamp. -/
def stFrame (s : Nat) : Nat := bits s 32 32
/-- Line field of a stamp. -/
def stLine (s : Nat) : Nat := bits s 16 16
/-- Subline field of a stamp. -/
def stSub (s : Nat) : Nat := bits s 0 16
/-- A stamp from its parts. -/
def mkStamp (f l u : Nat) : Nat := (f % 2 ^ 32) * 2 ^ 32 + (l % 2 ^ 16) * 2 ^ 16 + u % 2 ^ 16
/-- The value that means no constraint (R42). -/
def noStamp : Nat := 2 ^ 64 - 1

/-- The signed-difference order of R41 on 32-bit numbers, with its tie rule: is `a` earlier than `b`? -/
def seqLt (a b : Nat) : Bool :=
  let d := (b + 2 ^ 32 - a) % 2 ^ 32
  if d = 2 ^ 31 then decide (a < b) else decide (0 < d ∧ d < 2 ^ 31)

/-- The order of stamps (R41): is `a` earlier than `b`? -/
def stLt (a b : Nat) : Bool :=
  if stFrame a = stFrame b then decide (a % 2 ^ 32 < b % 2 ^ 32) else seqLt (stFrame a) (stFrame b)

/-- `a` is not later than `b`. -/
def stLe (a b : Nat) : Bool := !stLt b a

/-- One byte step of a reflected CRC with polynomial `poly`. -/
def crcBits (poly : Nat) : Nat → Nat → Nat
  | 0, c => c
  | n + 1, c => crcBits poly n (if c % 2 = 1 then (c >>> 1) ^^^ poly else c >>> 1)

/-- Reflected CRC over bytes, running value. -/
def crcRun (poly : Nat) (c : Nat) : List Byte → Nat
  | [] => c
  | b :: bs => crcRun poly (crcBits poly 8 (c ^^^ b.toNat)) bs

/-- CRC-32 as used in IEEE 802.3 (R194). -/
def crc32 (bs : List Byte) : Nat := crcRun 0xEDB88320 0xFFFFFFFF bs ^^^ 0xFFFFFFFF

/-- CRC-32C (R554). -/
def crc32c (bs : List Byte) : Nat := crcRun 0x82F63B78 0xFFFFFFFF bs ^^^ 0xFFFFFFFF

end Sys2Proof.Machine
end

