-- ==== Sys2Proof/Machine/RegTable.lean ====
section
/-! DEFINITION. The registers of BAR0 and of the Module Slot and configuration space that the block gives effects: one named field per row of the spec's register tables (offset in its block, bits, access code, reset value), and the table that finds the fields of an offset. -/

namespace Sys2Proof.F

/-- R30 -/ def id_level : Fld := ⟨0x0, 0, 2, .ro, 0⟩
/-- R30 -/ def id_g : Fld := ⟨0x0, 8, 2, .ro, 0⟩
/-- R30 -/ def id_q : Fld := ⟨0x0, 10, 2, .ro, 0⟩
/-- R30 -/ def id_b : Fld := ⟨0x0, 12, 2, .ro, 0⟩
/-- R30 -/ def id_ustory : Fld := ⟨0x0, 14, 1, .ro, 0⟩
/-- R30 -/ def id_laddrValid : Fld := ⟨0x0, 15, 1, .ro, 0⟩
/-- R30 -/ def id_phys : Fld := ⟨0x0, 16, 7, .ro, 0⟩
/-- R30 -/ def status_state : Fld := ⟨0x4, 0, 3, .ro, 0⟩
/-- R30 -/ def status_busy : Fld := ⟨0x4, 3, 1, .ro, 0⟩
/-- R30 -/ def status_inflight : Fld := ⟨0x4, 16, 13, .ro, 0⟩
/-- R30 -/ def epoch_epoch : Fld := ⟨0x8, 0, 32, .ro, 0⟩
/-- R30 -/ def owner_partition : Fld := ⟨0xc, 0, 4, .ro, 0⟩
/-- R30 -/ def owner_owned : Fld := ⟨0xc, 4, 1, .ro, 0⟩
/-- R30 -/ def cmdQ_sq : Fld := ⟨0x10, 0, 14, .ro, 0⟩
/-- R30 -/ def cmdQ_valid : Fld := ⟨0x10, 15, 1, .ro, 0⟩
/-- R30 -/ def cmdSeq_seq : Fld := ⟨0x14, 0, 32, .ro, 0⟩
/-- R192 -/ def win0_base : Fld := ⟨0x400, 0, 32, .ro, 0⟩
/-- R192 -/ def win1_limit : Fld := ⟨0x404, 0, 32, .ro, 0⟩
/-- R192 -/ def win2_srcLo : Fld := ⟨0x408, 0, 32, .ro, 0⟩
/-- R192 -/ def win3_srcHi : Fld := ⟨0x40c, 0, 32, .ro, 0⟩
/-- R192 -/ def win4_modMask : Fld := ⟨0x410, 0, 8, .ro, 0⟩
/-- R192 -/ def win4_modPart : Fld := ⟨0x410, 8, 4, .ro, 0⟩
/-- R192 -/ def win5_expiryLo : Fld := ⟨0x414, 0, 32, .ro, 0⟩
/-- R192 -/ def win6_expiryHi : Fld := ⟨0x418, 0, 32, .ro, 0⟩
/-- R192 -/ def win7_wlim : Fld := ⟨0x41c, 0, 32, .ro, 0⟩
/-- R192 -/ def win8_wcnt : Fld := ⟨0x420, 0, 32, .ro, 0⟩
/-- R192 -/ def win9_bytes : Fld := ⟨0x424, 0, 32, .ro, 0⟩
/-- R192 -/ def win10_state : Fld := ⟨0x428, 0, 3, .ro, 0⟩
/-- R192 -/ def win10_rejects : Fld := ⟨0x428, 16, 16, .ro, 0⟩
/-- R192 -/ def win11_partition : Fld := ⟨0x42c, 0, 4, .ro, 0⟩
/-- R192 -/ def win11_valid : Fld := ⟨0x42c, 4, 1, .ro, 0⟩
/-- R192 -/ def win11_slot : Fld := ⟨0x42c, 16, 12, .ro, 0⟩
/-- R192 -/ def winCap_cap : Fld := ⟨0x700, 0, 5, .ro, 0⟩
/-- R192 -/ def winOpen_open : Fld := ⟨0x704, 0, 16, .ro, 0⟩
/-- R192 -/ def winRej_rejects : Fld := ⟨0x708, 0, 16, .ro, 0⟩
/-- R192 -/ def winRej_lastCause : Fld := ⟨0x708, 16, 3, .ro, 0⟩
/-- R302 -/ def acBusyLo_busy : Fld := ⟨0x800, 0, 32, .ro, 0⟩
/-- R302 -/ def acBusyHi_busy : Fld := ⟨0x804, 0, 32, .ro, 0⟩
/-- R302 -/ def acCommit_committed : Fld := ⟨0x808, 0, 32, .ro, 0⟩
/-- R302 -/ def acKill_killed : Fld := ⟨0x80c, 0, 32, .ro, 0⟩
/-- R302 -/ def acPreempt_preempted : Fld := ⟨0x810, 0, 32, .ro, 0⟩
/-- R302 -/ def acEnergyLo_energy : Fld := ⟨0x814, 0, 32, .ro, 0⟩
/-- R302 -/ def acEnergyHi_energy : Fld := ⟨0x818, 0, 32, .ro, 0⟩
/-- R234 -/ def bkStat_active : Fld := ⟨0x1000, 0, 4, .ro, 0⟩
/-- R234 -/ def bkStat_blocked : Fld := ⟨0x1000, 4, 4, .ro, 0⟩
/-- R234 -/ def bkPc_pc : Fld := ⟨0x1010, 0, 16, .ro, 0⟩
/-- R234 -/ def bkPc_depth : Fld := ⟨0x1010, 16, 3, .ro, 0⟩
/-- R234 -/ def bkPc_valid : Fld := ⟨0x1010, 19, 1, .ro, 0⟩
/-- R234 -/ def bkPc_slot : Fld := ⟨0x1010, 20, 12, .ro, 0⟩
/-- R234 -/ def bkFault_code : Fld := ⟨0x1020, 0, 16, .ro, 0⟩
/-- R234 -/ def bkFault_pc : Fld := ⟨0x1020, 16, 16, .ro, 0⟩
/-- R234 -/ def bkFaultCtx_ctx : Fld := ⟨0x1024, 0, 2, .ro, 0⟩
/-- R234 -/ def bkFaultCtx_slot : Fld := ⟨0x1024, 2, 12, .ro, 0⟩
/-- R234 -/ def bkFaultCtx_valid : Fld := ⟨0x1024, 31, 1, .w1c, 0⟩
/-- R234 -/ def bkIssuedLo_count : Fld := ⟨0x1028, 0, 32, .ro, 0⟩
/-- R234 -/ def bkIssuedHi_count : Fld := ⟨0x102c, 0, 32, .ro, 0⟩
/-- R234 -/ def bkTickets_count : Fld := ⟨0x1030, 0, 32, .ro, 0⟩
/-- R234 -/ def bkDup_count : Fld := ⟨0x1034, 0, 32, .ro, 0⟩
/-- R234 -/ def bkSem_value : Fld := ⟨0x1040, 0, 32, .ro, 0⟩
/-- R125 -/ def arrCfg_fpSlack : Fld := ⟨0x2000, 0, 3, .rwp, 1⟩
/-- R125 -/ def arrState_busy : Fld := ⟨0x2004, 0, 16, .ro, 0⟩
/-- R125 -/ def arrState_quartered : Fld := ⟨0x2004, 16, 16, .ro, 0⟩
/-- R125 -/ def arrCover_residue : Fld := ⟨0x2008, 0, 16, .ro, 0⟩
/-- R125 -/ def arrSpare_a0 : Fld := ⟨0x2010, 0, 8, .ro, 0⟩
/-- R125 -/ def arrSpare_a1 : Fld := ⟨0x2010, 8, 8, .ro, 0⟩
/-- R125 -/ def arrSpare_a2 : Fld := ⟨0x2010, 16, 8, .ro, 0⟩
/-- R125 -/ def arrSpare_a3 : Fld := ⟨0x2010, 24, 8, .ro, 0⟩
/-- R125 -/ def chkTilesLo_tiles : Fld := ⟨0x2020, 0, 32, .ro, 0⟩
/-- R125 -/ def chkTilesHi_tiles : Fld := ⟨0x2024, 0, 32, .ro, 0⟩
/-- R125 -/ def chkFail_mismatch : Fld := ⟨0x2028, 0, 16, .ro, 0⟩
/-- R125 -/ def chkFail_transient : Fld := ⟨0x2028, 16, 16, .ro, 0⟩
/-- R125 -/ def chkSkip_columns : Fld := ⟨0x202c, 0, 32, .ro, 0⟩
/-- R125 -/ def arrDiag_array : Fld := ⟨0x2030, 0, 4, .rw, 0⟩
/-- R125 -/ def arrDiag_start : Fld := ⟨0x2030, 4, 1, .w1s, 0⟩
/-- R125 -/ def arrDiag_busy : Fld := ⟨0x2030, 5, 1, .ro, 0⟩
/-- R125 -/ def arrDiag_done : Fld := ⟨0x2030, 6, 1, .w1c, 0⟩
/-- R125 -/ def arrDiag_fail : Fld := ⟨0x2030, 7, 1, .ro, 0⟩
/-- R125 -/ def arrDiag_row : Fld := ⟨0x2030, 8, 5, .ro, 0⟩
/-- R125 -/ def arrDiag_rowValid : Fld := ⟨0x2030, 13, 1, .ro, 0⟩
/-- R125 -/ def arrDiag_refused : Fld := ⟨0x2030, 14, 1, .w1c, 0⟩
/-- R125 -/ def mvpStat_busy : Fld := ⟨0x2100, 0, 1, .ro, 0⟩
/-- R125 -/ def mvpStat_mode : Fld := ⟨0x2100, 1, 1, .ro, 0⟩
/-- R125 -/ def mvpStallLo_cycles : Fld := ⟨0x2104, 0, 32, .ro, 0⟩
/-- R125 -/ def mvpStallHi_cycles : Fld := ⟨0x2108, 0, 32, .ro, 0⟩
/-- R125 -/ def mvpFail_count : Fld := ⟨0x210c, 0, 16, .ro, 0⟩
/-- R125 -/ def mvpFail_count2 : Fld := ⟨0x210c, 16, 16, .ro, 0⟩
/-- R125 -/ def vuFail_count : Fld := ⟨0x2140, 0, 16, .ro, 0⟩
/-- R125 -/ def vuFail_count2 : Fld := ⟨0x2140, 16, 16, .ro, 0⟩
/-- R125 -/ def accEcc_count : Fld := ⟨0x2180, 0, 16, .ro, 0⟩
/-- R125 -/ def accEcc_count2 : Fld := ⟨0x2180, 16, 16, .ro, 0⟩
/-- R161 -/ def qntStat_desync : Fld := ⟨0x2200, 0, 16, .ro, 0⟩
/-- R161 -/ def qntStat_invalid : Fld := ⟨0x2200, 16, 16, .ro, 0⟩
/-- R161 -/ def scaleLast_expected : Fld := ⟨0x2204, 0, 6, .ro, 0⟩
/-- R161 -/ def scaleLast_found : Fld := ⟨0x2204, 8, 6, .ro, 0⟩
/-- R161 -/ def scaleLast_operand : Fld := ⟨0x2204, 14, 1, .ro, 0⟩
/-- R161 -/ def scaleLast_valid : Fld := ⟨0x2204, 15, 1, .w1c, 0⟩
/-- R161 -/ def scaleBlkLo_block : Fld := ⟨0x2208, 0, 32, .ro, 0⟩
/-- R161 -/ def scaleBlkHi_block : Fld := ⟨0x220c, 0, 32, .ro, 0⟩
/-- R161 -/ def qntSrLo_elements : Fld := ⟨0x2210, 0, 32, .ro, 0⟩
/-- R161 -/ def qntSrHi_elements : Fld := ⟨0x2214, 0, 32, .ro, 0⟩
/-- R161 -/ def statSlots_open : Fld := ⟨0x2218, 0, 4, .ro, 0⟩
/-- R193 -/ def spadGateReqLo_banks : Fld := ⟨0x2300, 0, 32, .rw, 0⟩
/-- R193 -/ def spadGateReqHi_banks : Fld := ⟨0x2304, 0, 16, .rw, 0⟩
/-- R193 -/ def spadGateStatLo_banks : Fld := ⟨0x2308, 0, 32, .ro, 0⟩
/-- R193 -/ def spadGateStatHi_banks : Fld := ⟨0x230c, 0, 16, .ro, 0⟩
/-- R193 -/ def spadEcc_count : Fld := ⟨0x2310, 0, 16, .ro, 0⟩
/-- R193 -/ def spadEcc_count2 : Fld := ⟨0x2310, 16, 16, .ro, 0⟩
/-- R193 -/ def spadDrop_count : Fld := ⟨0x2314, 0, 16, .ro, 0⟩
/-- R193 -/ def spadDrop_count2 : Fld := ⟨0x2314, 16, 16, .ro, 0⟩
/-- R193 -/ def spadLast_addr : Fld := ⟨0x2318, 0, 20, .ro, 0⟩
/-- R193 -/ def spadLast_cause : Fld := ⟨0x2318, 20, 8, .ro, 0⟩
/-- R193 -/ def spadLast_valid : Fld := ⟨0x2318, 31, 1, .w1c, 0⟩
/-- R193 -/ def scrub_busy : Fld := ⟨0x231c, 0, 1, .ro, 0⟩
/-- R193 -/ def scrub_fail : Fld := ⟨0x231c, 1, 1, .ro, 0⟩
/-- R193 -/ def scrub_count : Fld := ⟨0x231c, 16, 16, .ro, 0⟩
/-- R266 -/ def dltTests_count : Fld := ⟨0x2400, 0, 32, .ro, 0⟩
/-- R266 -/ def dltUnchanged_count : Fld := ⟨0x2404, 0, 32, .ro, 0⟩
/-- R266 -/ def dltPlane_wb : Fld := ⟨0x2408, 0, 9, .ro, 0⟩
/-- R266 -/ def dltPlane_hb : Fld := ⟨0x2408, 9, 8, .ro, 0⟩
/-- R266 -/ def dltPlane_forced : Fld := ⟨0x2408, 17, 1, .ro, 0⟩
/-- R266 -/ def dltPlane_valid : Fld := ⟨0x2408, 18, 1, .ro, 0⟩
/-- R266 -/ def dltLoads_loads : Fld := ⟨0x240c, 0, 16, .ro, 0⟩
/-- R266 -/ def dltLoads_forced : Fld := ⟨0x240c, 16, 16, .ro, 0⟩
/-- R266 -/ def zcRdLo_bytes : Fld := ⟨0x2410, 0, 32, .ro, 0⟩
/-- R266 -/ def zcRdHi_bytes : Fld := ⟨0x2414, 0, 32, .ro, 0⟩
/-- R266 -/ def zcWrLo_bytes : Fld := ⟨0x2418, 0, 32, .ro, 0⟩
/-- R266 -/ def zcWrHi_bytes : Fld := ⟨0x241c, 0, 32, .ro, 0⟩
/-- R266 -/ def zcErr_count : Fld := ⟨0x2420, 0, 16, .ro, 0⟩
/-- R234 -/ def divStat_online : Fld := ⟨0x1200, 0, 4, .ro, 0⟩
/-- R234 -/ def divStat_mode : Fld := ⟨0x1200, 4, 2, .ro, 0⟩
/-- R234 -/ def divStat_busy : Fld := ⟨0x1200, 6, 1, .ro, 0⟩
/-- R234 -/ def divShares_count : Fld := ⟨0x1204, 0, 32, .ro, 0⟩
/-- R234 -/ def commitDup_count : Fld := ⟨0x1208, 0, 32, .ro, 0⟩
/-- R31 -/ def spare_active : Fld := ⟨0x1000, 0, 1, .ro, 0⟩
/-- R31 -/ def spare_spareOk : Fld := ⟨0x1000, 1, 1, .ro, 0⟩
/-- R31 -/ def spare_slot : Fld := ⟨0x1000, 4, 4, .ro, 0⟩
/-- R31 -/ def spare_gen : Fld := ⟨0x1000, 16, 16, .ro, 0⟩
/-- R31 -/ def offline_mask : Fld := ⟨0x1004, 0, 16, .ro, 0⟩
/-- R193 -/ def lndPart0_part0 : Fld := ⟨0x1100, 0, 4, .rwp, 0⟩
/-- R193 -/ def lndPart0_part1 : Fld := ⟨0x1100, 4, 4, .rwp, 0⟩
/-- R193 -/ def lndPart0_part2 : Fld := ⟨0x1100, 8, 4, .rwp, 0⟩
/-- R193 -/ def lndPart0_part3 : Fld := ⟨0x1100, 12, 4, .rwp, 0⟩
/-- R193 -/ def lndPart0_part4 : Fld := ⟨0x1100, 16, 4, .rwp, 0⟩
/-- R193 -/ def lndPart0_part5 : Fld := ⟨0x1100, 20, 4, .rwp, 0⟩
/-- R193 -/ def lndPart0_part6 : Fld := ⟨0x1100, 24, 4, .rwp, 0⟩
/-- R193 -/ def lndPart0_part7 : Fld := ⟨0x1100, 28, 4, .rwp, 0⟩
/-- R193 -/ def lndPart1_part8 : Fld := ⟨0x1104, 0, 4, .rwp, 0⟩
/-- R193 -/ def lndPart1_part9 : Fld := ⟨0x1104, 4, 4, .rwp, 0⟩
/-- R193 -/ def lndPart1_part10 : Fld := ⟨0x1104, 8, 4, .rwp, 0⟩
/-- R193 -/ def lndPart1_part11 : Fld := ⟨0x1104, 12, 4, .rwp, 0⟩
/-- R193 -/ def lndPart1_part12 : Fld := ⟨0x1104, 16, 4, .rwp, 0⟩
/-- R193 -/ def lndPart1_part13 : Fld := ⟨0x1104, 20, 4, .rwp, 0⟩
/-- R193 -/ def lndPart1_part14 : Fld := ⟨0x1104, 24, 4, .rwp, 0⟩
/-- R193 -/ def lndPart1_part15 : Fld := ⟨0x1104, 28, 4, .rwp, 0⟩
/-- R193 -/ def lndOwned_mask : Fld := ⟨0x1108, 0, 16, .rwp, 0⟩
/-- R193 -/ def lndGateReq_mask : Fld := ⟨0x110c, 0, 16, .rw, 0⟩
/-- R193 -/ def tallyPart0_part0 : Fld := ⟨0x1110, 0, 4, .rwp, 0⟩
/-- R193 -/ def tallyPart0_part1 : Fld := ⟨0x1110, 4, 4, .rwp, 0⟩
/-- R193 -/ def tallyPart0_part2 : Fld := ⟨0x1110, 8, 4, .rwp, 0⟩
/-- R193 -/ def tallyPart0_part3 : Fld := ⟨0x1110, 12, 4, .rwp, 0⟩
/-- R193 -/ def tallyPart0_part4 : Fld := ⟨0x1110, 16, 4, .rwp, 0⟩
/-- R193 -/ def tallyPart0_part5 : Fld := ⟨0x1110, 20, 4, .rwp, 0⟩
/-- R193 -/ def tallyPart0_part6 : Fld := ⟨0x1110, 24, 4, .rwp, 0⟩
/-- R193 -/ def tallyPart0_part7 : Fld := ⟨0x1110, 28, 4, .rwp, 0⟩
/-- R193 -/ def tallyPart1_part8 : Fld := ⟨0x1114, 0, 4, .rwp, 0⟩
/-- R193 -/ def tallyPart1_part9 : Fld := ⟨0x1114, 4, 4, .rwp, 0⟩
/-- R193 -/ def tallyPart1_part10 : Fld := ⟨0x1114, 8, 4, .rwp, 0⟩
/-- R193 -/ def tallyPart1_part11 : Fld := ⟨0x1114, 12, 4, .rwp, 0⟩
/-- R193 -/ def tallyPart1_part12 : Fld := ⟨0x1114, 16, 4, .rwp, 0⟩
/-- R193 -/ def tallyPart1_part13 : Fld := ⟨0x1114, 20, 4, .rwp, 0⟩
/-- R193 -/ def tallyPart1_part14 : Fld := ⟨0x1114, 24, 4, .rwp, 0⟩
/-- R193 -/ def tallyPart1_part15 : Fld := ⟨0x1114, 28, 4, .rwp, 0⟩
/-- R193 -/ def tallyOwned_mask : Fld := ⟨0x1118, 0, 16, .rwp, 0⟩
/-- R193 -/ def lndGateStat_mask : Fld := ⟨0x111c, 0, 16, .ro, 0⟩
/-- R193 -/ def lndEcc_count : Fld := ⟨0x1120, 0, 16, .ro, 0⟩
/-- R193 -/ def lndEcc_count2 : Fld := ⟨0x1120, 16, 16, .ro, 0⟩
/-- R193 -/ def lndFailed_count : Fld := ⟨0x1124, 0, 16, .ro, 0⟩
/-- R76 -/ def ckSrcStat_present : Fld := ⟨0x10000, 0, 4, .ro, 0⟩
/-- R76 -/ def ckSrcStat_ready : Fld := ⟨0x10000, 4, 4, .ro, 0⟩
/-- R76 -/ def ckSrcStat_lost : Fld := ⟨0x10000, 8, 4, .w1c, 0⟩
/-- R76 -/ def ckSrcStat_refused : Fld := ⟨0x10000, 12, 1, .w1c, 0⟩
/-- R76 -/ def ckSrcStat_fallback : Fld := ⟨0x10000, 13, 1, .ro, 0⟩
/-- R76 -/ def ckSrcStat_paused : Fld := ⟨0x10000, 14, 1, .ro, 0⟩
/-- R76 -/ def ckSrcSel_arith : Fld := ⟨0x10004, 0, 2, .ro, 0⟩
/-- R76 -/ def ckSrcSel_fabric : Fld := ⟨0x10004, 2, 2, .ro, 0⟩
/-- R76 -/ def ckSrcSel_media : Fld := ⟨0x10004, 4, 2, .ro, 0⟩
/-- R76 -/ def ckSrcSel_mem : Fld := ⟨0x10004, 6, 2, .ro, 0⟩
/-- R76 -/ def ckSrcSel_mgmt : Fld := ⟨0x10004, 8, 2, .ro, 1⟩
/-- R76 -/ def ckSrcNext_arith : Fld := ⟨0x10008, 0, 2, .rw, 0⟩
/-- R76 -/ def ckSrcNext_fabric : Fld := ⟨0x10008, 2, 2, .rw, 0⟩
/-- R76 -/ def ckSrcNext_media : Fld := ⟨0x10008, 4, 2, .rw, 0⟩
/-- R76 -/ def ckSrcNext_mem : Fld := ⟨0x10008, 6, 2, .rw, 0⟩
/-- R76 -/ def ckSrcNext_mgmt : Fld := ⟨0x10008, 8, 2, .rw, 1⟩
/-- R76 -/ def ckSwitchAtLo_stamp : Fld := ⟨0x1000c, 0, 32, .rw, 0⟩
/-- R76 -/ def ckSwitchAtHi_stamp : Fld := ⟨0x10010, 0, 32, .rw, 0⟩
/-- R76 -/ def ckSwitchCtrl_arm : Fld := ⟨0x10014, 0, 1, .w1s, 0⟩
/-- R76 -/ def ckSwitchCtrl_pending : Fld := ⟨0x10014, 1, 1, .ro, 0⟩
/-- R76 -/ def ckMonPpm_ppm : Fld := ⟨0x10020, 0, 24, .ro, 0⟩
/-- R76 -/ def ckClkout_sel : Fld := ⟨0x10030, 0, 4, .rw, 0⟩
/-- R76 -/ def ckClkout_en : Fld := ⟨0x10030, 4, 1, .rw, 0⟩
/-- R76 -/ def ckClkout_tooFast : Fld := ⟨0x10030, 5, 1, .ro, 0⟩
/-- R76 -/ def ckClkout_div : Fld := ⟨0x10030, 16, 16, .rw, 0⟩
/-- R77 -/ def tlCtrl_src : Fld := ⟨0x10100, 0, 2, .ro, 0⟩
/-- R77 -/ def tlCtrl_srcNext : Fld := ⟨0x10100, 2, 2, .rw, 0⟩
/-- R77 -/ def tlCtrl_arm : Fld := ⟨0x10100, 4, 1, .w1s, 0⟩
/-- R77 -/ def tlCtrl_pending : Fld := ⟨0x10100, 5, 1, .ro, 0⟩
/-- R77 -/ def tlRaster_lines : Fld := ⟨0x10104, 0, 16, .rwp, 1125⟩
/-- R77 -/ def tlRateNum_num : Fld := ⟨0x10108, 0, 32, .rwp, 30⟩
/-- R77 -/ def tlRateDen_den : Fld := ⟨0x1010c, 0, 32, .rwp, 1⟩
/-- R77 -/ def tlNowLo_now : Fld := ⟨0x10110, 0, 32, .ro, 0⟩
/-- R77 -/ def tlNowHi_now : Fld := ⟨0x10114, 0, 32, .ro, 0⟩
/-- R77 -/ def tlSwitchAtLo_stamp : Fld := ⟨0x10118, 0, 32, .rw, 0⟩
/-- R77 -/ def tlSwitchAtHi_stamp : Fld := ⟨0x1011c, 0, 32, .rw, 0⟩
/-- R77 -/ def tlStatus_lock : Fld := ⟨0x10120, 0, 2, .ro, 0⟩
/-- R77 -/ def tlStatus_ptmValid : Fld := ⟨0x10120, 2, 1, .ro, 0⟩
/-- R77 -/ def tlStatus_pinPresent : Fld := ⟨0x10120, 3, 1, .ro, 0⟩
/-- R77 -/ def tlStatus_fsPresent : Fld := ⟨0x10120, 4, 1, .ro, 0⟩
/-- R77 -/ def tlStatus_swFrameValid : Fld := ⟨0x10120, 5, 1, .ro, 0⟩
/-- R77 -/ def tlStatus_refused : Fld := ⟨0x10120, 6, 1, .w1c, 0⟩
/-- R77 -/ def tlStatus_lost : Fld := ⟨0x10120, 7, 1, .w1c, 0⟩
/-- R77 -/ def tlStatus_stepped : Fld := ⟨0x10120, 8, 1, .w1c, 0⟩
/-- R77 -/ def tlStatus_phaseErr : Fld := ⟨0x10120, 16, 16, .ro, 0⟩
/-- R77 -/ def tlSyncCfg_linePulses : Fld := ⟨0x10124, 0, 1, .rwp, 0⟩
/-- R77 -/ def tlSyncCfg_pol : Fld := ⟨0x10124, 1, 1, .rwp, 0⟩
/-- R77 -/ def tlSyncCfg_window : Fld := ⟨0x10124, 8, 8, .rwp, 8⟩
/-- R77 -/ def tlSyncCfg_lossFrames : Fld := ⟨0x10124, 16, 8, .rwp, 3⟩
/-- R77 -/ def tlPtmOriginLo_origin : Fld := ⟨0x10128, 0, 32, .rw, 0⟩
/-- R77 -/ def tlPtmOriginHi_origin : Fld := ⟨0x1012c, 0, 32, .rw, 0⟩
/-- R77 -/ def tlPtmFrame_frame : Fld := ⟨0x10130, 0, 32, .rw, 0⟩
/-- R77 -/ def tlMs_master : Fld := ⟨0x10134, 0, 1, .rwp, 0⟩
/-- R77 -/ def tlMs_backup : Fld := ⟨0x10134, 1, 1, .rwp, 0⟩
/-- R77 -/ def tlMs_fsDriveEn : Fld := ⟨0x10134, 2, 1, .rwp, 0⟩
/-- R77 -/ def tlMs_fsDelayNs : Fld := ⟨0x10134, 16, 16, .rwp, 0⟩
/-- R77 -/ def tlPulseCnt_inside : Fld := ⟨0x10138, 0, 16, .ro, 0⟩
/-- R77 -/ def tlPulseCnt_outside : Fld := ⟨0x10138, 16, 16, .ro, 0⟩
/-- R77 -/ def tlAlarmLo_stamp : Fld := ⟨0x10200, 0, 32, .rw, 0⟩
/-- R77 -/ def tlAlarmHi_stamp : Fld := ⟨0x10204, 0, 32, .rw, 0⟩
/-- R77 -/ def tlAlarmCtrl_vector : Fld := ⟨0x10208, 0, 11, .rw, 0⟩
/-- R77 -/ def tlAlarmCtrl_irqEn : Fld := ⟨0x10208, 11, 1, .rw, 0⟩
/-- R77 -/ def tlAlarmCtrl_wakeEn : Fld := ⟨0x10208, 12, 1, .rw, 0⟩
/-- R77 -/ def tlAlarmCtrl_arm : Fld := ⟨0x10208, 13, 1, .rw, 0⟩
/-- R77 -/ def tlAlarmCtrl_fired : Fld := ⟨0x10208, 14, 1, .w1c, 0⟩
/-- R77 -/ def tlAlarmCtrl_everyFrame : Fld := ⟨0x10208, 15, 1, .rw, 0⟩
/-- R267 -/ def sxRoiStat_busy : Fld := ⟨0x7e000, 0, 1, .ro, 0⟩
/-- R267 -/ def sxRoiStat_done : Fld := ⟨0x7e000, 16, 16, .ro, 0⟩
/-- R267 -/ def sxRoiBoxesLo_count : Fld := ⟨0x7e004, 0, 32, .ro, 0⟩
/-- R267 -/ def sxRoiBoxesHi_count : Fld := ⟨0x7e008, 0, 32, .ro, 0⟩
/-- R267 -/ def sxRoiHoles_count : Fld := ⟨0x7e00c, 0, 32, .ro, 0⟩
/-- R267 -/ def sxRoiLast_code : Fld := ⟨0x7e010, 0, 16, .ro, 0⟩
/-- R267 -/ def sxRoiLast_box : Fld := ⟨0x7e010, 16, 12, .ro, 0⟩
/-- R267 -/ def sxRoiLast_valid : Fld := ⟨0x7e010, 31, 1, .w1c, 0⟩
/-- R301 -/ def scStat_inflight : Fld := ⟨0x30000, 0, 13, .ro, 0⟩
/-- R301 -/ def scStat_switching : Fld := ⟨0x30000, 16, 1, .ro, 0⟩
/-- R301 -/ def scEpochCur_epoch : Fld := ⟨0x30004, 0, 32, .ro, 0⟩
/-- R301 -/ def scEpochAtLo_stamp : Fld := ⟨0x30008, 0, 32, .rw, 0⟩
/-- R301 -/ def scEpochAtHi_stamp : Fld := ⟨0x3000c, 0, 32, .rw, 0⟩
/-- R301 -/ def scEpochCtrl_arm : Fld := ⟨0x30010, 0, 1, .w1s, 0⟩
/-- R301 -/ def scEpochCtrl_pending : Fld := ⟨0x30010, 1, 1, .ro, 0⟩
/-- R301 -/ def scEpochCtrl_done : Fld := ⟨0x30010, 2, 1, .w1c, 0⟩
/-- R301 -/ def scEpochCtrl_refused : Fld := ⟨0x30010, 3, 1, .w1c, 0⟩
/-- R301 -/ def scEpochCtrl_cause : Fld := ⟨0x30010, 4, 4, .ro, 0⟩
/-- R301 -/ def scPreemptCnt_count : Fld := ⟨0x30014, 0, 16, .ro, 0⟩
/-- R301 -/ def scPreemptCnt_count2 : Fld := ⟨0x30014, 16, 16, .ro, 0⟩
/-- R301 -/ def scLateCnt_count : Fld := ⟨0x30018, 0, 16, .ro, 0⟩
/-- R301 -/ def scLateCnt_count2 : Fld := ⟨0x30018, 16, 16, .ro, 0⟩
/-- R301 -/ def ptCtrl_enabled : Fld := ⟨0x0, 0, 1, .ro, 0⟩
/-- R301 -/ def ptCtrl_livePreempt : Fld := ⟨0x0, 1, 1, .ro, 0⟩
/-- R301 -/ def ptCtrl_groupEn : Fld := ⟨0x0, 2, 1, .ro, 0⟩
/-- R301 -/ def ptCtrl_groupOk : Fld := ⟨0x0, 3, 1, .ro, 0⟩
/-- R301 -/ def ptOwnLo_own : Fld := ⟨0x4, 0, 32, .ro, 0⟩
/-- R301 -/ def ptOwnHi_own : Fld := ⟨0x8, 0, 32, .ro, 0⟩
/-- R301 -/ def ptShare_dram : Fld := ⟨0xc, 0, 9, .ro, 0⟩
/-- R301 -/ def ptShare_decode : Fld := ⟨0xc, 9, 9, .ro, 0⟩
/-- R301 -/ def ptShare_encode : Fld := ⟨0xc, 18, 9, .ro, 0⟩
/-- R301 -/ def ptQuota_inflight : Fld := ⟨0x10, 0, 13, .ro, 0⟩
/-- R301 -/ def ptQuota_contexts : Fld := ⟨0x10, 16, 15, .ro, 0⟩
/-- R301 -/ def ptSlice_slice : Fld := ⟨0x14, 0, 17, .ro, 1000⟩
/-- R301 -/ def ptSaveLo_save : Fld := ⟨0x20, 0, 32, .rwp, 0⟩
/-- R301 -/ def ptSaveHi_save : Fld := ⟨0x24, 0, 32, .rwp, 0⟩
/-- R301 -/ def ptSaveSize_size : Fld := ⟨0x28, 0, 32, .rwp, 0⟩
/-- R301 -/ def ptStat_inflight : Fld := ⟨0x2c, 0, 13, .ro, 0⟩
/-- R301 -/ def ptStat_slice : Fld := ⟨0x2c, 13, 3, .ro, 0⟩
/-- R301 -/ def ptStat_contexts : Fld := ⟨0x2c, 16, 15, .ro, 0⟩
/-- R301 -/ def ptPreempt_req : Fld := ⟨0x30, 0, 1, .w1s, 0⟩
/-- R301 -/ def ptPreempt_busy : Fld := ⟨0x30, 1, 1, .ro, 0⟩
/-- R301 -/ def ptShCtrl_livePreempt : Fld := ⟨0x80, 1, 1, .rw, 0⟩
/-- R301 -/ def ptShCtrl_groupEn : Fld := ⟨0x80, 2, 1, .rw, 0⟩
/-- R301 -/ def ptShOwnLo_own : Fld := ⟨0x84, 0, 32, .rw, 0⟩
/-- R301 -/ def ptShOwnHi_own : Fld := ⟨0x88, 0, 32, .rw, 0⟩
/-- R301 -/ def ptShShare_dram : Fld := ⟨0x8c, 0, 9, .rw, 0⟩
/-- R301 -/ def ptShShare_decode : Fld := ⟨0x8c, 9, 9, .rw, 0⟩
/-- R301 -/ def ptShShare_encode : Fld := ⟨0x8c, 18, 9, .rw, 0⟩
/-- R301 -/ def ptShQuota_inflight : Fld := ⟨0x90, 0, 13, .rw, 0⟩
/-- R301 -/ def ptShQuota_contexts : Fld := ⟨0x90, 16, 15, .rw, 0⟩
/-- R301 -/ def ptShSlice_slice : Fld := ⟨0x94, 0, 17, .rw, 1000⟩
/-- R318 -/ def ptSeedIdx_index : Fld := ⟨0xc0, 0, 8, .rw, 0⟩
/-- R318 -/ def ptSeedLo_lo : Fld := ⟨0xc4, 0, 32, .rw, 0⟩
/-- R318 -/ def ptSeedHi_hi : Fld := ⟨0xc8, 0, 32, .rw, 0⟩
/-- R318 -/ def ptSeedValid_valid : Fld := ⟨0xd0, 0, 32, .w1c, 0⟩
/-- R318 -/ def ptAuditBaseLo_base : Fld := ⟨0xf0, 0, 32, .rwp, 0⟩
/-- R318 -/ def ptAuditBaseHi_base : Fld := ⟨0xf4, 0, 32, .rwp, 0⟩
/-- R318 -/ def ptAuditSize_size : Fld := ⟨0xf8, 0, 16, .rwp, 0⟩
/-- R318 -/ def ptAuditCtl_en : Fld := ⟨0xfc, 0, 1, .rw, 0⟩
/-- R318 -/ def ptAuditCtl_dropped : Fld := ⟨0xfc, 16, 16, .ro, 0⟩
/-- R301 -/ def acQsel_queue : Fld := ⟨0x33000, 0, 14, .rw, 0⟩
/-- R301 -/ def acQsel_ready : Fld := ⟨0x33000, 31, 1, .ro, 0⟩
/-- R301 -/ def acQdata_word : Fld := ⟨0x33008, 0, 32, .ro, 0⟩
/-- R301 -/ def acCalK_k : Fld := ⟨0x33100, 0, 32, .ro, 65536⟩
/-- R301 -/ def acEinLo_eIn : Fld := ⟨0x33108, 0, 32, .ro, 0⟩
/-- R301 -/ def acEinHi_eIn : Fld := ⟨0x3310c, 0, 32, .ro, 0⟩
/-- R301 -/ def acUnattrLo_unattr : Fld := ⟨0x33110, 0, 32, .ro, 0⟩
/-- R301 -/ def acUnattrHi_unattr : Fld := ⟨0x33114, 0, 32, .ro, 0⟩
/-- R301 -/ def acCnt_word : Fld := ⟨0x0, 0, 32, .ro, 0⟩
/-- R481 -/ def ctlSqBaseLo_base : Fld := ⟨0x0, 12, 20, .rw, 0⟩
/-- R481 -/ def ctlSqBaseHi_base : Fld := ⟨0x4, 0, 16, .rw, 0⟩
/-- R481 -/ def ctlSqBaseHi_space : Fld := ⟨0x4, 16, 2, .rw, 0⟩
/-- R481 -/ def ctlCqBaseLo_base : Fld := ⟨0x8, 12, 20, .rw, 0⟩
/-- R481 -/ def ctlCqBaseHi_base : Fld := ⟨0xc, 0, 16, .rw, 0⟩
/-- R481 -/ def ctlCqBaseHi_space : Fld := ⟨0xc, 16, 2, .rw, 0⟩
/-- R481 -/ def ctlPtrLo_ptr : Fld := ⟨0x10, 6, 26, .rw, 0⟩
/-- R481 -/ def ctlPtrHi_ptr : Fld := ⟨0x14, 0, 16, .rw, 0⟩
/-- R481 -/ def ctlPtrHi_space : Fld := ⟨0x14, 16, 2, .rw, 0⟩
/-- R481 -/ def ctlCfg_sqLog2 : Fld := ⟨0x18, 0, 4, .rw, 1⟩
/-- R481 -/ def ctlCfg_cqLog2 : Fld := ⟨0x18, 4, 4, .rw, 1⟩
/-- R481 -/ def ctlCfg_vector : Fld := ⟨0x18, 8, 11, .rw, 0⟩
/-- R481 -/ def ctlCfg_irqEn : Fld := ⟨0x18, 19, 1, .rw, 0⟩
/-- R481 -/ def ctlCfg_en : Fld := ⟨0x18, 20, 1, .rw, 0⟩
/-- R481 -/ def ctlCfg_stopped : Fld := ⟨0x18, 21, 1, .ro, 0⟩
/-- R481 -/ def ctlSqTail_tail : Fld := ⟨0x1c, 0, 32, .rw, 0⟩
/-- R481 -/ def ctlCqHead_head : Fld := ⟨0x20, 0, 32, .rw, 0⟩
/-- R481 -/ def ctlSqHead_sqHead : Fld := ⟨0x24, 0, 32, .ro, 0⟩
/-- R481 -/ def ctlCqProd_cqProd : Fld := ⟨0x28, 0, 32, .ro, 0⟩
/-- R319 -/ def auditHead_head : Fld := ⟨0x30200, 0, 24, .ro, 0⟩
/-- R319 -/ def auditTail_tail : Fld := ⟨0x30204, 0, 24, .rw, 0⟩
/-- R482 -/ def scQsel_number : Fld := ⟨0x30800, 0, 14, .rw, 0⟩
/-- R482 -/ def scQsel_type : Fld := ⟨0x30800, 14, 2, .rw, 0⟩
/-- R482 -/ def scQsel_ready : Fld := ⟨0x30800, 31, 1, .ro, 0⟩
/-- R482 -/ def scQinfo0_moduleIdx : Fld := ⟨0x30804, 0, 32, .ro, 0⟩
/-- R482 -/ def scQinfo1_driverIdx : Fld := ⟨0x30808, 0, 32, .ro, 0⟩
/-- R482 -/ def scQinfo2_state : Fld := ⟨0x3080c, 0, 3, .ro, 0⟩
/-- R482 -/ def scQinfo2_partition : Fld := ⟨0x3080c, 3, 4, .ro, 0⟩
/-- R482 -/ def scQinfo2_class : Fld := ⟨0x3080c, 7, 2, .ro, 0⟩
/-- R482 -/ def scQinfo2_policy : Fld := ⟨0x3080c, 9, 1, .ro, 0⟩
/-- R482 -/ def scQinfo2_depthLog2 : Fld := ⟨0x3080c, 10, 5, .ro, 0⟩
/-- R482 -/ def scQinfo3_count : Fld := ⟨0x30810, 0, 32, .ro, 0⟩
/-- R482 -/ def scQErr_code : Fld := ⟨0x30818, 0, 16, .ro, 0⟩
/-- R482 -/ def scQErr_number : Fld := ⟨0x30818, 16, 14, .ro, 0⟩
/-- R482 -/ def scQErr_valid : Fld := ⟨0x30818, 31, 1, .w1c, 0⟩
/-- R550 -/ def idMagic_magic : Fld := ⟨0x0, 0, 32, .ro, 1331069224⟩
/-- R550 -/ def idDevice_vendor : Fld := ⟨0x4, 0, 16, .ro, 8042⟩
/-- R550 -/ def idDevice_device : Fld := ⟨0x4, 16, 16, .ro, 33064⟩
/-- R550 -/ def idRev_rev : Fld := ⟨0x8, 0, 8, .ro, 176⟩
/-- R317 -/ def idArithSig_sig : Fld := ⟨0x10, 0, 32, .ro, 131073⟩
/-- R317 -/ def idTimingSig_sig : Fld := ⟨0x14, 0, 32, .ro, 2063205935⟩
/-- R317 -/ def idTimingGen_gen : Fld := ⟨0x18, 0, 32, .ro, 0⟩
/-- R317 -/ def idTimingImg0_img : Fld := ⟨0x20, 0, 32, .ro, 2⟩
/-- R317 -/ def idTimingImg_img : Fld := ⟨0x24, 0, 32, .ro, 0⟩
/-- R550 -/ def idSerialLo_serial : Fld := ⟨0x40, 0, 32, .ro, 0⟩
/-- R550 -/ def idSerialHi_serial : Fld := ⟨0x44, 0, 32, .ro, 0⟩
/-- R550 -/ def idFw_ver : Fld := ⟨0x48, 0, 32, .ro, 0⟩
/-- R550 -/ def glCtrl_seal : Fld := ⟨0x100, 0, 1, .w1s, 0⟩
/-- R550 -/ def glCtrl_restart : Fld := ⟨0x100, 1, 1, .w1s, 0⟩
/-- R550 -/ def glCtrl_key : Fld := ⟨0x100, 16, 16, .wo, 0⟩
/-- R550 -/ def glStatus_memReady : Fld := ⟨0x104, 0, 1, .ro, 0⟩
/-- R550 -/ def glStatus_ready : Fld := ⟨0x104, 1, 1, .ro, 0⟩
/-- R550 -/ def glStatus_sealed : Fld := ⟨0x104, 2, 1, .ro, 0⟩
/-- R550 -/ def glStatus_planned : Fld := ⟨0x104, 3, 1, .ro, 0⟩
/-- R550 -/ def glStatus_preloadDone : Fld := ⟨0x104, 4, 1, .ro, 0⟩
/-- R550 -/ def glStatus_staged : Fld := ⟨0x104, 5, 1, .ro, 0⟩
/-- R550 -/ def glStatus_warm : Fld := ⟨0x104, 6, 1, .ro, 0⟩
/-- R550 -/ def glStatus_migrated : Fld := ⟨0x104, 7, 1, .ro, 0⟩
/-- R550 -/ def glStatus_slot : Fld := ⟨0x104, 8, 1, .ro, 0⟩
/-- R550 -/ def glStart_readyMs : Fld := ⟨0x108, 0, 16, .ro, 0⟩
/-- R550 -/ def glStart_memMs : Fld := ⟨0x108, 16, 16, .ro, 0⟩
/-- R550 -/ def glResetCause_cause : Fld := ⟨0x10c, 0, 4, .ro, 0⟩
/-- R550 -/ def glResetCause_starts : Fld := ⟨0x10c, 16, 16, .ro, 0⟩
/-- R550 -/ def glPlan_format : Fld := ⟨0x110, 0, 16, .ro, 0⟩
/-- R550 -/ def glPlan_sections : Fld := ⟨0x110, 16, 16, .ro, 0⟩
/-- R550 -/ def glPlanSerialLo_serial : Fld := ⟨0x114, 0, 32, .ro, 0⟩
/-- R550 -/ def glPlanSerialHi_serial : Fld := ⟨0x118, 0, 32, .ro, 0⟩
/-- R550 -/ def glPlanErr_code : Fld := ⟨0x11c, 0, 16, .ro, 0⟩
/-- R550 -/ def glPlanErr_section : Fld := ⟨0x11c, 16, 6, .ro, 0⟩
/-- R550 -/ def glPlanErr_slot : Fld := ⟨0x11c, 22, 1, .ro, 0⟩
/-- R550 -/ def glPlanErr_valid : Fld := ⟨0x11c, 31, 1, .w1c, 0⟩
/-- R550 -/ def glTplDrop_count : Fld := ⟨0x120, 0, 32, .ro, 0⟩
/-- R449 -/ def glLink_speed : Fld := ⟨0x400, 0, 4, .ro, 0⟩
/-- R449 -/ def glLink_width : Fld := ⟨0x400, 4, 3, .ro, 0⟩
/-- R449 -/ def glLink_flit : Fld := ⟨0x400, 7, 1, .ro, 0⟩
/-- R449 -/ def glLink_degraded : Fld := ⟨0x400, 8, 1, .ro, 0⟩
/-- R449 -/ def glLink_l1 : Fld := ⟨0x400, 9, 1, .ro, 0⟩
/-- R449 -/ def glLink_retrains : Fld := ⟨0x400, 16, 16, .ro, 0⟩
/-- R449 -/ def glAptBaseLo_base : Fld := ⟨0x404, 28, 4, .rw, 0⟩
/-- R449 -/ def glAptBaseHi_base : Fld := ⟨0x408, 0, 7, .rw, 0⟩
/-- R449 -/ def glHostErr_timeouts : Fld := ⟨0x40c, 0, 16, .ro, 0⟩
/-- R449 -/ def glHostErr_late : Fld := ⟨0x40c, 16, 16, .ro, 0⟩
/-- R449 -/ def glHostErr2_poisoned : Fld := ⟨0x410, 0, 16, .ro, 0⟩
/-- R449 -/ def glHostErr2_readErr : Fld := ⟨0x410, 16, 16, .ro, 0⟩
/-- R449 -/ def glHostLast_code : Fld := ⟨0x414, 0, 16, .ro, 0⟩
/-- R449 -/ def glHostLast_tag : Fld := ⟨0x414, 16, 10, .ro, 0⟩
/-- R449 -/ def glHostLast_valid : Fld := ⟨0x414, 31, 1, .w1c, 0⟩
/-- R449 -/ def glWake_alarmEn : Fld := ⟨0x418, 0, 1, .rw, 0⟩
/-- R449 -/ def glWake_skidwayEn : Fld := ⟨0x418, 1, 1, .rw, 0⟩
/-- R449 -/ def glWake_buttonEn : Fld := ⟨0x418, 2, 1, .rw, 0⟩
/-- R449 -/ def glWake_last : Fld := ⟨0x418, 4, 2, .ro, 0⟩
/-- R449 -/ def glDbRej_count : Fld := ⟨0x41c, 0, 32, .ro, 0⟩
/-- R449 -/ def glResets_flr : Fld := ⟨0x420, 0, 16, .ro, 0⟩
/-- R449 -/ def glResets_linkDown : Fld := ⟨0x420, 16, 16, .ro, 0⟩
/-- R348 -/ def mdCap_engines : Fld := ⟨0x60000, 0, 4, .ro, 4⟩
/-- R348 -/ def mdCap_maxCtx : Fld := ⟨0x60000, 4, 8, .ro, 128⟩
/-- R348 -/ def enCap_engines : Fld := ⟨0x68000, 0, 4, .ro, 2⟩
/-- R348 -/ def enCap_maxCtx : Fld := ⟨0x68000, 4, 8, .ro, 32⟩
/-- R348 -/ def mdStat_online : Fld := ⟨0x60004, 0, 4, .ro, 0⟩
/-- R348 -/ def mdStat_reloading : Fld := ⟨0x60004, 4, 4, .ro, 0⟩
/-- R348 -/ def mdStat_ctxOpen : Fld := ⟨0x60004, 8, 8, .ro, 0⟩
/-- R348 -/ def enStat_online : Fld := ⟨0x68004, 0, 4, .ro, 0⟩
/-- R348 -/ def enStat_reloading : Fld := ⟨0x68004, 4, 4, .ro, 0⟩
/-- R348 -/ def enStat_ctxOpen : Fld := ⟨0x68004, 8, 8, .ro, 0⟩
/-- R348 -/ def mdErrReject_count : Fld := ⟨0x60040, 0, 32, .ro, 0⟩
/-- R348 -/ def mdErrConceal_count : Fld := ⟨0x60044, 0, 32, .ro, 0⟩
/-- R348 -/ def mdErrBudget_count : Fld := ⟨0x60048, 0, 32, .ro, 0⟩
/-- R348 -/ def enErr_count : Fld := ⟨0x68040, 0, 32, .ro, 0⟩
/-- R348 -/ def mdLast_code : Fld := ⟨0x60050, 0, 16, .ro, 0⟩
/-- R348 -/ def mdLast_ctx : Fld := ⟨0x60050, 16, 14, .ro, 0⟩
/-- R348 -/ def mdLast_valid : Fld := ⟨0x60050, 31, 1, .w1c, 0⟩
/-- R348 -/ def enLast_code : Fld := ⟨0x68050, 0, 16, .ro, 0⟩
/-- R348 -/ def enLast_ctx : Fld := ⟨0x68050, 16, 14, .ro, 0⟩
/-- R348 -/ def enLast_valid : Fld := ⟨0x68050, 31, 1, .w1c, 0⟩
/-- R348 -/ def engCtrl_offlineReq : Fld := ⟨0x0, 0, 1, .rw, 0⟩
/-- R348 -/ def engCtrl_reload : Fld := ⟨0x0, 1, 1, .w1s, 0⟩
/-- R348 -/ def engStat_state : Fld := ⟨0x4, 0, 3, .ro, 0⟩
/-- R348 -/ def engStat_live : Fld := ⟨0x4, 3, 1, .ro, 0⟩
/-- R348 -/ def engStat_ctx : Fld := ⟨0x4, 4, 14, .ro, 0⟩
/-- R348 -/ def engVer_ver : Fld := ⟨0x8, 0, 32, .ro, 0⟩
/-- R348 -/ def engPixLo_pixels : Fld := ⟨0xc, 0, 32, .ro, 0⟩
/-- R348 -/ def engPixHi_pixels : Fld := ⟨0x10, 0, 32, .ro, 0⟩
/-- R348 -/ def engPics_pictures : Fld := ⟨0x14, 0, 32, .ro, 0⟩
/-- R348 -/ def engFault_faults : Fld := ⟨0x18, 0, 16, .ro, 0⟩
/-- R348 -/ def engFault_reloads : Fld := ⟨0x18, 16, 16, .ro, 0⟩
/-- R348 -/ def engWindow_window : Fld := ⟨0x1c, 0, 32, .ro, 0⟩
/-- R367 -/ def sxStat_busy : Fld := ⟨0x6c000, 0, 1, .ro, 0⟩
/-- R367 -/ def sxStat_done : Fld := ⟨0x6c000, 16, 16, .ro, 0⟩
/-- R367 -/ def sxLoad_busy : Fld := ⟨0x6c004, 0, 9, .ro, 0⟩
/-- R367 -/ def sxLoad_backlog : Fld := ⟨0x6c004, 16, 16, .ro, 0⟩
/-- R367 -/ def sxHoles_count : Fld := ⟨0x6c008, 0, 32, .ro, 0⟩
/-- R367 -/ def sxLast_code : Fld := ⟨0x6c00c, 0, 16, .ro, 0⟩
/-- R367 -/ def sxLast_slot : Fld := ⟨0x6c00c, 16, 10, .ro, 0⟩
/-- R367 -/ def sxLast_valid : Fld := ⟨0x6c00c, 31, 1, .w1c, 0⟩
/-- R367 -/ def sxTrkStat_tracks : Fld := ⟨0x6d000, 0, 14, .ro, 0⟩
/-- R367 -/ def sxTrkCnt_ignored : Fld := ⟨0x6d004, 0, 16, .ro, 0⟩
/-- R367 -/ def sxTrkCnt_exhausted : Fld := ⟨0x6d004, 16, 16, .ro, 0⟩
/-- R367 -/ def tkStat_busy : Fld := ⟨0x70000, 0, 1, .ro, 0⟩
/-- R367 -/ def tkStat_dicts : Fld := ⟨0x70000, 1, 5, .ro, 0⟩
/-- R367 -/ def tkBytesLo_bytes : Fld := ⟨0x70008, 0, 32, .ro, 0⟩
/-- R367 -/ def tkBytesHi_bytes : Fld := ⟨0x7000c, 0, 32, .ro, 0⟩
/-- R367 -/ def tkTokensLo_tokens : Fld := ⟨0x70010, 0, 32, .ro, 0⟩
/-- R367 -/ def tkTokensHi_tokens : Fld := ⟨0x70014, 0, 32, .ro, 0⟩
/-- R367 -/ def tkLast_code : Fld := ⟨0x70018, 0, 16, .ro, 0⟩
/-- R367 -/ def tkLast_valid : Fld := ⟨0x70018, 31, 1, .w1c, 0⟩
/-- R393 -/ def drChStat_stateA : Fld := ⟨0x0, 0, 2, .ro, 0⟩
/-- R393 -/ def drChStat_stateB : Fld := ⟨0x0, 2, 2, .ro, 0⟩
/-- R393 -/ def drChStat_pd : Fld := ⟨0x0, 4, 4, .ro, 0⟩
/-- R393 -/ def drChStat_sr : Fld := ⟨0x0, 8, 2, .ro, 0⟩
/-- R393 -/ def drChStat_retraining : Fld := ⟨0x0, 10, 1, .ro, 0⟩
/-- R393 -/ def drScCe_ce : Fld := ⟨0x400, 0, 32, .ro, 0⟩
/-- R393 -/ def drScUe_ue : Fld := ⟨0x404, 0, 16, .ro, 0⟩
/-- R393 -/ def drScUe_addr : Fld := ⟨0x404, 16, 16, .ro, 0⟩
/-- R393 -/ def drScLastLo_burst : Fld := ⟨0x408, 0, 28, .ro, 0⟩
/-- R393 -/ def drScLastLo_device : Fld := ⟨0x408, 28, 1, .ro, 0⟩
/-- R393 -/ def drScLastHi_code : Fld := ⟨0x40c, 0, 16, .ro, 0⟩
/-- R393 -/ def drScLastHi_valid : Fld := ⟨0x40c, 31, 1, .w1c, 0⟩
/-- R393 -/ def drScActLo_act : Fld := ⟨0x410, 0, 32, .ro, 0⟩
/-- R393 -/ def drScActHi_act : Fld := ⟨0x414, 0, 32, .ro, 0⟩
/-- R393 -/ def drScRh_nbr : Fld := ⟨0x418, 0, 16, .ro, 0⟩
/-- R393 -/ def drScRh_rfm : Fld := ⟨0x418, 16, 16, .ro, 0⟩
/-- R393 -/ def drScPpr_used : Fld := ⟨0x41c, 0, 16, .ro, 0⟩
/-- R393 -/ def drScPoison_entries : Fld := ⟨0x420, 0, 9, .ro, 0⟩
/-- R393 -/ def drScTrain_done : Fld := ⟨0x424, 0, 16, .ro, 0⟩
/-- R393 -/ def drScTrain_forced : Fld := ⟨0x424, 16, 16, .ro, 0⟩
/-- R393 -/ def drScTemp_temp : Fld := ⟨0x428, 0, 8, .ro, 0⟩
/-- R393 -/ def drScTemp_hot : Fld := ⟨0x428, 8, 1, .ro, 0⟩
/-- R393 -/ def drGStat_memReady : Fld := ⟨0x50800, 0, 1, .ro, 0⟩
/-- R393 -/ def drGStat_warm : Fld := ⟨0x50800, 1, 1, .ro, 0⟩
/-- R393 -/ def drGStat_scrubBusy : Fld := ⟨0x50800, 2, 1, .ro, 0⟩
/-- R393 -/ def drGRh_k : Fld := ⟨0x50804, 0, 4, .rwp, 9⟩
/-- R393 -/ def drGRh_rfmEn : Fld := ⟨0x50804, 4, 1, .rwp, 1⟩
/-- R393 -/ def drGPage_predictEn : Fld := ⟨0x50808, 0, 1, .rwp, 1⟩
/-- R393 -/ def drGPd_pdIdle : Fld := ⟨0x5080c, 0, 16, .rwp, 200⟩
/-- R393 -/ def drGPd_srIdle : Fld := ⟨0x5080c, 16, 16, .rwp, 1000⟩
/-- R393 -/ def drGGap_gapStart : Fld := ⟨0x50810, 0, 16, .rwp, 0⟩
/-- R393 -/ def drGGap_gapEnd : Fld := ⟨0x50810, 16, 16, .rwp, 0⟩
/-- R393 -/ def drGRetrain_maxWait : Fld := ⟨0x50814, 0, 16, .rwp, 1000⟩
/-- R393 -/ def drGRetrain_tempDelta : Fld := ⟨0x50814, 16, 8, .rwp, 10⟩
/-- R393 -/ def drGScrub_period : Fld := ⟨0x50818, 0, 8, .rwp, 24⟩
/-- R393 -/ def drGScrub_en : Fld := ⟨0x50818, 8, 1, .rwp, 1⟩
/-- R393 -/ def drGScrub_passes : Fld := ⟨0x50818, 16, 16, .ro, 0⟩
/-- R393 -/ def drGScrubPos_progress : Fld := ⟨0x5081c, 0, 32, .ro, 0⟩
/-- R393 -/ def drGPpr_thresh : Fld := ⟨0x50820, 0, 8, .rwp, 4⟩
/-- R393 -/ def drGPpr_en : Fld := ⟨0x50820, 8, 1, .rwp, 1⟩
/-- R393 -/ def drGKeymap_key0 : Fld := ⟨0x50900, 0, 5, .rwp, 16⟩
/-- R393 -/ def drGKeymap_key1 : Fld := ⟨0x50900, 8, 5, .rwp, 16⟩
/-- R393 -/ def drGKeymap_key2 : Fld := ⟨0x50900, 16, 5, .rwp, 16⟩
/-- R393 -/ def drGKeymap_key3 : Fld := ⟨0x50900, 24, 5, .rwp, 16⟩
/-- R413 -/ def dkGStat_ready : Fld := ⟨0x40000, 0, 1, .ro, 0⟩
/-- R413 -/ def dkGStat_unmatched : Fld := ⟨0x40000, 16, 16, .ro, 0⟩
/-- R413 -/ def dkGCfg_recDeck : Fld := ⟨0x40004, 0, 6, .rwp, 63⟩
/-- R413 -/ def dkStage_d0 : Fld := ⟨0x40010, 0, 6, .rwp, 0⟩
/-- R413 -/ def dkStage_d1 : Fld := ⟨0x40010, 8, 6, .rwp, 0⟩
/-- R413 -/ def dkStage_d2 : Fld := ⟨0x40010, 16, 6, .rwp, 0⟩
/-- R413 -/ def dkStage_d3 : Fld := ⟨0x40010, 24, 6, .rwp, 0⟩
/-- R413 -/ def dkReturnLo_addr : Fld := ⟨0x40020, 0, 32, .wo, 0⟩
/-- R413 -/ def dkReturnHi_addr : Fld := ⟨0x40024, 0, 16, .wo, 0⟩
/-- R413 -/ def dkRetStat_code : Fld := ⟨0x40028, 0, 16, .ro, 0⟩
/-- R413 -/ def dkReclaim_partition : Fld := ⟨0x40030, 0, 4, .wo, 0⟩
/-- R413 -/ def dkReclaim_kinds : Fld := ⟨0x40030, 4, 4, .wo, 0⟩
/-- R413 -/ def dkReclaim_busy : Fld := ⟨0x40030, 8, 1, .ro, 0⟩
/-- R413 -/ def dkCfg_sizeLog2 : Fld := ⟨0x0, 0, 5, .rwp, 8⟩
/-- R413 -/ def dkCfg_en : Fld := ⟨0x0, 5, 1, .rwp, 0⟩
/-- R413 -/ def dkCfg_irqEn : Fld := ⟨0x0, 6, 1, .rw, 0⟩
/-- R413 -/ def dkCfg_vector : Fld := ⟨0x0, 7, 11, .rw, 0⟩
/-- R413 -/ def dkCount_count : Fld := ⟨0x4, 0, 25, .rwp, 0⟩
/-- R413 -/ def dkBaseLo_base : Fld := ⟨0x8, 0, 32, .rwp, 0⟩
/-- R413 -/ def dkBaseHi_base : Fld := ⟨0xc, 0, 16, .rwp, 0⟩
/-- R413 -/ def dkBookLo_book : Fld := ⟨0x10, 0, 32, .rwp, 0⟩
/-- R413 -/ def dkBookHi_book : Fld := ⟨0x14, 0, 16, .rwp, 0⟩
/-- R413 -/ def dkWarn_warn : Fld := ⟨0x18, 0, 25, .rwp, 0⟩
/-- R413 -/ def dkThrottle_throttle : Fld := ⟨0x1c, 0, 25, .rwp, 0⟩
/-- R413 -/ def dkStop_stop : Fld := ⟨0x20, 0, 25, .rwp, 0⟩
/-- R413 -/ def dkResv_resv : Fld := ⟨0x24, 0, 16, .rwp, 0⟩
/-- R413 -/ def dkResv_hyst : Fld := ⟨0x24, 16, 16, .rwp, 0⟩
/-- R413 -/ def dkStat_level : Fld := ⟨0x28, 0, 2, .ro, 0⟩
/-- R413 -/ def dkStat_ready : Fld := ⟨0x28, 2, 1, .ro, 0⟩
/-- R413 -/ def dkStat_rebuilding : Fld := ⟨0x28, 3, 1, .ro, 0⟩
/-- R413 -/ def dkStat_failed : Fld := ⟨0x28, 4, 1, .ro, 0⟩
/-- R413 -/ def dkStat_disabled : Fld := ⟨0x28, 5, 1, .ro, 0⟩
/-- R413 -/ def dkFree_available : Fld := ⟨0x2c, 0, 25, .ro, 0⟩
/-- R413 -/ def dkResvFree_resvFree : Fld := ⟨0x30, 0, 16, .ro, 0⟩
/-- R413 -/ def dkWaiters_waiters : Fld := ⟨0x34, 0, 13, .ro, 0⟩
/-- R413 -/ def dkReject_rejected : Fld := ⟨0x38, 0, 16, .ro, 0⟩
/-- R413 -/ def dkReject_reclaimed : Fld := ⟨0x38, 16, 16, .ro, 0⟩
/-- R413 -/ def dkMinFree_low : Fld := ⟨0x3c, 0, 25, .ro, 0⟩
/-- R413 -/ def dkMinFree_rearm : Fld := ⟨0x3c, 31, 1, .wo, 0⟩
/-- R413 -/ def dkQuota_quota : Fld := ⟨0x0, 0, 25, .rwp, 0⟩
/-- R413 -/ def dkHeld_held : Fld := ⟨0x0, 0, 25, .ro, 0⟩
/-- R503 -/ def swCfg_modId : Fld := ⟨0x80000, 0, 3, .ro, 0⟩
/-- R503 -/ def swCfg_count : Fld := ⟨0x80000, 3, 2, .rwp, 0⟩
/-- R503 -/ def swCfg_en : Fld := ⟨0x80000, 5, 1, .rwp, 0⟩
/-- R503 -/ def swStat_reach : Fld := ⟨0x80004, 0, 8, .ro, 0⟩
/-- R503 -/ def swRoute_p0 : Fld := ⟨0x80008, 0, 2, .ro, 0⟩
/-- R503 -/ def swRoute_p1 : Fld := ⟨0x80008, 2, 2, .ro, 0⟩
/-- R503 -/ def swRoute_p2 : Fld := ⟨0x80008, 4, 2, .ro, 0⟩
/-- R503 -/ def swRoute_p3 : Fld := ⟨0x80008, 6, 2, .ro, 0⟩
/-- R503 -/ def swRoute_p4 : Fld := ⟨0x80008, 8, 2, .ro, 0⟩
/-- R503 -/ def swRoute_p5 : Fld := ⟨0x80008, 10, 2, .ro, 0⟩
/-- R503 -/ def swRoute_p6 : Fld := ⟨0x80008, 12, 2, .ro, 0⟩
/-- R503 -/ def swRoute_p7 : Fld := ⟨0x80008, 14, 2, .ro, 0⟩
/-- R503 -/ def swAckTo_us : Fld := ⟨0x8000c, 0, 16, .rw, 200⟩
/-- R503 -/ def swPortStat_state : Fld := ⟨0x0, 0, 3, .ro, 0⟩
/-- R503 -/ def swPortStat_peer : Fld := ⟨0x0, 3, 3, .ro, 0⟩
/-- R503 -/ def swPortStat_peerPort : Fld := ⟨0x0, 6, 2, .ro, 0⟩
/-- R503 -/ def swPortStat_retrains : Fld := ⟨0x0, 8, 16, .ro, 0⟩
/-- R503 -/ def swPortErr_crc : Fld := ⟨0x4, 0, 16, .ro, 0⟩
/-- R503 -/ def swPortErr_replays : Fld := ⟨0x4, 16, 16, .ro, 0⟩
/-- R503 -/ def swPortTxLo_tx : Fld := ⟨0x8, 0, 32, .ro, 0⟩
/-- R503 -/ def swPortTxHi_tx : Fld := ⟨0xc, 0, 32, .ro, 0⟩
/-- R503 -/ def swPortRxLo_rx : Fld := ⟨0x10, 0, 32, .ro, 0⟩
/-- R503 -/ def swPortRxHi_rx : Fld := ⟨0x14, 0, 32, .ro, 0⟩
/-- R503 -/ def swPortCred_vc0 : Fld := ⟨0x18, 0, 5, .ro, 0⟩
/-- R503 -/ def swPortCred_vc1 : Fld := ⟨0x18, 8, 5, .ro, 0⟩
/-- R503 -/ def swPortCred_vc2 : Fld := ⟨0x18, 16, 5, .ro, 0⟩
/-- R503 -/ def txwBaseLo_base : Fld := ⟨0x0, 0, 32, .rw, 0⟩
/-- R503 -/ def txwBaseHi_base : Fld := ⟨0x4, 0, 7, .rw, 0⟩
/-- R503 -/ def txwLimitLo_limit : Fld := ⟨0x8, 0, 32, .rw, 0⟩
/-- R503 -/ def txwLimitHi_limit : Fld := ⟨0xc, 0, 7, .rw, 0⟩
/-- R503 -/ def txwCtl_en : Fld := ⟨0x10, 0, 1, .rw, 0⟩
/-- R503 -/ def txwCtl_dst : Fld := ⟨0x10, 1, 3, .rw, 0⟩
/-- R503 -/ def txwCtl_partition : Fld := ⟨0x10, 4, 4, .rw, 0⟩
/-- R503 -/ def txwCtl_kind : Fld := ⟨0x10, 8, 2, .rw, 0⟩
/-- R503 -/ def txwCtl_target : Fld := ⟨0x10, 10, 6, .rw, 0⟩
/-- R503 -/ def txwCtl_window : Fld := ⟨0x10, 16, 4, .rw, 0⟩
/-- R503 -/ def txwSent_sent : Fld := ⟨0x14, 0, 32, .ro, 0⟩
/-- R503 -/ def rxwBaseLo_base : Fld := ⟨0x0, 0, 32, .rw, 0⟩
/-- R503 -/ def rxwBaseHi_base : Fld := ⟨0x4, 0, 7, .rw, 0⟩
/-- R503 -/ def rxwLimitLo_limit : Fld := ⟨0x8, 0, 32, .rw, 0⟩
/-- R503 -/ def rxwLimitHi_limit : Fld := ⟨0xc, 0, 7, .rw, 0⟩
/-- R503 -/ def rxwCtl_en : Fld := ⟨0x10, 0, 1, .rw, 0⟩
/-- R503 -/ def rxwCtl_modMask : Fld := ⟨0x10, 1, 8, .rw, 0⟩
/-- R503 -/ def rxwCtl_partition : Fld := ⟨0x10, 9, 4, .rw, 0⟩
/-- R503 -/ def rxwCtl_irqEn : Fld := ⟨0x10, 13, 1, .rw, 0⟩
/-- R503 -/ def rxwCtl_vector : Fld := ⟨0x10, 14, 11, .rw, 0⟩
/-- R503 -/ def rxwWlim_wlim : Fld := ⟨0x14, 0, 32, .rw, 0⟩
/-- R503 -/ def rxwWcnt_wcnt : Fld := ⟨0x18, 0, 32, .ro, 0⟩
/-- R503 -/ def rxwStat_state : Fld := ⟨0x1c, 0, 2, .ro, 0⟩
/-- R503 -/ def rxwStat_rejects : Fld := ⟨0x1c, 16, 16, .ro, 0⟩
/-- R528 -/ def pwStat_state : Fld := ⟨0x20000, 0, 3, .ro, 1⟩
/-- R528 -/ def pwStat_level : Fld := ⟨0x20000, 3, 4, .ro, 0⟩
/-- R528 -/ def pwStat_pwrCtl : Fld := ⟨0x20000, 7, 1, .ro, 0⟩
/-- R528 -/ def pwStat_thrCtl : Fld := ⟨0x20000, 8, 1, .ro, 0⟩
/-- R528 -/ def pwStat_therm : Fld := ⟨0x20000, 9, 3, .ro, 0⟩
/-- R528 -/ def pwStat_inputStable : Fld := ⟨0x20000, 12, 1, .ro, 0⟩
/-- R528 -/ def pwStat_holdupOk : Fld := ⟨0x20000, 13, 1, .ro, 0⟩
/-- R528 -/ def pwStat_onAux : Fld := ⟨0x20000, 14, 1, .ro, 0⟩
/-- R528 -/ def pwLimit_host : Fld := ⟨0x20004, 0, 10, .rw, 600⟩
/-- R528 -/ def pwLimit_eff : Fld := ⟨0x20004, 16, 10, .ro, 600⟩
/-- R528 -/ def pwLimitCap_ceiling : Fld := ⟨0x20008, 0, 10, .rwp, 600⟩
/-- R528 -/ def pwLimitCap_oob : Fld := ⟨0x20008, 16, 10, .ro, 0⟩
/-- R528 -/ def pwCfg_rideMs : Fld := ⟨0x2000c, 0, 4, .rwp, 10⟩
/-- R528 -/ def pwIn_mv : Fld := ⟨0x20010, 0, 16, .ro, 0⟩
/-- R528 -/ def pwIn_ma10 : Fld := ⟨0x20010, 16, 16, .ro, 0⟩
/-- R528 -/ def pwInP_p10us : Fld := ⟨0x20014, 0, 10, .ro, 0⟩
/-- R528 -/ def pwInP_p10ms : Fld := ⟨0x20014, 16, 10, .ro, 0⟩
/-- R528 -/ def pwEinLo_uj : Fld := ⟨0x20018, 0, 32, .ro, 0⟩
/-- R528 -/ def pwEinHi_uj : Fld := ⟨0x2001c, 0, 32, .ro, 0⟩
/-- R528 -/ def pwXtime_xUs : Fld := ⟨0x20020, 0, 14, .ro, 0⟩
/-- R528 -/ def pwXtime_expired : Fld := ⟨0x20020, 16, 16, .ro, 0⟩
/-- R528 -/ def pwHoldup_mj : Fld := ⟨0x20024, 0, 16, .ro, 0⟩
/-- R528 -/ def pwHoldup_min : Fld := ⟨0x20024, 16, 16, .rwp, 800⟩
/-- R528 -/ def pwTemp0_die : Fld := ⟨0x20028, 0, 8, .ro, 0⟩
/-- R528 -/ def pwTemp0_lid : Fld := ⟨0x20028, 8, 8, .ro, 0⟩
/-- R528 -/ def pwTemp0_dram : Fld := ⟨0x20028, 16, 8, .ro, 0⟩
/-- R528 -/ def pwTemp0_conv : Fld := ⟨0x20028, 24, 8, .ro, 0⟩
/-- R528 -/ def pwTemp1_switch : Fld := ⟨0x2002c, 0, 8, .ro, 0⟩
/-- R528 -/ def pwTemp1_bank : Fld := ⟨0x2002c, 8, 8, .ro, 0⟩
/-- R528 -/ def pwTemp1_hotIdx : Fld := ⟨0x2002c, 16, 5, .ro, 0⟩
/-- R528 -/ def pwRailSel_rail : Fld := ⟨0x20030, 0, 3, .rw, 0⟩
/-- R528 -/ def pwRailSel_ready : Fld := ⟨0x20030, 31, 1, .ro, 0⟩
/-- R528 -/ def pwRailData_mv : Fld := ⟨0x20034, 0, 16, .ro, 0⟩
/-- R528 -/ def pwRailData_ma100 : Fld := ⟨0x20034, 16, 16, .ro, 0⟩
/-- R528 -/ def pwThrMsLo_ms : Fld := ⟨0x20038, 0, 32, .ro, 0⟩
/-- R528 -/ def pwThrMsHi_ms : Fld := ⟨0x2003c, 0, 32, .ro, 0⟩
/-- R528 -/ def pwEvent_uv : Fld := ⟨0x20040, 0, 1, .w1c, 0⟩
/-- R528 -/ def pwEvent_rideOk : Fld := ⟨0x20040, 1, 1, .w1c, 0⟩
/-- R528 -/ def pwEvent_excursion : Fld := ⟨0x20040, 2, 1, .w1c, 0⟩
/-- R528 -/ def pwEvent_clamped : Fld := ⟨0x20040, 3, 1, .w1c, 0⟩
/-- R528 -/ def pwEvent_warn : Fld := ⟨0x20040, 4, 1, .w1c, 0⟩
/-- R528 -/ def pwEvent_throttle : Fld := ⟨0x20040, 5, 1, .w1c, 0⟩
/-- R528 -/ def pwEvent_critical : Fld := ⟨0x20040, 6, 1, .w1c, 0⟩
/-- R528 -/ def pwEvent_holdupLow : Fld := ⟨0x20040, 7, 1, .w1c, 0⟩
/-- R528 -/ def pwEvent_oobLimit : Fld := ⟨0x20040, 8, 1, .w1c, 0⟩
/-- R528 -/ def pwIrq_en : Fld := ⟨0x20044, 0, 9, .rw, 0⟩
/-- R528 -/ def pwIrq_vector : Fld := ⟨0x20044, 16, 11, .rw, 0⟩
/-- R528 -/ def msCfg_attended : Fld := ⟨0x20800, 0, 1, .rwp, 0⟩
/-- R528 -/ def msCfg_debounce : Fld := ⟨0x20800, 8, 8, .rwp, 20⟩
/-- R528 -/ def msHs_state : Fld := ⟨0x20804, 0, 3, .ro, 0⟩
/-- R528 -/ def msHs_pres : Fld := ⟨0x20804, 3, 1, .ro, 0⟩
/-- R528 -/ def msHs_last : Fld := ⟨0x20804, 4, 4, .ro, 0⟩
/-- R528 -/ def msHs_trips : Fld := ⟨0x20804, 8, 8, .ro, 0⟩
/-- R528 -/ def msBtn_presses : Fld := ⟨0x20808, 0, 16, .ro, 0⟩
/-- R528 -/ def msBtn_level : Fld := ⟨0x20808, 16, 1, .ro, 0⟩
/-- R573 -/ def ftStat_recovering : Fld := ⟨0x90000, 0, 1, .ro, 0⟩
/-- R573 -/ def ftStat_deviceFailed : Fld := ⟨0x90000, 1, 1, .ro, 0⟩
/-- R573 -/ def ftStat_pfail : Fld := ⟨0x90000, 16, 16, .ro, 0⟩
/-- R573 -/ def ftCfg_rerunMax : Fld := ⟨0x90004, 0, 4, .rwp, 4⟩
/-- R573 -/ def ftCfg_logEn : Fld := ⟨0x90004, 4, 1, .rwp, 1⟩
/-- R573 -/ def ftLogBaseLo_base : Fld := ⟨0x90008, 0, 32, .rwp, 0⟩
/-- R573 -/ def ftLogBaseHi_base : Fld := ⟨0x9000c, 0, 16, .rwp, 0⟩
/-- R573 -/ def ftLogSize_kib : Fld := ⟨0x90010, 0, 16, .rwp, 0⟩
/-- R573 -/ def ftLogHead_head : Fld := ⟨0x90014, 0, 32, .ro, 0⟩
/-- R573 -/ def ftCnt0_corrected : Fld := ⟨0x90018, 0, 16, .ro, 0⟩
/-- R573 -/ def ftCnt0_contained : Fld := ⟨0x90018, 16, 16, .ro, 0⟩
/-- R573 -/ def ftCnt1_data : Fld := ⟨0x9001c, 0, 16, .ro, 0⟩
/-- R573 -/ def ftCnt1_pfatal : Fld := ⟨0x9001c, 16, 8, .ro, 0⟩
/-- R573 -/ def ftCnt1_dfatal : Fld := ⟨0x9001c, 24, 8, .ro, 0⟩
/-- R573 -/ def ftLast_code : Fld := ⟨0x90020, 0, 16, .ro, 0⟩
/-- R573 -/ def ftLast_class : Fld := ⟨0x90020, 16, 3, .ro, 0⟩
/-- R573 -/ def ftLast_valid : Fld := ⟨0x90020, 31, 1, .w1c, 0⟩
/-- R573 -/ def ftDfail_code : Fld := ⟨0x90024, 0, 16, .ro, 0⟩
/-- R573 -/ def ftTimes_last : Fld := ⟨0x90028, 0, 16, .ro, 0⟩
/-- R573 -/ def ftTimes_longest : Fld := ⟨0x90028, 16, 16, .ro, 0⟩
/-- R573 -/ def ftRsel_index : Fld := ⟨0x90040, 0, 24, .rw, 0⟩
/-- R573 -/ def ftRsel_flash : Fld := ⟨0x90040, 24, 1, .rw, 0⟩
/-- R573 -/ def ftRsel_ready : Fld := ⟨0x90040, 31, 1, .ro, 0⟩
/-- R573 -/ def ftRdata_data : Fld := ⟨0x90080, 0, 32, .ro, 0⟩
/-- R573 -/ def ftSvcCtrl_op : Fld := ⟨0x90100, 0, 3, .wo, 0⟩
/-- R573 -/ def ftSvcCtrl_index : Fld := ⟨0x90100, 3, 7, .wo, 0⟩
/-- R573 -/ def ftSvcAddrLo_addr : Fld := ⟨0x90104, 0, 32, .rw, 0⟩
/-- R573 -/ def ftSvcAddrHi_addr : Fld := ⟨0x90108, 0, 7, .rw, 0⟩
/-- R573 -/ def ftSvcStat_busy : Fld := ⟨0x9010c, 0, 1, .ro, 0⟩
/-- R573 -/ def ftSvcStat_result : Fld := ⟨0x9010c, 1, 3, .ro, 0⟩
/-- R573 -/ def ftSvcStat_count : Fld := ⟨0x9010c, 16, 16, .ro, 0⟩
/-- R603 -/ def seStat_debugUnlocked : Fld := ⟨0xa0000, 0, 1, .ro, 0⟩
/-- R603 -/ def seStat_debugPending : Fld := ⟨0xa0000, 1, 1, .ro, 0⟩
/-- R603 -/ def seStat_debugLevel : Fld := ⟨0xa0000, 2, 2, .ro, 0⟩
/-- R603 -/ def seStat_ownerSet : Fld := ⟨0xa0000, 4, 1, .ro, 0⟩
/-- R603 -/ def seStat_entropyOk : Fld := ⟨0xa0000, 5, 1, .ro, 0⟩
/-- R603 -/ def seStat_bank : Fld := ⟨0xa0000, 6, 1, .ro, 0⟩
/-- R603 -/ def seStat_trial : Fld := ⟨0xa0000, 7, 1, .ro, 0⟩
/-- R603 -/ def seStat_fallback : Fld := ⟨0xa0000, 8, 1, .ro, 0⟩
/-- R603 -/ def seSvn_fw : Fld := ⟨0xa0004, 0, 16, .ro, 0⟩
/-- R603 -/ def seSvn_ucode : Fld := ⟨0xa0004, 16, 16, .ro, 0⟩
/-- R603 -/ def seOwnerGen_gen : Fld := ⟨0xa0008, 0, 16, .ro, 0⟩
/-- R603 -/ def seMbCtrl_go : Fld := ⟨0xa0010, 0, 1, .w1s, 0⟩
/-- R603 -/ def seMbCtrl_busy : Fld := ⟨0xa0010, 1, 1, .ro, 0⟩
/-- R603 -/ def seMbCtrl_done : Fld := ⟨0xa0010, 2, 1, .w1c, 0⟩
/-- R603 -/ def seMbCtrl_error : Fld := ⟨0xa0010, 3, 1, .w1c, 0⟩
/-- R603 -/ def seMbCtrl_kind : Fld := ⟨0xa0010, 4, 4, .rw, 0⟩
/-- R603 -/ def seMbCtrl_len : Fld := ⟨0xa0010, 8, 13, .rw, 0⟩
/-- R603 -/ def seMbRlen_len : Fld := ⟨0xa0014, 0, 13, .ro, 0⟩
/-- R603 -/ def upCtrl_op : Fld := ⟨0xa0100, 0, 3, .wo, 0⟩
/-- R603 -/ def upCtrl_piece : Fld := ⟨0xa0100, 3, 16, .wo, 0⟩
/-- R603 -/ def upSrcLo_addr : Fld := ⟨0xa0104, 0, 32, .rw, 0⟩
/-- R603 -/ def upSrcHi_addr : Fld := ⟨0xa0108, 0, 16, .rw, 0⟩
/-- R603 -/ def upLen_len : Fld := ⟨0xa010c, 0, 22, .rw, 0⟩
/-- R603 -/ def upStat_state : Fld := ⟨0xa0110, 0, 3, .ro, 0⟩
/-- R603 -/ def upStat_busy : Fld := ⟨0xa0110, 3, 1, .ro, 0⟩
/-- R603 -/ def upStat_component : Fld := ⟨0xa0110, 4, 4, .ro, 0⟩
/-- R603 -/ def upStat_code : Fld := ⟨0xa0110, 16, 16, .ro, 0⟩
/-- R603 -/ def upCount_held : Fld := ⟨0xa0114, 0, 17, .ro, 0⟩
/-- R603 -/ def upRefuse_ownerLock : Fld := ⟨0xa0118, 0, 1, .ro, 0⟩
/-- R603 -/ def upRefuse_holdup : Fld := ⟨0xa0118, 1, 1, .ro, 0⟩
/-- R603 -/ def upRefuse_input : Fld := ⟨0xa0118, 2, 1, .ro, 0⟩
/-- R603 -/ def upRefuse_thermal : Fld := ⟨0xa0118, 3, 1, .ro, 0⟩
/-- R603 -/ def upRefuse_onAir : Fld := ⟨0xa0118, 4, 1, .ro, 0⟩
/-- R603 -/ def upRefuse_recovering : Fld := ⟨0xa0118, 5, 1, .ro, 0⟩
/-- R603 -/ def upRefuse_debug : Fld := ⟨0xa0118, 6, 1, .ro, 0⟩
/-- R603 -/ def upRefuse_busy : Fld := ⟨0xa0118, 7, 1, .ro, 0⟩
/-- R603 -/ def upOnair_onAir : Fld := ⟨0xa0200, 0, 1, .rw, 0⟩
/-- R603 -/ def upOnair_all : Fld := ⟨0xa0200, 16, 16, .ro, 0⟩
/-- R603 -/ def seMbBuf_data : Fld := ⟨0xa1000, 0, 32, .rw, 0⟩
/-- R603 -/ def upBitmap_bits : Fld := ⟨0xa2000, 0, 32, .ro, 0⟩
/-- R417 -/ def cfgId_vendor : Fld := ⟨0x0, 0, 16, .ro, 8042⟩
/-- R417 -/ def cfgId_device : Fld := ⟨0x0, 16, 16, .ro, 33064⟩
/-- R604 -/ def cfgCmd_memSpace : Fld := ⟨0x4, 1, 1, .rw, 0⟩
/-- R604 -/ def cfgCmd_busMaster : Fld := ⟨0x4, 2, 1, .rw, 0⟩
/-- R604 -/ def cfgCmd_capList : Fld := ⟨0x4, 20, 1, .ro, 1⟩
/-- R417 -/ def cfgClass_rev : Fld := ⟨0x8, 0, 8, .ro, 176⟩
/-- R417 -/ def cfgClass_class : Fld := ⟨0x8, 8, 24, .ro, 1179648⟩
/-- R420 -/ def cfgBar0_type : Fld := ⟨0x10, 0, 4, .ro, 4⟩
/-- R420 -/ def cfgBar0_addr : Fld := ⟨0x10, 26, 6, .rw, 0⟩
/-- R420 -/ def cfgBar1_addr : Fld := ⟨0x14, 0, 32, .rw, 0⟩
/-- R420 -/ def cfgBar2_type : Fld := ⟨0x18, 0, 4, .ro, 12⟩
/-- R420 -/ def cfgBar2_addr : Fld := ⟨0x18, 28, 4, .rw, 0⟩
/-- R420 -/ def cfgBar3_addr : Fld := ⟨0x1c, 0, 32, .rw, 0⟩
/-- R420 -/ def cfgBar4_type : Fld := ⟨0x20, 0, 4, .ro, 4⟩
/-- R420 -/ def cfgBar4_addr : Fld := ⟨0x20, 23, 9, .rw, 0⟩
/-- R420 -/ def cfgBar5_addr : Fld := ⟨0x24, 0, 32, .rw, 0⟩
/-- R417 -/ def cfgSub_vendor : Fld := ⟨0x2c, 0, 16, .ro, 8042⟩
/-- R417 -/ def cfgSub_id : Fld := ⟨0x2c, 16, 16, .ro, 256⟩
/-- R417 -/ def cfgCap_ptr : Fld := ⟨0x34, 0, 8, .ro, 64⟩
/-- R418 -/ def cfgPmCap_id : Fld := ⟨0x40, 0, 8, .ro, 1⟩
/-- R418 -/ def cfgPmCap_next : Fld := ⟨0x40, 8, 8, .ro, 80⟩
/-- R418 -/ def cfgPmCap_version : Fld := ⟨0x40, 16, 3, .ro, 3⟩
/-- R418 -/ def cfgPmCap_pmeD0 : Fld := ⟨0x40, 27, 1, .ro, 1⟩
/-- R418 -/ def cfgPmCap_pmeHot : Fld := ⟨0x40, 30, 1, .ro, 1⟩
/-- R418 -/ def cfgPmCap_pmeCold : Fld := ⟨0x40, 31, 1, .ro, 1⟩
/-- R441 -/ def cfgPmcsr_state : Fld := ⟨0x44, 0, 2, .rw, 0⟩
/-- R441 -/ def cfgPmcsr_noSoftReset : Fld := ⟨0x44, 3, 1, .ro, 1⟩
/-- R441 -/ def cfgPmcsr_pmeEn : Fld := ⟨0x44, 8, 1, .rw, 0⟩
/-- R441 -/ def cfgPmcsr_pmeStatus : Fld := ⟨0x44, 15, 1, .w1c, 0⟩
/-- R418 -/ def cfgPcieCap_id : Fld := ⟨0x50, 0, 8, .ro, 16⟩
/-- R418 -/ def cfgPcieCap_next : Fld := ⟨0x50, 8, 8, .ro, 144⟩
/-- R418 -/ def cfgPcieCap_version : Fld := ⟨0x50, 16, 4, .ro, 2⟩
/-- R418 -/ def cfgDevCap_mps : Fld := ⟨0x54, 0, 3, .ro, 2⟩
/-- R418 -/ def cfgDevCap_extTag : Fld := ⟨0x54, 5, 1, .ro, 1⟩
/-- R418 -/ def cfgDevCap_l1Lat : Fld := ⟨0x54, 9, 3, .ro, 4⟩
/-- R418 -/ def cfgDevCap_flr : Fld := ⟨0x54, 28, 1, .ro, 1⟩
/-- R428 -/ def cfgDevCtl_mps : Fld := ⟨0x58, 5, 3, .rw, 0⟩
/-- R428 -/ def cfgDevCtl_extTag : Fld := ⟨0x58, 8, 1, .rw, 1⟩
/-- R428 -/ def cfgDevCtl_mrrs : Fld := ⟨0x58, 12, 3, .rw, 2⟩
/-- R428 -/ def cfgDevCtl_flr : Fld := ⟨0x58, 15, 1, .w1s, 0⟩
/-- R418 -/ def cfgLinkCap_speed : Fld := ⟨0x5c, 0, 4, .ro, 6⟩
/-- R418 -/ def cfgLinkCap_width : Fld := ⟨0x5c, 4, 6, .ro, 4⟩
/-- R418 -/ def cfgLinkCap_aspm : Fld := ⟨0x5c, 10, 2, .ro, 2⟩
/-- R418 -/ def cfgLinkCap_l1Exit : Fld := ⟨0x5c, 15, 3, .ro, 2⟩
/-- R444 -/ def cfgLinkCtl_aspm : Fld := ⟨0x60, 0, 2, .rw, 0⟩
/-- R418 -/ def cfgDevCap2_ctoRanges : Fld := ⟨0x74, 0, 4, .ro, 15⟩
/-- R418 -/ def cfgDevCap2_ltr : Fld := ⟨0x74, 11, 1, .ro, 1⟩
/-- R418 -/ def cfgDevCap2_tag10Cpl : Fld := ⟨0x74, 16, 1, .ro, 1⟩
/-- R418 -/ def cfgDevCap2_tag10Req : Fld := ⟨0x74, 17, 1, .ro, 1⟩
/-- R428 -/ def cfgDevCtl2_cto : Fld := ⟨0x78, 0, 4, .rw, 0⟩
/-- R428 -/ def cfgDevCtl2_ltrEn : Fld := ⟨0x78, 10, 1, .rw, 0⟩
/-- R428 -/ def cfgDevCtl2_tag10En : Fld := ⟨0x78, 12, 1, .rw, 0⟩
/-- R418 -/ def cfgLinkCap2_speeds : Fld := ⟨0x7c, 1, 7, .ro, 63⟩
/-- R436 -/ def cfgMsix_id : Fld := ⟨0x90, 0, 8, .ro, 17⟩
/-- R436 -/ def cfgMsix_next : Fld := ⟨0x90, 8, 8, .ro, 0⟩
/-- R436 -/ def cfgMsix_size : Fld := ⟨0x90, 16, 11, .ro, 2047⟩
/-- R436 -/ def cfgMsix_fnMask : Fld := ⟨0x90, 30, 1, .rw, 0⟩
/-- R436 -/ def cfgMsix_enable : Fld := ⟨0x90, 31, 1, .rw, 0⟩
/-- R434 -/ def cfgMsixTab_bir : Fld := ⟨0x94, 0, 3, .ro, 4⟩
/-- R434 -/ def cfgMsixTab_off : Fld := ⟨0x94, 3, 29, .ro, 524288⟩
/-- R434 -/ def cfgMsixPba_bir : Fld := ⟨0x98, 0, 3, .ro, 4⟩
/-- R434 -/ def cfgMsixPba_off : Fld := ⟨0x98, 3, 29, .ro, 786432⟩
/-- R418 -/ def cfgAer_id : Fld := ⟨0x100, 0, 16, .ro, 1⟩
/-- R418 -/ def cfgAer_version : Fld := ⟨0x100, 16, 4, .ro, 2⟩
/-- R418 -/ def cfgAer_next : Fld := ⟨0x100, 20, 12, .ro, 336⟩
/-- R430 -/ def cfgAerUnc_poisoned : Fld := ⟨0x104, 12, 1, .w1c, 0⟩
/-- R430 -/ def cfgAerUnc_cplTimeout : Fld := ⟨0x104, 14, 1, .w1c, 0⟩
/-- R430 -/ def cfgAerUnc_unexpCpl : Fld := ⟨0x104, 16, 1, .w1c, 0⟩
/-- R430 -/ def cfgAerUnc_internal : Fld := ⟨0x104, 22, 1, .w1c, 0⟩
/-- R433 -/ def cfgAerCor_advisory : Fld := ⟨0x110, 13, 1, .w1c, 0⟩
/-- R445 -/ def cfgPtm_id : Fld := ⟨0x2a0, 0, 16, .ro, 31⟩
/-- R445 -/ def cfgPtm_version : Fld := ⟨0x2a0, 16, 4, .ro, 1⟩
/-- R445 -/ def cfgPtm_next : Fld := ⟨0x2a0, 20, 12, .ro, 688⟩
/-- R445 -/ def cfgPtmCtl_enable : Fld := ⟨0x2a8, 0, 1, .rw, 0⟩
/-- R445 -/ def cfgPtmCtl_root : Fld := ⟨0x2a8, 1, 1, .rw, 0⟩
/-- R445 -/ def cfgPtmCtl_gran : Fld := ⟨0x2a8, 8, 8, .rw, 0⟩
/-- R444 -/ def cfgL1ssCap_support : Fld := ⟨0x2b4, 0, 5, .ro, 31⟩
/-- R444 -/ def cfgL1ssCap_cmRestore : Fld := ⟨0x2b4, 8, 8, .ro, 40⟩
/-- R444 -/ def cfgL1ssCap_powerOnScale : Fld := ⟨0x2b4, 16, 2, .ro, 1⟩
/-- R444 -/ def cfgL1ssCap_powerOn : Fld := ⟨0x2b4, 19, 5, .ro, 5⟩
/-- R444 -/ def cfgL1ssCtl_enable : Fld := ⟨0x2b8, 0, 4, .rw, 0⟩
/-- R418 -/ def cfgRebarCap_sizes : Fld := ⟨0x2d4, 4, 28, .ro, 1048320⟩
/-- R423 -/ def cfgRebarCtl_barIdx : Fld := ⟨0x2d8, 0, 3, .ro, 2⟩
/-- R423 -/ def cfgRebarCtl_count : Fld := ⟨0x2d8, 5, 3, .ro, 1⟩
/-- R423 -/ def cfgRebarCtl_size : Fld := ⟨0x2d8, 8, 6, .rw, 8⟩
/-- R423 -/ def cfgVfRebarCtl_barIdx : Fld := ⟨0x2e8, 0, 3, .ro, 2⟩
/-- R423 -/ def cfgVfRebarCtl_count : Fld := ⟨0x2e8, 5, 3, .ro, 1⟩
/-- R423 -/ def cfgVfRebarCtl_size : Fld := ⟨0x2e8, 8, 6, .rw, 8⟩
/-- R426 -/ def cfgSriovCtl_vfEnable : Fld := ⟨0x308, 0, 1, .rw, 0⟩
/-- R426 -/ def cfgSriovCtl_vfMse : Fld := ⟨0x308, 3, 1, .rw, 0⟩
/-- R426 -/ def cfgSriovCtl_ariEn : Fld := ⟨0x308, 4, 1, .rw, 0⟩
/-- R426 -/ def cfgSriovVfs_initial : Fld := ⟨0x30c, 0, 16, .ro, 15⟩
/-- R426 -/ def cfgSriovVfs_total : Fld := ⟨0x30c, 16, 16, .ro, 15⟩
/-- R426 -/ def cfgSriovNum_numVfs : Fld := ⟨0x310, 0, 16, .rw, 0⟩
/-- R426 -/ def cfgSriovOff_offset : Fld := ⟨0x314, 0, 16, .ro, 1⟩
/-- R426 -/ def cfgSriovOff_stride : Fld := ⟨0x314, 16, 16, .ro, 1⟩
/-- R417 -/ def cfgSriovDev_vfDevice : Fld := ⟨0x318, 16, 16, .ro, 33065⟩
/-- R426 -/ def cfgSriovPs_supported : Fld := ⟨0x31c, 0, 32, .ro, 1023⟩
/-- R418 -/ def cfgSerialCap_id : Fld := ⟨0x340, 0, 16, .ro, 3⟩
/-- R418 -/ def cfgSerialCap_version : Fld := ⟨0x340, 16, 4, .ro, 1⟩
/-- R418 -/ def cfgSerialCap_next : Fld := ⟨0x340, 20, 12, .ro, 0⟩
/-- R446 -/ def slotHdr_id : Fld := ⟨0x350, 0, 16, .ro, 11⟩
/-- R446 -/ def slotHdr_version : Fld := ⟨0x350, 16, 4, .ro, 1⟩
/-- R446 -/ def slotHdr_next : Fld := ⟨0x350, 20, 12, .ro, 0⟩
/-- R446 -/ def slotVsec_id : Fld := ⟨0x354, 0, 16, .ro, 1⟩
/-- R446 -/ def slotVsec_rev : Fld := ⟨0x354, 16, 4, .ro, 1⟩
/-- R446 -/ def slotVsec_len : Fld := ⟨0x354, 20, 12, .ro, 24⟩
/-- R446 -/ def slotCap_button : Fld := ⟨0x358, 0, 1, .ro, 1⟩
/-- R446 -/ def slotCap_attnInd : Fld := ⟨0x358, 1, 1, .ro, 1⟩
/-- R446 -/ def slotCap_pwrInd : Fld := ⟨0x358, 2, 1, .ro, 1⟩
/-- R446 -/ def slotCap_pwrCtrl : Fld := ⟨0x358, 3, 1, .ro, 1⟩
/-- R446 -/ def slotCtrl_abpEn : Fld := ⟨0x35c, 0, 1, .rw, 0⟩
/-- R446 -/ def slotCtrl_presEn : Fld := ⟨0x35c, 1, 1, .rw, 0⟩
/-- R446 -/ def slotCtrl_pfEn : Fld := ⟨0x35c, 2, 1, .rw, 0⟩
/-- R446 -/ def slotCtrl_attn : Fld := ⟨0x35c, 3, 2, .rw, 3⟩
/-- R446 -/ def slotCtrl_pwr : Fld := ⟨0x35c, 5, 2, .rw, 1⟩
/-- R446 -/ def slotCtrl_off : Fld := ⟨0x35c, 7, 1, .rw, 0⟩
/-- R446 -/ def slotCtrl_vector : Fld := ⟨0x35c, 8, 11, .rw, 0⟩
/-- R446 -/ def slotStat_abp : Fld := ⟨0x360, 0, 1, .w1c, 0⟩
/-- R446 -/ def slotStat_presChg : Fld := ⟨0x360, 1, 1, .w1c, 0⟩
/-- R446 -/ def slotStat_pres : Fld := ⟨0x360, 2, 1, .ro, 1⟩
/-- R446 -/ def slotStat_pwrFault : Fld := ⟨0x360, 3, 1, .w1c, 0⟩
/-- R444 -/ def cfgLtr_snoop : Fld := ⟨0x2c4, 0, 16, .rw, 0⟩
/-- R444 -/ def cfgLtr_noSnoop : Fld := ⟨0x2c4, 16, 16, .rw, 0⟩
/-- R426 -/ def cfgSysPage_size : Fld := ⟨0x320, 0, 32, .rw, 1⟩
/-- R420 -/ def cfgVfBar_addr : Fld := ⟨0x324, 0, 32, .rw, 0⟩

end Sys2Proof.F

namespace Sys2Proof.Machine

/-- One register of a block layout: how far apart its copies stand, how many there are, and its fields. -/
structure RegRow where
  stride : Nat
  count : Nat
  flds : List Fld

/-- Registers of layout `comp`, part 0. -/
def regRows_comp0 : List RegRow := [
  ⟨0x0, 1, [F.id_level, F.id_g, F.id_q, F.id_b, F.id_ustory, F.id_laddrValid, F.id_phys]⟩,
  ⟨0x0, 1, [F.status_state, F.status_busy, F.status_inflight]⟩,
  ⟨0x0, 1, [F.epoch_epoch]⟩,
  ⟨0x0, 1, [F.owner_partition, F.owner_owned]⟩,
  ⟨0x0, 1, [F.cmdQ_sq, F.cmdQ_valid]⟩,
  ⟨0x0, 1, [F.cmdSeq_seq]⟩,
  ⟨0x30, 16, [F.win0_base]⟩,
  ⟨0x30, 16, [F.win1_limit]⟩,
  ⟨0x30, 16, [F.win2_srcLo]⟩,
  ⟨0x30, 16, [F.win3_srcHi]⟩,
  ⟨0x30, 16, [F.win4_modMask, F.win4_modPart]⟩,
  ⟨0x30, 16, [F.win5_expiryLo]⟩,
  ⟨0x30, 16, [F.win6_expiryHi]⟩,
  ⟨0x30, 16, [F.win7_wlim]⟩,
  ⟨0x30, 16, [F.win8_wcnt]⟩,
  ⟨0x30, 16, [F.win9_bytes]⟩,
  ⟨0x30, 16, [F.win10_state, F.win10_rejects]⟩,
  ⟨0x30, 16, [F.win11_partition, F.win11_valid, F.win11_slot]⟩]

/-- Registers of layout `comp`, part 1. -/
def regRows_comp1 : List RegRow := [
  ⟨0x0, 1, [F.winCap_cap]⟩,
  ⟨0x0, 1, [F.winOpen_open]⟩,
  ⟨0x0, 1, [F.winRej_rejects, F.winRej_lastCause]⟩,
  ⟨0x0, 1, [F.acBusyLo_busy]⟩,
  ⟨0x0, 1, [F.acBusyHi_busy]⟩,
  ⟨0x0, 1, [F.acCommit_committed]⟩,
  ⟨0x0, 1, [F.acKill_killed]⟩,
  ⟨0x0, 1, [F.acPreempt_preempted]⟩,
  ⟨0x0, 1, [F.acEnergyLo_energy]⟩,
  ⟨0x0, 1, [F.acEnergyHi_energy]⟩]

/-- Registers of layout `bl`, part 0. -/
def regRows_bl0 : List RegRow := [
  ⟨0x0, 1, [F.bkStat_active, F.bkStat_blocked]⟩,
  ⟨0x4, 4, [F.bkPc_pc, F.bkPc_depth, F.bkPc_valid, F.bkPc_slot]⟩,
  ⟨0x0, 1, [F.bkFault_code, F.bkFault_pc]⟩,
  ⟨0x0, 1, [F.bkFaultCtx_ctx, F.bkFaultCtx_slot, F.bkFaultCtx_valid]⟩,
  ⟨0x0, 1, [F.bkIssuedLo_count]⟩,
  ⟨0x0, 1, [F.bkIssuedHi_count]⟩,
  ⟨0x0, 1, [F.bkTickets_count]⟩,
  ⟨0x0, 1, [F.bkDup_count]⟩,
  ⟨0x4, 64, [F.bkSem_value]⟩,
  ⟨0x0, 1, [F.arrCfg_fpSlack]⟩,
  ⟨0x0, 1, [F.arrState_busy, F.arrState_quartered]⟩,
  ⟨0x0, 1, [F.arrCover_residue]⟩]

/-- Registers of layout `bl`, part 1. -/
def regRows_bl1 : List RegRow := [
  ⟨0x4, 4, [F.arrSpare_a0, F.arrSpare_a1, F.arrSpare_a2, F.arrSpare_a3]⟩,
  ⟨0x0, 1, [F.chkTilesLo_tiles]⟩,
  ⟨0x0, 1, [F.chkTilesHi_tiles]⟩,
  ⟨0x0, 1, [F.chkFail_mismatch, F.chkFail_transient]⟩,
  ⟨0x0, 1, [F.chkSkip_columns]⟩,
  ⟨0x0, 1, [F.arrDiag_array, F.arrDiag_start, F.arrDiag_busy, F.arrDiag_done, F.arrDiag_fail, F.arrDiag_row, F.arrDiag_rowValid, F.arrDiag_refused]⟩,
  ⟨0x0, 1, [F.mvpStat_busy, F.mvpStat_mode]⟩,
  ⟨0x0, 1, [F.mvpStallLo_cycles]⟩,
  ⟨0x0, 1, [F.mvpStallHi_cycles]⟩,
  ⟨0x0, 1, [F.mvpFail_count, F.mvpFail_count2]⟩,
  ⟨0x0, 1, [F.vuFail_count, F.vuFail_count2]⟩,
  ⟨0x0, 1, [F.accEcc_count, F.accEcc_count2]⟩]

/-- Registers of layout `bl`, part 2. -/
def regRows_bl2 : List RegRow := [
  ⟨0x0, 1, [F.qntStat_desync, F.qntStat_invalid]⟩,
  ⟨0x0, 1, [F.scaleLast_expected, F.scaleLast_found, F.scaleLast_operand, F.scaleLast_valid]⟩,
  ⟨0x0, 1, [F.scaleBlkLo_block]⟩,
  ⟨0x0, 1, [F.scaleBlkHi_block]⟩,
  ⟨0x0, 1, [F.qntSrLo_elements]⟩,
  ⟨0x0, 1, [F.qntSrHi_elements]⟩,
  ⟨0x0, 1, [F.statSlots_open]⟩,
  ⟨0x0, 1, [F.spadGateReqLo_banks]⟩,
  ⟨0x0, 1, [F.spadGateReqHi_banks]⟩,
  ⟨0x0, 1, [F.spadGateStatLo_banks]⟩,
  ⟨0x0, 1, [F.spadGateStatHi_banks]⟩,
  ⟨0x0, 1, [F.spadEcc_count, F.spadEcc_count2]⟩]

/-- Registers of layout `bl`, part 3. -/
def regRows_bl3 : List RegRow := [
  ⟨0x0, 1, [F.spadDrop_count, F.spadDrop_count2]⟩,
  ⟨0x0, 1, [F.spadLast_addr, F.spadLast_cause, F.spadLast_valid]⟩,
  ⟨0x0, 1, [F.scrub_busy, F.scrub_fail, F.scrub_count]⟩,
  ⟨0x0, 1, [F.dltTests_count]⟩,
  ⟨0x0, 1, [F.dltUnchanged_count]⟩,
  ⟨0x0, 1, [F.dltPlane_wb, F.dltPlane_hb, F.dltPlane_forced, F.dltPlane_valid]⟩,
  ⟨0x0, 1, [F.dltLoads_loads, F.dltLoads_forced]⟩,
  ⟨0x0, 1, [F.zcRdLo_bytes]⟩,
  ⟨0x0, 1, [F.zcRdHi_bytes]⟩,
  ⟨0x0, 1, [F.zcWrLo_bytes]⟩,
  ⟨0x0, 1, [F.zcWrHi_bytes]⟩,
  ⟨0x0, 1, [F.zcErr_count]⟩]

/-- Registers of layout `div`, part 0. -/
def regRows_div0 : List RegRow := [
  ⟨0x0, 1, [F.divStat_online, F.divStat_mode, F.divStat_busy]⟩,
  ⟨0x0, 1, [F.divShares_count]⟩,
  ⟨0x0, 1, [F.commitDup_count]⟩]

/-- Registers of layout `cg`, part 0. -/
def regRows_cg0 : List RegRow := [
  ⟨0x0, 1, [F.spare_active, F.spare_spareOk, F.spare_slot, F.spare_gen]⟩,
  ⟨0x0, 1, [F.offline_mask]⟩,
  ⟨0x0, 1, [F.lndPart0_part0, F.lndPart0_part1, F.lndPart0_part2, F.lndPart0_part3, F.lndPart0_part4, F.lndPart0_part5, F.lndPart0_part6, F.lndPart0_part7]⟩,
  ⟨0x0, 1, [F.lndPart1_part8, F.lndPart1_part9, F.lndPart1_part10, F.lndPart1_part11, F.lndPart1_part12, F.lndPart1_part13, F.lndPart1_part14, F.lndPart1_part15]⟩,
  ⟨0x0, 1, [F.lndOwned_mask]⟩,
  ⟨0x0, 1, [F.lndGateReq_mask]⟩,
  ⟨0x0, 1, [F.tallyPart0_part0, F.tallyPart0_part1, F.tallyPart0_part2, F.tallyPart0_part3, F.tallyPart0_part4, F.tallyPart0_part5, F.tallyPart0_part6, F.tallyPart0_part7]⟩,
  ⟨0x0, 1, [F.tallyPart1_part8, F.tallyPart1_part9, F.tallyPart1_part10, F.tallyPart1_part11, F.tallyPart1_part12, F.tallyPart1_part13, F.tallyPart1_part14, F.tallyPart1_part15]⟩,
  ⟨0x0, 1, [F.tallyOwned_mask]⟩,
  ⟨0x0, 1, [F.lndGateStat_mask]⟩,
  ⟨0x0, 1, [F.lndEcc_count, F.lndEcc_count2]⟩,
  ⟨0x0, 1, [F.lndFailed_count]⟩]

/-- Registers of layout `gl`, part 0. -/
def regRows_gl0 : List RegRow := [
  ⟨0x0, 1, [F.idMagic_magic]⟩,
  ⟨0x0, 1, [F.idDevice_vendor, F.idDevice_device]⟩,
  ⟨0x0, 1, [F.idRev_rev]⟩,
  ⟨0x0, 1, [F.idArithSig_sig]⟩,
  ⟨0x0, 1, [F.idTimingSig_sig]⟩,
  ⟨0x0, 1, [F.idTimingGen_gen]⟩,
  ⟨0x0, 1, [F.idTimingImg0_img]⟩,
  ⟨0x4, 5, [F.idTimingImg_img]⟩,
  ⟨0x0, 1, [F.idSerialLo_serial]⟩,
  ⟨0x0, 1, [F.idSerialHi_serial]⟩,
  ⟨0x0, 1, [F.idFw_ver]⟩,
  ⟨0x0, 1, [F.glCtrl_seal, F.glCtrl_restart, F.glCtrl_key]⟩]

/-- Registers of layout `gl`, part 1. -/
def regRows_gl1 : List RegRow := [
  ⟨0x0, 1, [F.glStatus_memReady, F.glStatus_ready, F.glStatus_sealed, F.glStatus_planned, F.glStatus_preloadDone, F.glStatus_staged, F.glStatus_warm, F.glStatus_migrated, F.glStatus_slot]⟩,
  ⟨0x0, 1, [F.glStart_readyMs, F.glStart_memMs]⟩,
  ⟨0x0, 1, [F.glResetCause_cause, F.glResetCause_starts]⟩,
  ⟨0x0, 1, [F.glPlan_format, F.glPlan_sections]⟩,
  ⟨0x0, 1, [F.glPlanSerialLo_serial]⟩,
  ⟨0x0, 1, [F.glPlanSerialHi_serial]⟩,
  ⟨0x0, 1, [F.glPlanErr_code, F.glPlanErr_section, F.glPlanErr_slot, F.glPlanErr_valid]⟩,
  ⟨0x0, 1, [F.glTplDrop_count]⟩,
  ⟨0x0, 1, [F.glLink_speed, F.glLink_width, F.glLink_flit, F.glLink_degraded, F.glLink_l1, F.glLink_retrains]⟩,
  ⟨0x0, 1, [F.glAptBaseLo_base]⟩,
  ⟨0x0, 1, [F.glAptBaseHi_base]⟩,
  ⟨0x0, 1, [F.glHostErr_timeouts, F.glHostErr_late]⟩]

/-- Registers of layout `gl`, part 2. -/
def regRows_gl2 : List RegRow := [
  ⟨0x0, 1, [F.glHostErr2_poisoned, F.glHostErr2_readErr]⟩,
  ⟨0x0, 1, [F.glHostLast_code, F.glHostLast_tag, F.glHostLast_valid]⟩,
  ⟨0x0, 1, [F.glWake_alarmEn, F.glWake_skidwayEn, F.glWake_buttonEn, F.glWake_last]⟩,
  ⟨0x0, 1, [F.glDbRej_count]⟩,
  ⟨0x0, 1, [F.glResets_flr, F.glResets_linkDown]⟩,
  ⟨0x0, 1, [F.ckSrcStat_present, F.ckSrcStat_ready, F.ckSrcStat_lost, F.ckSrcStat_refused, F.ckSrcStat_fallback, F.ckSrcStat_paused]⟩,
  ⟨0x0, 1, [F.ckSrcSel_arith, F.ckSrcSel_fabric, F.ckSrcSel_media, F.ckSrcSel_mem, F.ckSrcSel_mgmt]⟩,
  ⟨0x0, 1, [F.ckSrcNext_arith, F.ckSrcNext_fabric, F.ckSrcNext_media, F.ckSrcNext_mem, F.ckSrcNext_mgmt]⟩,
  ⟨0x0, 1, [F.ckSwitchAtLo_stamp]⟩,
  ⟨0x0, 1, [F.ckSwitchAtHi_stamp]⟩,
  ⟨0x0, 1, [F.ckSwitchCtrl_arm, F.ckSwitchCtrl_pending]⟩,
  ⟨0x4, 4, [F.ckMonPpm_ppm]⟩]

/-- Registers of layout `gl`, part 3. -/
def regRows_gl3 : List RegRow := [
  ⟨0x0, 1, [F.ckClkout_sel, F.ckClkout_en, F.ckClkout_tooFast, F.ckClkout_div]⟩,
  ⟨0x0, 1, [F.tlCtrl_src, F.tlCtrl_srcNext, F.tlCtrl_arm, F.tlCtrl_pending]⟩,
  ⟨0x0, 1, [F.tlRaster_lines]⟩,
  ⟨0x0, 1, [F.tlRateNum_num]⟩,
  ⟨0x0, 1, [F.tlRateDen_den]⟩,
  ⟨0x0, 1, [F.tlNowLo_now]⟩,
  ⟨0x0, 1, [F.tlNowHi_now]⟩,
  ⟨0x0, 1, [F.tlSwitchAtLo_stamp]⟩,
  ⟨0x0, 1, [F.tlSwitchAtHi_stamp]⟩,
  ⟨0x0, 1, [F.tlStatus_lock, F.tlStatus_ptmValid, F.tlStatus_pinPresent, F.tlStatus_fsPresent, F.tlStatus_swFrameValid, F.tlStatus_refused, F.tlStatus_lost, F.tlStatus_stepped, F.tlStatus_phaseErr]⟩,
  ⟨0x0, 1, [F.tlSyncCfg_linePulses, F.tlSyncCfg_pol, F.tlSyncCfg_window, F.tlSyncCfg_lossFrames]⟩,
  ⟨0x0, 1, [F.tlPtmOriginLo_origin]⟩]

/-- Registers of layout `gl`, part 4. -/
def regRows_gl4 : List RegRow := [
  ⟨0x0, 1, [F.tlPtmOriginHi_origin]⟩,
  ⟨0x0, 1, [F.tlPtmFrame_frame]⟩,
  ⟨0x0, 1, [F.tlMs_master, F.tlMs_backup, F.tlMs_fsDriveEn, F.tlMs_fsDelayNs]⟩,
  ⟨0x0, 1, [F.tlPulseCnt_inside, F.tlPulseCnt_outside]⟩,
  ⟨0x10, 16, [F.tlAlarmLo_stamp]⟩,
  ⟨0x10, 16, [F.tlAlarmHi_stamp]⟩,
  ⟨0x10, 16, [F.tlAlarmCtrl_vector, F.tlAlarmCtrl_irqEn, F.tlAlarmCtrl_wakeEn, F.tlAlarmCtrl_arm, F.tlAlarmCtrl_fired, F.tlAlarmCtrl_everyFrame]⟩,
  ⟨0x0, 1, [F.pwStat_state, F.pwStat_level, F.pwStat_pwrCtl, F.pwStat_thrCtl, F.pwStat_therm, F.pwStat_inputStable, F.pwStat_holdupOk, F.pwStat_onAux]⟩,
  ⟨0x0, 1, [F.pwLimit_host, F.pwLimit_eff]⟩,
  ⟨0x0, 1, [F.pwLimitCap_ceiling, F.pwLimitCap_oob]⟩,
  ⟨0x0, 1, [F.pwCfg_rideMs]⟩,
  ⟨0x0, 1, [F.pwIn_mv, F.pwIn_ma10]⟩]

/-- Registers of layout `gl`, part 5. -/
def regRows_gl5 : List RegRow := [
  ⟨0x0, 1, [F.pwInP_p10us, F.pwInP_p10ms]⟩,
  ⟨0x0, 1, [F.pwEinLo_uj]⟩,
  ⟨0x0, 1, [F.pwEinHi_uj]⟩,
  ⟨0x0, 1, [F.pwXtime_xUs, F.pwXtime_expired]⟩,
  ⟨0x0, 1, [F.pwHoldup_mj, F.pwHoldup_min]⟩,
  ⟨0x0, 1, [F.pwTemp0_die, F.pwTemp0_lid, F.pwTemp0_dram, F.pwTemp0_conv]⟩,
  ⟨0x0, 1, [F.pwTemp1_switch, F.pwTemp1_bank, F.pwTemp1_hotIdx]⟩,
  ⟨0x0, 1, [F.pwRailSel_rail, F.pwRailSel_ready]⟩,
  ⟨0x0, 1, [F.pwRailData_mv, F.pwRailData_ma100]⟩,
  ⟨0x0, 1, [F.pwThrMsLo_ms]⟩,
  ⟨0x0, 1, [F.pwThrMsHi_ms]⟩,
  ⟨0x0, 1, [F.pwEvent_uv, F.pwEvent_rideOk, F.pwEvent_excursion, F.pwEvent_clamped, F.pwEvent_warn, F.pwEvent_throttle, F.pwEvent_critical, F.pwEvent_holdupLow, F.pwEvent_oobLimit]⟩]

/-- Registers of layout `gl`, part 6. -/
def regRows_gl6 : List RegRow := [
  ⟨0x0, 1, [F.pwIrq_en, F.pwIrq_vector]⟩,
  ⟨0x0, 1, [F.msCfg_attended, F.msCfg_debounce]⟩,
  ⟨0x0, 1, [F.msHs_state, F.msHs_pres, F.msHs_last, F.msHs_trips]⟩,
  ⟨0x0, 1, [F.msBtn_presses, F.msBtn_level]⟩,
  ⟨0x0, 1, [F.scStat_inflight, F.scStat_switching]⟩,
  ⟨0x0, 1, [F.scEpochCur_epoch]⟩,
  ⟨0x0, 1, [F.scEpochAtLo_stamp]⟩,
  ⟨0x0, 1, [F.scEpochAtHi_stamp]⟩,
  ⟨0x0, 1, [F.scEpochCtrl_arm, F.scEpochCtrl_pending, F.scEpochCtrl_done, F.scEpochCtrl_refused, F.scEpochCtrl_cause]⟩,
  ⟨0x0, 1, [F.scPreemptCnt_count, F.scPreemptCnt_count2]⟩,
  ⟨0x0, 1, [F.scLateCnt_count, F.scLateCnt_count2]⟩,
  ⟨0x8, 16, [F.auditHead_head]⟩,
  ⟨0x8, 16, [F.auditTail_tail]⟩]

/-- Registers of layout `gl`, part 7. -/
def regRows_gl7 : List RegRow := [
  ⟨0x0, 1, [F.scQsel_number, F.scQsel_type, F.scQsel_ready]⟩,
  ⟨0x0, 1, [F.scQinfo0_moduleIdx]⟩,
  ⟨0x0, 1, [F.scQinfo1_driverIdx]⟩,
  ⟨0x0, 1, [F.scQinfo2_state, F.scQinfo2_partition, F.scQinfo2_class, F.scQinfo2_policy, F.scQinfo2_depthLog2]⟩,
  ⟨0x0, 1, [F.scQinfo3_count]⟩,
  ⟨0x0, 1, [F.scQErr_code, F.scQErr_number, F.scQErr_valid]⟩,
  ⟨0x0, 1, [F.acQsel_queue, F.acQsel_ready]⟩,
  ⟨0x4, 12, [F.acQdata_word]⟩,
  ⟨0x0, 1, [F.acCalK_k]⟩,
  ⟨0x0, 1, [F.acEinLo_eIn]⟩,
  ⟨0x0, 1, [F.acEinHi_eIn]⟩,
  ⟨0x0, 1, [F.acUnattrLo_unattr]⟩]

/-- Registers of layout `gl`, part 8. -/
def regRows_gl8 : List RegRow := [
  ⟨0x0, 1, [F.acUnattrHi_unattr]⟩,
  ⟨0x0, 1, [F.dkGStat_ready, F.dkGStat_unmatched]⟩,
  ⟨0x0, 1, [F.dkGCfg_recDeck]⟩,
  ⟨0x4, 4, [F.dkStage_d0, F.dkStage_d1, F.dkStage_d2, F.dkStage_d3]⟩,
  ⟨0x0, 1, [F.dkReturnLo_addr]⟩,
  ⟨0x0, 1, [F.dkReturnHi_addr]⟩,
  ⟨0x0, 1, [F.dkRetStat_code]⟩,
  ⟨0x0, 1, [F.dkReclaim_partition, F.dkReclaim_kinds, F.dkReclaim_busy]⟩,
  ⟨0x0, 1, [F.drGStat_memReady, F.drGStat_warm, F.drGStat_scrubBusy]⟩,
  ⟨0x0, 1, [F.drGRh_k, F.drGRh_rfmEn]⟩,
  ⟨0x0, 1, [F.drGPage_predictEn]⟩,
  ⟨0x0, 1, [F.drGPd_pdIdle, F.drGPd_srIdle]⟩]

/-- Registers of layout `gl`, part 9. -/
def regRows_gl9 : List RegRow := [
  ⟨0x0, 1, [F.drGGap_gapStart, F.drGGap_gapEnd]⟩,
  ⟨0x0, 1, [F.drGRetrain_maxWait, F.drGRetrain_tempDelta]⟩,
  ⟨0x0, 1, [F.drGScrub_period, F.drGScrub_en, F.drGScrub_passes]⟩,
  ⟨0x0, 1, [F.drGScrubPos_progress]⟩,
  ⟨0x0, 1, [F.drGPpr_thresh, F.drGPpr_en]⟩,
  ⟨0x4, 112, [F.drGKeymap_key0, F.drGKeymap_key1, F.drGKeymap_key2, F.drGKeymap_key3]⟩,
  ⟨0x0, 1, [F.mdCap_engines, F.mdCap_maxCtx]⟩,
  ⟨0x0, 1, [F.mdStat_online, F.mdStat_reloading, F.mdStat_ctxOpen]⟩,
  ⟨0x0, 1, [F.mdErrReject_count]⟩,
  ⟨0x0, 1, [F.mdErrConceal_count]⟩,
  ⟨0x0, 1, [F.mdErrBudget_count]⟩,
  ⟨0x0, 1, [F.mdLast_code, F.mdLast_ctx, F.mdLast_valid]⟩]

/-- Registers of layout `gl`, part 10. -/
def regRows_gl10 : List RegRow := [
  ⟨0x0, 1, [F.enCap_engines, F.enCap_maxCtx]⟩,
  ⟨0x0, 1, [F.enStat_online, F.enStat_reloading, F.enStat_ctxOpen]⟩,
  ⟨0x0, 1, [F.enErr_count]⟩,
  ⟨0x0, 1, [F.enLast_code, F.enLast_ctx, F.enLast_valid]⟩,
  ⟨0x0, 1, [F.sxStat_busy, F.sxStat_done]⟩,
  ⟨0x0, 1, [F.sxLoad_busy, F.sxLoad_backlog]⟩,
  ⟨0x0, 1, [F.sxHoles_count]⟩,
  ⟨0x0, 1, [F.sxLast_code, F.sxLast_slot, F.sxLast_valid]⟩,
  ⟨0x0, 1, [F.sxTrkStat_tracks]⟩,
  ⟨0x0, 1, [F.sxTrkCnt_ignored, F.sxTrkCnt_exhausted]⟩,
  ⟨0x0, 1, [F.tkStat_busy, F.tkStat_dicts]⟩,
  ⟨0x0, 1, [F.tkBytesLo_bytes]⟩]

/-- Registers of layout `gl`, part 11. -/
def regRows_gl11 : List RegRow := [
  ⟨0x0, 1, [F.tkBytesHi_bytes]⟩,
  ⟨0x0, 1, [F.tkTokensLo_tokens]⟩,
  ⟨0x0, 1, [F.tkTokensHi_tokens]⟩,
  ⟨0x0, 1, [F.tkLast_code, F.tkLast_valid]⟩,
  ⟨0x0, 1, [F.sxRoiStat_busy, F.sxRoiStat_done]⟩,
  ⟨0x0, 1, [F.sxRoiBoxesLo_count]⟩,
  ⟨0x0, 1, [F.sxRoiBoxesHi_count]⟩,
  ⟨0x0, 1, [F.sxRoiHoles_count]⟩,
  ⟨0x0, 1, [F.sxRoiLast_code, F.sxRoiLast_box, F.sxRoiLast_valid]⟩,
  ⟨0x0, 1, [F.swCfg_modId, F.swCfg_count, F.swCfg_en]⟩,
  ⟨0x0, 1, [F.swStat_reach]⟩,
  ⟨0x0, 1, [F.swRoute_p0, F.swRoute_p1, F.swRoute_p2, F.swRoute_p3, F.swRoute_p4, F.swRoute_p5, F.swRoute_p6, F.swRoute_p7]⟩]

/-- Registers of layout `gl`, part 12. -/
def regRows_gl12 : List RegRow := [
  ⟨0x0, 1, [F.swAckTo_us]⟩,
  ⟨0x0, 1, [F.ftStat_recovering, F.ftStat_deviceFailed, F.ftStat_pfail]⟩,
  ⟨0x0, 1, [F.ftCfg_rerunMax, F.ftCfg_logEn]⟩,
  ⟨0x0, 1, [F.ftLogBaseLo_base]⟩,
  ⟨0x0, 1, [F.ftLogBaseHi_base]⟩,
  ⟨0x0, 1, [F.ftLogSize_kib]⟩,
  ⟨0x0, 1, [F.ftLogHead_head]⟩,
  ⟨0x0, 1, [F.ftCnt0_corrected, F.ftCnt0_contained]⟩,
  ⟨0x0, 1, [F.ftCnt1_data, F.ftCnt1_pfatal, F.ftCnt1_dfatal]⟩,
  ⟨0x0, 1, [F.ftLast_code, F.ftLast_class, F.ftLast_valid]⟩,
  ⟨0x0, 1, [F.ftDfail_code]⟩,
  ⟨0x0, 1, [F.ftTimes_last, F.ftTimes_longest]⟩]

/-- Registers of layout `gl`, part 13. -/
def regRows_gl13 : List RegRow := [
  ⟨0x0, 1, [F.ftRsel_index, F.ftRsel_flash, F.ftRsel_ready]⟩,
  ⟨0x4, 16, [F.ftRdata_data]⟩,
  ⟨0x0, 1, [F.ftSvcCtrl_op, F.ftSvcCtrl_index]⟩,
  ⟨0x0, 1, [F.ftSvcAddrLo_addr]⟩,
  ⟨0x0, 1, [F.ftSvcAddrHi_addr]⟩,
  ⟨0x0, 1, [F.ftSvcStat_busy, F.ftSvcStat_result, F.ftSvcStat_count]⟩,
  ⟨0x0, 1, [F.seStat_debugUnlocked, F.seStat_debugPending, F.seStat_debugLevel, F.seStat_ownerSet, F.seStat_entropyOk, F.seStat_bank, F.seStat_trial, F.seStat_fallback]⟩,
  ⟨0x0, 1, [F.seSvn_fw, F.seSvn_ucode]⟩,
  ⟨0x0, 1, [F.seOwnerGen_gen]⟩,
  ⟨0x0, 1, [F.seMbCtrl_go, F.seMbCtrl_busy, F.seMbCtrl_done, F.seMbCtrl_error, F.seMbCtrl_kind, F.seMbCtrl_len]⟩,
  ⟨0x0, 1, [F.seMbRlen_len]⟩,
  ⟨0x0, 1, [F.upCtrl_op, F.upCtrl_piece]⟩]

/-- Registers of layout `gl`, part 14. -/
def regRows_gl14 : List RegRow := [
  ⟨0x0, 1, [F.upSrcLo_addr]⟩,
  ⟨0x0, 1, [F.upSrcHi_addr]⟩,
  ⟨0x0, 1, [F.upLen_len]⟩,
  ⟨0x0, 1, [F.upStat_state, F.upStat_busy, F.upStat_component, F.upStat_code]⟩,
  ⟨0x0, 1, [F.upCount_held]⟩,
  ⟨0x0, 1, [F.upRefuse_ownerLock, F.upRefuse_holdup, F.upRefuse_input, F.upRefuse_thermal, F.upRefuse_onAir, F.upRefuse_recovering, F.upRefuse_debug, F.upRefuse_busy]⟩,
  ⟨0x0, 1, [F.upOnair_onAir, F.upOnair_all]⟩,
  ⟨0x4, 1024, [F.seMbBuf_data]⟩,
  ⟨0x4, 2048, [F.upBitmap_bits]⟩]

/-- Registers of layout `pt`, part 0. -/
def regRows_pt0 : List RegRow := [
  ⟨0x0, 1, [F.ptCtrl_enabled, F.ptCtrl_livePreempt, F.ptCtrl_groupEn, F.ptCtrl_groupOk]⟩,
  ⟨0x0, 1, [F.ptOwnLo_own]⟩,
  ⟨0x0, 1, [F.ptOwnHi_own]⟩,
  ⟨0x0, 1, [F.ptShare_dram, F.ptShare_decode, F.ptShare_encode]⟩,
  ⟨0x0, 1, [F.ptQuota_inflight, F.ptQuota_contexts]⟩,
  ⟨0x4, 3, [F.ptSlice_slice]⟩,
  ⟨0x0, 1, [F.ptSaveLo_save]⟩,
  ⟨0x0, 1, [F.ptSaveHi_save]⟩,
  ⟨0x0, 1, [F.ptSaveSize_size]⟩,
  ⟨0x0, 1, [F.ptStat_inflight, F.ptStat_slice, F.ptStat_contexts]⟩,
  ⟨0x0, 1, [F.ptPreempt_req, F.ptPreempt_busy]⟩,
  ⟨0x0, 1, [F.ptShCtrl_livePreempt, F.ptShCtrl_groupEn]⟩]

/-- Registers of layout `pt`, part 1. -/
def regRows_pt1 : List RegRow := [
  ⟨0x0, 1, [F.ptShOwnLo_own]⟩,
  ⟨0x0, 1, [F.ptShOwnHi_own]⟩,
  ⟨0x0, 1, [F.ptShShare_dram, F.ptShShare_decode, F.ptShShare_encode]⟩,
  ⟨0x0, 1, [F.ptShQuota_inflight, F.ptShQuota_contexts]⟩,
  ⟨0x4, 3, [F.ptShSlice_slice]⟩,
  ⟨0x0, 1, [F.ptSeedIdx_index]⟩,
  ⟨0x0, 1, [F.ptSeedLo_lo]⟩,
  ⟨0x0, 1, [F.ptSeedHi_hi]⟩,
  ⟨0x4, 8, [F.ptSeedValid_valid]⟩,
  ⟨0x0, 1, [F.ptAuditBaseLo_base]⟩,
  ⟨0x0, 1, [F.ptAuditBaseHi_base]⟩,
  ⟨0x0, 1, [F.ptAuditSize_size]⟩]

/-- Registers of layout `pt`, part 2. -/
def regRows_pt2 : List RegRow := [
  ⟨0x0, 1, [F.ptAuditCtl_en, F.ptAuditCtl_dropped]⟩]

/-- Registers of layout `ac`, part 0. -/
def regRows_ac0 : List RegRow := [
  ⟨0x4, 38, [F.acCnt_word]⟩]

/-- Registers of layout `ctl`, part 0. -/
def regRows_ctl0 : List RegRow := [
  ⟨0x0, 1, [F.ctlSqBaseLo_base]⟩,
  ⟨0x0, 1, [F.ctlSqBaseHi_base, F.ctlSqBaseHi_space]⟩,
  ⟨0x0, 1, [F.ctlCqBaseLo_base]⟩,
  ⟨0x0, 1, [F.ctlCqBaseHi_base, F.ctlCqBaseHi_space]⟩,
  ⟨0x0, 1, [F.ctlPtrLo_ptr]⟩,
  ⟨0x0, 1, [F.ctlPtrHi_ptr, F.ctlPtrHi_space]⟩,
  ⟨0x0, 1, [F.ctlCfg_sqLog2, F.ctlCfg_cqLog2, F.ctlCfg_vector, F.ctlCfg_irqEn, F.ctlCfg_en, F.ctlCfg_stopped]⟩,
  ⟨0x0, 1, [F.ctlSqTail_tail]⟩,
  ⟨0x0, 1, [F.ctlCqHead_head]⟩,
  ⟨0x0, 1, [F.ctlSqHead_sqHead]⟩,
  ⟨0x0, 1, [F.ctlCqProd_cqProd]⟩]

/-- Registers of layout `md`, part 0. -/
def regRows_md0 : List RegRow := [
  ⟨0x0, 1, [F.engCtrl_offlineReq, F.engCtrl_reload]⟩,
  ⟨0x0, 1, [F.engStat_state, F.engStat_live, F.engStat_ctx]⟩,
  ⟨0x0, 1, [F.engVer_ver]⟩,
  ⟨0x0, 1, [F.engPixLo_pixels]⟩,
  ⟨0x0, 1, [F.engPixHi_pixels]⟩,
  ⟨0x0, 1, [F.engPics_pictures]⟩,
  ⟨0x0, 1, [F.engFault_faults, F.engFault_reloads]⟩,
  ⟨0x0, 1, [F.engWindow_window]⟩]

/-- Registers of layout `dr`, part 0. -/
def regRows_dr0 : List RegRow := [
  ⟨0x0, 1, [F.drChStat_stateA, F.drChStat_stateB, F.drChStat_pd, F.drChStat_sr, F.drChStat_retraining]⟩,
  ⟨0x100, 2, [F.drScCe_ce]⟩,
  ⟨0x100, 2, [F.drScUe_ue, F.drScUe_addr]⟩,
  ⟨0x100, 2, [F.drScLastLo_burst, F.drScLastLo_device]⟩,
  ⟨0x100, 2, [F.drScLastHi_code, F.drScLastHi_valid]⟩,
  ⟨0x100, 2, [F.drScActLo_act]⟩,
  ⟨0x100, 2, [F.drScActHi_act]⟩,
  ⟨0x100, 2, [F.drScRh_nbr, F.drScRh_rfm]⟩,
  ⟨0x100, 2, [F.drScPpr_used]⟩,
  ⟨0x100, 2, [F.drScPoison_entries]⟩,
  ⟨0x100, 2, [F.drScTrain_done, F.drScTrain_forced]⟩,
  ⟨0x100, 2, [F.drScTemp_temp, F.drScTemp_hot]⟩]

/-- Registers of layout `dk`, part 0. -/
def regRows_dk0 : List RegRow := [
  ⟨0x0, 1, [F.dkCfg_sizeLog2, F.dkCfg_en, F.dkCfg_irqEn, F.dkCfg_vector]⟩,
  ⟨0x0, 1, [F.dkCount_count]⟩,
  ⟨0x0, 1, [F.dkBaseLo_base]⟩,
  ⟨0x0, 1, [F.dkBaseHi_base]⟩,
  ⟨0x0, 1, [F.dkBookLo_book]⟩,
  ⟨0x0, 1, [F.dkBookHi_book]⟩,
  ⟨0x0, 1, [F.dkWarn_warn]⟩,
  ⟨0x0, 1, [F.dkThrottle_throttle]⟩,
  ⟨0x0, 1, [F.dkStop_stop]⟩,
  ⟨0x0, 1, [F.dkResv_resv, F.dkResv_hyst]⟩,
  ⟨0x0, 1, [F.dkStat_level, F.dkStat_ready, F.dkStat_rebuilding, F.dkStat_failed, F.dkStat_disabled]⟩,
  ⟨0x0, 1, [F.dkFree_available]⟩]

/-- Registers of layout `dk`, part 1. -/
def regRows_dk1 : List RegRow := [
  ⟨0x0, 1, [F.dkResvFree_resvFree]⟩,
  ⟨0x0, 1, [F.dkWaiters_waiters]⟩,
  ⟨0x0, 1, [F.dkReject_rejected, F.dkReject_reclaimed]⟩,
  ⟨0x0, 1, [F.dkMinFree_low, F.dkMinFree_rearm]⟩]

/-- Registers of layout `dkq`, part 0. -/
def regRows_dkq0 : List RegRow := [
  ⟨0x4, 16, [F.dkQuota_quota]⟩]

/-- Registers of layout `dkh`, part 0. -/
def regRows_dkh0 : List RegRow := [
  ⟨0x4, 16, [F.dkHeld_held]⟩]

/-- Registers of layout `sw`, part 0. -/
def regRows_sw0 : List RegRow := [
  ⟨0x0, 1, [F.swPortStat_state, F.swPortStat_peer, F.swPortStat_peerPort, F.swPortStat_retrains]⟩,
  ⟨0x0, 1, [F.swPortErr_crc, F.swPortErr_replays]⟩,
  ⟨0x0, 1, [F.swPortTxLo_tx]⟩,
  ⟨0x0, 1, [F.swPortTxHi_tx]⟩,
  ⟨0x0, 1, [F.swPortRxLo_rx]⟩,
  ⟨0x0, 1, [F.swPortRxHi_rx]⟩,
  ⟨0x0, 1, [F.swPortCred_vc0, F.swPortCred_vc1, F.swPortCred_vc2]⟩]

/-- Registers of layout `txw`, part 0. -/
def regRows_txw0 : List RegRow := [
  ⟨0x0, 1, [F.txwBaseLo_base]⟩,
  ⟨0x0, 1, [F.txwBaseHi_base]⟩,
  ⟨0x0, 1, [F.txwLimitLo_limit]⟩,
  ⟨0x0, 1, [F.txwLimitHi_limit]⟩,
  ⟨0x0, 1, [F.txwCtl_en, F.txwCtl_dst, F.txwCtl_partition, F.txwCtl_kind, F.txwCtl_target, F.txwCtl_window]⟩,
  ⟨0x0, 1, [F.txwSent_sent]⟩]

/-- Registers of layout `rxw`, part 0. -/
def regRows_rxw0 : List RegRow := [
  ⟨0x0, 1, [F.rxwBaseLo_base]⟩,
  ⟨0x0, 1, [F.rxwBaseHi_base]⟩,
  ⟨0x0, 1, [F.rxwLimitLo_limit]⟩,
  ⟨0x0, 1, [F.rxwLimitHi_limit]⟩,
  ⟨0x0, 1, [F.rxwCtl_en, F.rxwCtl_modMask, F.rxwCtl_partition, F.rxwCtl_irqEn, F.rxwCtl_vector]⟩,
  ⟨0x0, 1, [F.rxwWlim_wlim]⟩,
  ⟨0x0, 1, [F.rxwWcnt_wcnt]⟩,
  ⟨0x0, 1, [F.rxwStat_state, F.rxwStat_rejects]⟩]

/-- Registers of layout `cfg`, part 0. [PRESUMED, log entry 2] -/
def regRows_cfg0 : List RegRow := [
  ⟨0x0, 1, [F.cfgId_vendor, F.cfgId_device]⟩,
  ⟨0x0, 1, [F.cfgCmd_memSpace, F.cfgCmd_busMaster, F.cfgCmd_capList]⟩,
  ⟨0x0, 1, [F.cfgClass_rev, F.cfgClass_class]⟩,
  ⟨0x0, 1, [F.cfgBar0_type, F.cfgBar0_addr]⟩,
  ⟨0x0, 1, [F.cfgBar1_addr]⟩,
  ⟨0x0, 1, [F.cfgBar2_type, F.cfgBar2_addr]⟩,
  ⟨0x0, 1, [F.cfgBar3_addr]⟩,
  ⟨0x0, 1, [F.cfgBar4_type, F.cfgBar4_addr]⟩,
  ⟨0x0, 1, [F.cfgBar5_addr]⟩,
  ⟨0x0, 1, [F.cfgSub_vendor, F.cfgSub_id]⟩,
  ⟨0x0, 1, [F.cfgCap_ptr]⟩,
  ⟨0x0, 1, [F.cfgPmCap_id, F.cfgPmCap_next, F.cfgPmCap_version, F.cfgPmCap_pmeD0, F.cfgPmCap_pmeHot, F.cfgPmCap_pmeCold]⟩]

/-- Registers of layout `cfg`, part 1. [PRESUMED, log entry 2] -/
def regRows_cfg1 : List RegRow := [
  ⟨0x0, 1, [F.cfgPmcsr_state, F.cfgPmcsr_noSoftReset, F.cfgPmcsr_pmeEn, F.cfgPmcsr_pmeStatus]⟩,
  ⟨0x0, 1, [F.cfgPcieCap_id, F.cfgPcieCap_next, F.cfgPcieCap_version]⟩,
  ⟨0x0, 1, [F.cfgDevCap_mps, F.cfgDevCap_extTag, F.cfgDevCap_l1Lat, F.cfgDevCap_flr]⟩,
  ⟨0x0, 1, [F.cfgDevCtl_mps, F.cfgDevCtl_extTag, F.cfgDevCtl_mrrs, F.cfgDevCtl_flr]⟩,
  ⟨0x0, 1, [F.cfgLinkCap_speed, F.cfgLinkCap_width, F.cfgLinkCap_aspm, F.cfgLinkCap_l1Exit]⟩,
  ⟨0x0, 1, [F.cfgLinkCtl_aspm]⟩,
  ⟨0x0, 1, [F.cfgDevCap2_ctoRanges, F.cfgDevCap2_ltr, F.cfgDevCap2_tag10Cpl, F.cfgDevCap2_tag10Req]⟩,
  ⟨0x0, 1, [F.cfgDevCtl2_cto, F.cfgDevCtl2_ltrEn, F.cfgDevCtl2_tag10En]⟩,
  ⟨0x0, 1, [F.cfgLinkCap2_speeds]⟩,
  ⟨0x0, 1, [F.cfgMsix_id, F.cfgMsix_next, F.cfgMsix_size, F.cfgMsix_fnMask, F.cfgMsix_enable]⟩,
  ⟨0x0, 1, [F.cfgMsixTab_bir, F.cfgMsixTab_off]⟩,
  ⟨0x0, 1, [F.cfgMsixPba_bir, F.cfgMsixPba_off]⟩]

/-- Registers of layout `cfg`, part 2. -/
def regRows_cfg2 : List RegRow := [
  ⟨0x0, 1, [F.cfgAer_id, F.cfgAer_version, F.cfgAer_next]⟩,
  ⟨0x0, 1, [F.cfgAerUnc_poisoned, F.cfgAerUnc_cplTimeout, F.cfgAerUnc_unexpCpl, F.cfgAerUnc_internal]⟩,
  ⟨0x0, 1, [F.cfgAerCor_advisory]⟩,
  ⟨0x0, 1, [F.cfgPtm_id, F.cfgPtm_version, F.cfgPtm_next]⟩,
  ⟨0x0, 1, [F.cfgPtmCtl_enable, F.cfgPtmCtl_root, F.cfgPtmCtl_gran]⟩,
  ⟨0x0, 1, [F.cfgL1ssCap_support, F.cfgL1ssCap_cmRestore, F.cfgL1ssCap_powerOnScale, F.cfgL1ssCap_powerOn]⟩,
  ⟨0x0, 1, [F.cfgL1ssCtl_enable]⟩,
  ⟨0x0, 1, [F.cfgLtr_snoop, F.cfgLtr_noSnoop]⟩,
  ⟨0x0, 1, [F.cfgRebarCap_sizes]⟩,
  ⟨0x0, 1, [F.cfgRebarCtl_barIdx, F.cfgRebarCtl_count, F.cfgRebarCtl_size]⟩,
  ⟨0x0, 1, [F.cfgVfRebarCtl_barIdx, F.cfgVfRebarCtl_count, F.cfgVfRebarCtl_size]⟩,
  ⟨0x0, 1, [F.cfgSriovCtl_vfEnable, F.cfgSriovCtl_vfMse, F.cfgSriovCtl_ariEn]⟩,
  ⟨0x0, 1, [F.cfgSriovVfs_initial, F.cfgSriovVfs_total]⟩]

/-- Registers of layout `cfg`, part 3. -/
def regRows_cfg3 : List RegRow := [
  ⟨0x0, 1, [F.cfgSriovNum_numVfs]⟩,
  ⟨0x0, 1, [F.cfgSriovOff_offset, F.cfgSriovOff_stride]⟩,
  ⟨0x0, 1, [F.cfgSriovDev_vfDevice]⟩,
  ⟨0x0, 1, [F.cfgSriovPs_supported]⟩,
  ⟨0x0, 1, [F.cfgSysPage_size]⟩,
  ⟨0x4, 6, [F.cfgVfBar_addr]⟩,
  ⟨0x0, 1, [F.cfgSerialCap_id, F.cfgSerialCap_version, F.cfgSerialCap_next]⟩,
  ⟨0x0, 1, [F.slotHdr_id, F.slotHdr_version, F.slotHdr_next]⟩,
  ⟨0x0, 1, [F.slotVsec_id, F.slotVsec_rev, F.slotVsec_len]⟩,
  ⟨0x0, 1, [F.slotCap_button, F.slotCap_attnInd, F.slotCap_pwrInd, F.slotCap_pwrCtrl]⟩,
  ⟨0x0, 1, [F.slotCtrl_abpEn, F.slotCtrl_presEn, F.slotCtrl_pfEn, F.slotCtrl_attn, F.slotCtrl_pwr, F.slotCtrl_off, F.slotCtrl_vector]⟩,
  ⟨0x0, 1, [F.slotStat_abp, F.slotStat_presChg, F.slotStat_pres, F.slotStat_pwrFault]⟩]

/-- The registers of a block layout among which one at this offset in the block can stand; each part holds the rows below its bound. -/
def regRows : Blk → Nat → List RegRow
  | .gl, x =>
    if x < 0x104 then regRows_gl0
    else if x < 0x410 then regRows_gl1
    else if x < 0x10030 then regRows_gl2
    else if x < 0x1012c then regRows_gl3
    else if x < 0x20014 then regRows_gl4
    else if x < 0x20044 then regRows_gl5
    else if x < 0x30800 then regRows_gl6
    else if x < 0x33114 then regRows_gl7
    else if x < 0x50810 then regRows_gl8
    else if x < 0x68000 then regRows_gl9
    else if x < 0x7000c then regRows_gl10
    else if x < 0x8000c then regRows_gl11
    else if x < 0x90040 then regRows_gl12
    else if x < 0xa0104 then regRows_gl13
    else regRows_gl14
  | .comp, x =>
    if x < 0x700 then regRows_comp0
    else regRows_comp1
  | .bl, x =>
    if x < 0x2010 then regRows_bl0
    else if x < 0x2200 then regRows_bl1
    else if x < 0x2314 then regRows_bl2
    else regRows_bl3
  | .div, _ => regRows_div0
  | .cg, _ => regRows_cg0
  | .pt, x =>
    if x < 0x84 then regRows_pt0
    else if x < 0xfc then regRows_pt1
    else regRows_pt2
  | .ac, _ => regRows_ac0
  | .ctl, _ => regRows_ctl0
  | .md, _ => regRows_md0
  | .dr, _ => regRows_dr0
  | .dk, x =>
    if x < 0x30 then regRows_dk0
    else regRows_dk1
  | .dkq, _ => regRows_dkq0
  | .dkh, _ => regRows_dkh0
  | .sw, _ => regRows_sw0
  | .txw, _ => regRows_txw0
  | .rxw, _ => regRows_rxw0
  | .cfg, x =>
    if x < 0x44 then regRows_cfg0
    else if x < 0x100 then regRows_cfg1
    else if x < 0x310 then regRows_cfg2
    else regRows_cfg3

end Sys2Proof.Machine
end

