-- ==== Sys2Proof/Machine/State.lean ====
section
/-! DEFINITION. The state of the block as plain data: everything the spec gives the OV-8128 module, the queue of waiting commands, and the state after reset. -/

namespace Sys2Proof.Machine

/-- Why a command stops the model with a fault. No command of this block does: every condition of the spec is a fault CODE that the
module logs and goes on from (R551), so this type has one constructor, raised by nothing; safe. -/
inductive Fault where
  /-- Raised by no meaning; safe. -/
  | none
  deriving DecidableEq, Repr

/-- Why the model refuses a command. -/
inductive Refusal where
  /-- The command has no meaning yet; raised by its arm alone; safe. -/
  | notModelled (mnemonic : String)
  deriving DecidableEq, Repr

/-! ### Outward messages -/

/-- What the AER capability reports (R70, R430, R431, R433, R553). -/
inductive AerKind where
  | completionTimeout | unexpectedCompletion | poisonedTlp | internalError | clockLoss
  deriving DecidableEq, Repr

/-- Everything the block sends outward, in order. [DESIGN CHOICE, log entry 8] -/
inductive OutMsg where
  /-- An MSI-X message of a function's vector (R434 to R437). -/
  | msix (fn vec : Nat) (addr : Nat) (data : Nat)
  /-- An error reported through AER. -/
  | aer (fn : Nat) (k : AerKind)
  /-- A latency tolerance message of a function: its requirement in µs, or none (R444). -/
  | ltr (fn : Nat) (us : Option Nat)
  /-- A PME message (R443). -/
  | pme
  /-- A read request for host memory (R428). -/
  | hostRead (fn tag addr len : Nat)
  /-- A write of host memory (R428). -/
  | hostWrite (fn addr : Nat) (data : List Byte)
  /-- Data answering a host read of a BAR or of configuration space. -/
  | readData (fn : Nat) (data : List Byte)
  /-- A completion with Completer Abort (R422, R424). -/
  | completerAbort (fn : Nat)
  /-- A completion with Unsupported Request (D3hot, R441). -/
  | unsupported (fn : Nat)
  /-- A completion with Request Retry Status (R416). -/
  | retryStatus (fn : Nat)
  /-- Bytes of one message on a Skidway port (R485). -/
  | skidway (port : Nat) (vc : Nat) (data : List Byte)
  /-- A Frame control block on a Skidway port: frame number, hop count, master flag (R60, R485). -/
  | frameBlock (port frame hop : Nat) (master : Bool)
  /-- A FRAME_SYNC pulse of 4 µs (R59). -/
  | frameSync
  /-- A PTM request (R445). -/
  | ptmRequest
  /-- An MCTP or PLDM answer on the management bus (R524, R525). -/
  | mctp (data : List Byte)
  /-- RequestFirmwareData of the PLDM update agent: image offset and length of a piece (R600). -/
  | requestFirmware (off len : Nat)
  /-- A reading of a PLDM sensor: its ID, numeric or state, and the value (R525). -/
  | pldmReading (id : Nat) (state : Bool) (value : Nat)
  /-- A PlatformEventMessage for a numeric sensor: 0 normal, 1 warning, 2 critical, 3 fatal (R525). -/
  | platformEvent (id level : Nat)
  /-- A non-maskable event to the steward (R70). -/
  | stewardEvent
  /-- A wake message to a Skidway neighbour (R443). -/
  | skidwayWake (port : Nat)
  deriving DecidableEq, Repr

/-! ### Timeline and clocks (02) -/

/-- The timeline counter and what its source rules remember (R38 to R62). -/
structure Timeline where
  /-- The timeline word (R10). -/
  now : Nat
  /-- Fraction of a subline, 32 bits (R39). -/
  frac : Nat
  /-- Raster and rate in effect (R38). -/
  lines : Nat
  num : Nat
  den : Nat
  /-- Sublines of phase error still to be absorbed; positive when the counter is behind (R51, R56). -/
  slew : Int
  /-- Trim of the increment by the frequency loop, in units of 2^-32 subline (R51). -/
  trim : Int
  /-- Whether the current source has been acquired once since it was selected or lost (R52). -/
  acquired : Bool
  /-- Edges or dialogs inside the window since the acquisition, while lock = 1 (R52, R56). -/
  inWin : Nat
  /-- Frames since the last edge or dialog inside the window (R53). -/
  framesSinceEdge : Nat
  /-- The latched pending source switch: source and stamp (R49). -/
  pendSrc : Nat
  pendAt : Nat
  /-- Sublines that the counter has run since the last frame pulse, steps apart, and how many pulses in a row were well spaced (readiness of source 1). -/
  sincePulse : Option Nat
  goodPulses : Nat
  /-- The PTM mapping in effect (R57). -/
  ptmOrigin : Nat
  ptmFrame : Nat
  /-- Lowest hop count and frame number received by Frame block in this frame (R60). -/
  fsHop : Option Nat
  fsFrame : Nat
  /-- This module's own Frame blocks of this frame have been sent (R493). -/
  fsSent : Bool
  /-- Whether this module drives FRAME_SYNC as master (R58, R62). -/
  drivesFs : Bool
  /-- Frames since the last FRAME_SYNC edge of another module (R62). -/
  fsSilent : Nat
  /-- Alarm stamps in effect are the registers; the held low words are here (R64). -/
  alarmHeld : Tab Nat
  deriving DecidableEq, Repr

/-- Latched clock switch and the state of the fallback (R68 to R73). -/
structure Clocks where
  /-- The selections that the pending switch latched (CK_SRC_NEXT word). -/
  pendSel : Nat
  pendAt : Nat
  /-- The internal ring oscillator failed and has not passed the monitor again (R73). -/
  ringDown : Bool
  /-- Selection, divider and phase of CLKOUT as its output runs now, the phase in 1/200,000 of a source cycle since the last rising edge (R74). -/
  outSel : Nat
  outDiv : Nat
  outPhase : Nat
  /-- Ticks of the monitor's 10 µs window that have passed (R76). -/
  window : Nat
  deriving DecidableEq, Repr

/-! ### Endpoint (14) -/

/-- What a host read is for (R432). -/
inductive HostUse where
  /-- A descriptor of a submission queue. -/
  | descriptor (sq : Nat)
  /-- Piece of a command's host buffer: command slot, buffer number, offset in the buffer. -/
  | cmdData (slot buf off : Nat)
  /-- A manifest or piece of a firmware update (R595, R596): offset in the transfer. -/
  | update (off : Nat)
  /-- Nothing any more: the attempt or the queue that asked is gone (R431, R563). -/
  | discard
  deriving DecidableEq, Repr

/-- A read of host memory that waits for a tag (R428). -/
structure HostReq where
  fn : Nat
  addr : Nat
  len : Nat
  use : HostUse
  deriving DecidableEq, Repr

/-- A tag outstanding or quarantined (R428, R430). -/
structure Tag where
  len : Nat
  use : HostUse
  /-- The request was reported as timed out or abandoned, and the tag waits out its quarantine. -/
  quarantined : Bool
  /-- Stamp of the request, or of the report that put the tag into quarantine (R429, R430). -/
  at' : Nat
  /-- ns that the quarantine lasts. -/
  hold : Nat
  deriving DecidableEq, Repr

/-- One MSI-X table entry with its pending bit (R434, R436). -/
structure MsixEnt where
  addr : Nat
  data : Nat
  masked : Bool
  pend : Bool
  deriving DecidableEq, Repr

/-- The PCIe endpoint beside its registers. -/
structure Endpoint where
  /-- Tags by function × 1,024 + tag. -/
  tags : Tab Tag
  /-- Requests waiting for a tag, in order. -/
  waitq : List HostReq
  /-- MSI-X entries by function × 2,048 + vector; an unlisted entry is masked and holds 0. -/
  msix : Tab MsixEnt
  /-- Host writes and messages held while Bus Master Enable is 0 or in D3hot, in order (R604). -/
  held : List (Nat × OutMsg)
  /-- The link is up. -/
  linkUp : Bool
  /-- Configuration requests are answered (R416). -/
  cfgReady : Bool
  /-- Functions with a function-level reset in progress. -/
  flr : List Nat
  /-- Latency tolerance last reported by each function, in µs (R444). -/
  ltr : Tab Nat
  /-- WAKE# is asserted (R443). -/
  wakePin : Bool
  /-- PERST# is asserted (R416, R529). -/
  perst : Bool
  deriving DecidableEq, Repr

/-- A buffer of a deck. -/
structure BufRef where
  deck : Nat
  idx : Nat
  deriving DecidableEq, Repr

/-! ### Queue objects (15) -/

/-- Where a queue object's entries and pointer block lie: data address or host address, and space 0 or 3. -/
structure QPlace where
  base : Nat
  baseHost : Bool
  ptr : Nat
  ptrHost : Bool
  deriving DecidableEq, Repr

/-- A submission queue (R451 to R455); number 16,384 + p is the control SQ of partition p. -/
structure Sq where
  part : Nat
  place : QPlace
  log2 : Nat
  /-- Next descriptor to fetch, and the driver's tail; free-running 32-bit indices (R452). -/
  head : Nat
  tail : Nat
  cls : Nat
  drop : Bool
  cq : Nat
  stopped : Bool
  /-- Slot of the control command that deletes this queue, while its commands run to their end (R460). -/
  deleting : Option Nat
  /-- A stream template feeds this queue (R425). -/
  templated : Bool
  /-- A descriptor fetch is outstanding. -/
  fetching : Bool
  /-- The plan, not a control operation, made this queue (R438). -/
  plan : Bool
  /-- Commands of this queue that were refused, dropped or ended while the command after them was not yet fetched (R468). -/
  bad : List Nat
  /-- Published outputs of the last committed command: its seq, argument, data address and buffer (R465, kind 7). -/
  outs : List (Nat × Nat × Nat × Option BufRef)
  fetched : Nat
  deriving DecidableEq, Repr

/-- A completion queue; number 4,096 + p is the control CQ of partition p. -/
structure Cq where
  part : Nat
  place : QPlace
  log2 : Nat
  prod : Nat
  cons : Nat
  vector : Nat
  irqEn : Bool
  /-- Entries reserved for fetched commands (R469). -/
  reserved : Nat
  plan : Bool
  written : Nat
  deriving DecidableEq, Repr

/-- A metadata ring. -/
structure Ring where
  part : Nat
  place : QPlace
  log2 : Nat
  prod : Nat
  cons : Nat
  discard : Bool
  faultEn : Bool
  loadEn : Bool
  vector : Nat
  irqEn : Bool
  interval : Nat
  plan : Bool
  dropped : Nat
  deriving DecidableEq, Repr

/-! ### Contexts (10, 11, 15) -/

/-- A picture of a decode context (R322, R327, R330, R335): an entry of its decoded picture buffer, published or still to be output. -/
structure Pic where
  /-- Output picture number, once it is published. -/
  id : Nat
  frame : BufRef
  /-- Its change map's buffer, with map_en = 1. -/
  map : Option BufRef
  stamp : Nat
  /-- Still a reference. -/
  ref : Bool
  /-- Published. -/
  shown : Bool
  w : Nat
  h : Nat
  d10 : Bool
  chroma : Nat
  /-- Key or IRAP picture; blocks coded intra and blocks concealed, by number in raster order (R247, R248). -/
  key : Bool
  intra : List Nat
  hidden : List Nat
  /-- A field of it was decoded without its partner (R322). -/
  unpaired : Bool
  /-- Its samples without film grain, plane by plane, where grain was applied to the frame (R323). -/
  clean : List Nat
  deriving DecidableEq, Repr

/-- A track of a tracker session (R363 to R365). -/
structure Track where
  id : Nat
  ctx : Nat
  x0 : Nat
  y0 : Nat
  x1 : Nat
  y1 : Nat
  vx : Int
  vy : Int
  cls : Nat
  frame : Nat
  miss : Nat
  deriving DecidableEq, Repr

/-- A context of the context store (R461). -/
structure Ctx where
  kind : Nat
  part : Nat
  /-- Its parameter record (table Context kinds). -/
  params : List Byte
  /-- The plan made it (R438). -/
  plan : Bool
  /-- A track context belongs to this session (R365). -/
  parent : Option Nat
  /-- Slot of the control command that closes it, while its commands run to their end (R326). -/
  closing : Option Nat
  /-- Decode: decoded pictures, next pic_id, highest published pic_id (R327). -/
  dpb : List Pic
  nextPic : Nat
  lastPub : Option Nat
  /-- Tokenizer: carry bytes, last byte consumed, tokens emitted in the session (R361, R478). -/
  carry : List Byte
  lastByte : Option Byte
  tokens : Nat
  /-- Tracker: tracks, next track ID, frame of the last committed command (R363). -/
  tracks : List Track
  nextTrack : Nat
  lastFrame : Option Nat
  /-- Encode: what its history makes of rate control (opaque), reference pictures newest first, pictures left in cached-window mode, whether the
  stored motion field is there, slice groups of the current picture committed and their reconstruction buffer (R341 to R345). -/
  encHist : Nat
  encRefs : List BufRef
  winLeft : Nat
  motion : Bool
  group : Nat
  recon : Option BufRef
  /-- Encode, ULTRA: position in the refresh cycle; at least three quarters of the previous picture's CTUs were intra (R343, R345). -/
  cycle : Nat
  cutSeen : Bool
  /-- A slice group of the current picture carried scene_cut (R343). -/
  sceneCut : Bool
  /-- Decode: what the access units so far make of it (opaque). -/
  decHist : Nat
  /-- thresh, period or cache key of the delta record were written since its last delta command was dispatched (R255). -/
  rewritten : Bool
  deriving DecidableEq, Repr

/-! ### Compartments (01, 03 to 06) -/

/-- One loop stack entry (R210). -/
structure LoopEnt where
  start : Nat
  n : Nat
  iter : Nat
  pa1 : Dword
  pa2 : Dword
  deriving DecidableEq, Repr

/-- The unit an instruction executes on (R204). -/
inductive ExUnit where
  | scalar | arrays | mvp | vu | dma
  deriving DecidableEq, Repr

/-- A scale binding (R216): format, space and address of the scale tensor, blocks per row, first flat block index. -/
structure ScaleBind where
  fp16 : Bool
  space : Nat
  base : Nat
  kb : Nat
  blk : Nat
  deriving DecidableEq, Repr

/-- A unit instruction with the registers it issued with (R197, R204). -/
structure Held where
  word : Nat
  ireg : List Word
  areg : List Dword
  sreg : List Word
  scales : List (Option ScaleBind)
  pc : Nat
  deriving DecidableEq, Repr

/-- An instruction issued and not complete (R204, R205). [DEDUCED, log entry 77] -/
structure InFlight where
  unit : ExUnit
  tok : Option Nat
  /-- Its kind for SIG release: a FETCH or a store PUT. -/
  dmaMove : Bool
  /-- It waits in its unit's queue for an accumulator bank and has not acted yet (R86, R124). -/
  held : Option Held
  /-- Landing segments that it reads or writes, with their grove (R181). -/
  segs : List (Nat × Nat)
  deriving DecidableEq, Repr

/-- The tickets a context draws: a fixed share of a DIV, or the Landing counter (R229). [DEDUCED, log entry 79] -/
structure TicketSrc where
  fixed : Bool
  start : Nat
  step : Nat
  count : Nat
  taken : Nat
  total : Nat
  /-- slice × 8,192 + ctr of the DIV. -/
  ctr : Nat
  deriving DecidableEq, Repr

/-- An issue context of a bole while it runs a share (R201, R203, R205, R223). -/
structure IssueCtx where
  slot : Nat
  pc : Nat
  ireg : List Word
  areg : List Dword
  sreg : List Word
  loops : List LoopEnt
  flight : List InFlight
  sems : List Nat
  scales : List (Option ScaleBind)
  tickets : Option TicketSrc
  /-- Instructions fetched into the buffer (R207). -/
  fetchedTo : Nat
  /-- Waiting on WAIT, tokens or instruction fetch. -/
  blocked : Bool
  /-- COMMIT issued and reported. -/
  reported : Bool
  /-- Stamp at which the share started or was restored, and ns it had run before that (R208, R286). -/
  startAt : Nat
  ranNs : Nat
  /-- ns of gated ARITH cycles that the module had counted then, and those that fell into the share's earlier time (R520). -/
  gatedAt : Nat
  ranGated : Nat
  /-- A group-level save has stopped its issue, and all it has run stands in `ranNs` (R208, R285). -/
  stopped : Bool
  /-- It is counted among the shares run with refresh forced (R266). -/
  refreshed : Bool
  deriving DecidableEq, Repr

/-- A window (R174, R192). -/
structure Win where
  base : Nat
  limit : Nat
  src : Nat
  modMask : Nat
  modPart : Nat
  expiry : Nat
  wlim : Nat
  wcnt : Nat
  bytes : Nat
  /-- 0 closed, 1 open, 2 complete, 3 expired, 4 revoked. -/
  state : Nat
  rejects : Nat
  part : Nat
  slot : Nat
  /-- Place in fetch order of the command that opened it, which tells it from a later command of the same slot (R222). -/
  opener : Nat
  /-- Transfer IDs of other modules that it has accepted, while it is open (R497). -/
  ids : List Nat
  deriving DecidableEq, Repr

/-- The state of one accumulator bank of one array, or of one quarter of it (R86, R88, R241); a diagonal tile's shape is 7 plus its block width code. -/
structure AccBank where
  slot : Nat
  ctx : Nat
  shape : Nat
  readable : Bool
  /-- The region of a quarter that failed its check, which is marked invalid (R107). -/
  invalid : Bool
  deriving DecidableEq, Repr

/-- What an array has formed beside its sums to check them: the understory row's pair c_j, g_j of each column (R91, R92; g_j is 0 for integers), or the
residue r and the wrap count w of each PE (R101). -/
inductive ArrCheck where
  | sums (cols : List (Word × Word))
  | residues (pes : List (Nat × Nat))
  deriving DecidableEq, Repr

/-- A tile whose drain and checks are not complete (R82, R88, R92, R101, R240): its bank, whether it accumulates, its valid extents, the K elements of the
tile, the sums of its arrays' PEs in word order, and what they are checked by. -/
structure TileJob where
  slot : Nat
  ctx : Nat
  bank : Nat
  shape : Nat
  /-- Block width code of a diagonal tile. -/
  bw : Nat
  acc : Bool
  mv : Nat
  nv : Nat
  k : Nat
  flt : Bool
  sums : List (List Word)
  checks : List ArrCheck
  deriving DecidableEq, Repr

/-- Diagnosis and fault history of one matrix array (R94 to R102). -/
structure Arr where
  fenced : Bool
  /-- Transient check failures since the last counted period (R94). -/
  transients : Nat
  lastFail : Nat
  deriving DecidableEq, Repr

/-- A statistics slot (R156 to R158). -/
structure StatSlot where
  ctx : Nat
  slot : Nat
  tid : Nat
  fmt : Nat
  total : Nat
  hi : Nat
  lo : Nat
  nan : Nat
  sat : Bool
  deriving DecidableEq, Repr

/-- The change plane a bole holds (R251): the command and map it was loaded for, its size, whether refresh is forced, and the changed blocks by
row × 256 + column. -/
structure Plane where
  slot : Nat
  ctx : Nat
  addr : Nat
  wb : Nat
  hb : Nat
  forced : Bool
  changed : List Nat
  deriving DecidableEq, Repr

/-- A bole, by physical index (R20). -/
structure Bole where
  /-- The four issue contexts by number (R203). -/
  ctxs : Tab IssueCtx
  /-- Contexts held for the re-run of a killed command (R560): context and slot. -/
  held : List (Nat × Nat)
  /-- Context that issued last (R203). -/
  lastCtx : Nat
  /-- Scratchpad, 768 KiB (R162); an unlisted byte reads 0. -/
  spad : Mem
  /-- Accumulator words by array × 2,048 + bank × 1,024 + word; an unlisted word reads 0 (R86). -/
  acc : Tab Word
  /-- Banks in use, by array × 8 + bank × 4 + quarter (quarter 0 but for T6). -/
  accBanks : Tab AccBank
  /-- Reduction accumulator: lane and value (R119). -/
  redAcc : Tab Word
  wins : Tab Win
  /-- Scratchpad and accumulator banks written since its shares started (R284). -/
  spadLive : List Nat
  accLive : List Nat
  tiles : List TileJob
  arrays : Tab Arr
  /-- Statistics slots (R156). -/
  stats : Tab StatSlot
  plane : Option Plane
  /-- Signals that wait for a share to start: slot, semaphore, increment (R224). -/
  pendSig : List (Nat × Nat × Nat)
  /-- Repeat flags of the MVP and the VU: stamp of the last failure (R116, R122). -/
  mvpLast : Option Nat
  vuLast : Option Nat
  /-- Scrub in progress: 0 none, 1 stand-in, 2 hand-over, 3 return to service. -/
  scrubFor : Nat
  /-- Diagnosis in progress: the array, and whether the driver started it. -/
  diag : Option (Nat × Bool)
  /-- Banks that finished gate entry are in BL_SPAD_GATE_STAT; banks still ungating are here (R183). -/
  ungating : List Nat
  /-- A service request drains this bole (R567). -/
  draining : Bool
  /-- The self-test of a return to service runs (R568). -/
  testing : Bool
  /-- Words that failed uncorrected, with the place in fetch order of the command that read them (R191). -/
  ueWords : Tab Nat
  /-- The logical slot that this understory bole is being prepared for (R23). -/
  standFor : Option Nat
  /-- Stamp since which at least one share has run on it without a break (R302). -/
  busyAt : Option Nat
  deriving DecidableEq, Repr

/-- A grove's Landing slice (R184 to R191). -/
structure Landing where
  /-- 8 MiB; an unlisted byte reads 0. -/
  mem : Mem
  wins : Tab Win
  /-- Tally counters (R188): value, and the owner tag, a partition and the place in fetch order of the command that last initialised it. -/
  tally : Tab (Nat × Option (Nat × Nat))
  /-- Segments being scrubbed, and tally groups as 16 + n (R190). -/
  scrubbing : List Nat
  /-- Segments that return to service after gating (R183). -/
  ungating : List Nat
  /-- Words that failed uncorrected, with the place in fetch order of the command that read them (R191). -/
  ueWords : Tab Nat
  deriving DecidableEq, Repr

/-- A write on its way to a window (R177): who sends it, where it goes, and the boom staging line that holds it. [DESIGN CHOICE, log entry 78] -/
structure RemoteW where
  /-- Logical bole that sends it; 64 + m for module m. -/
  src : Nat
  part : Nat
  /-- Command that sends it (its slot, physical bole and context), where it is of this module. -/
  slot : Nat
  p : Nat
  ctx : Nat
  /-- Target: logical bole 0 to 63, or 64 + grove for a Landing slice. -/
  dst : Nat
  win : Nat
  off : Nat
  data : List Byte
  stage : Option (Nat × Nat)
  /-- Of another module's write: the stamp of its arrival at the port, and its transfer ID (R177, R497). -/
  stamp : Nat
  tag : Nat
  deriving DecidableEq, Repr

/-- A 1 KiB line of a boom fetch from DRAM that is still to fill a staging line (R189). [DESIGN CHOICE, log entry 78] -/
structure BoomFill where
  slot : Nat
  p : Nat
  ctx : Nat
  src : Nat
  dsts : List Nat
  win : Nat
  off : Nat
  data : List Byte
  deriving DecidableEq, Repr

/-- A registered cut list (R195). -/
structure CutList where
  part : Nat
  level : Nat
  usesRandom : Bool
  budget : Nat
  zeroMask : Nat
  outMask : Nat
  maxS : List Nat
  aConst : List Nat
  /-- check field of the header (R194). -/
  check : Nat
  /-- The instructions, 128 bits each. -/
  code : List Nat
  /-- The plan, not a control operation, registered it. -/
  plan : Bool
  deriving DecidableEq, Repr

/-- A tokenizer dictionary (R358, R359). -/
structure Dict where
  /-- Owner; none for a dictionary of the plan (R462). -/
  part : Option Nat
  image : List Byte
  deriving DecidableEq, Repr

/-! ### Commands (15, 08) -/

/-- A command descriptor (R463). -/
structure Desc where
  cls : Nat
  after : Bool
  noIrq : Bool
  seedIdx : Nat
  op : Nat
  part : Nat
  target : Nat
  tag : Nat
  ctx : Nat
  ctxValid : Bool
  epoch : Nat
  step : Nat
  notBefore : Nat
  deadline : Nat
  shapes : List Nat
  args : List Nat
  deriving DecidableEq, Repr

/-- Where a command is between fetch and the end of its slot. -/
inductive Phase where
  /-- Fetched; its not-before stamp or the command before it holds it back. -/
  | waiting
  /-- Eligible for dispatch (R45, R468). -/
  | eligible
  /-- Dispatched to its compartment's port or its engine. -/
  | running
  /-- Killed and waiting for its re-run (R273 step 1). -/
  | killed
  /-- A group-level save is being written (R285). -/
  | saving
  /-- Suspended with its state saved (R285). -/
  | suspended
  deriving DecidableEq, Repr

/-- One reduction entry held until commit (R220). -/
structure RedEntry where
  arg : Nat
  ticket : Nat
  red : Nat
  dst : Nat
  data : List Byte
  /-- Its buffers in the staging deck (R406). -/
  bufs : List BufRef
  deriving DecidableEq, Repr

/-- A host buffer that a command reads: what it asked for and what has arrived (R428, R432). -/
structure HostBuf where
  addr : Nat
  len : Nat
  got : Mem
  /-- Bytes still outstanding. -/
  missing : Nat
  /-- Code of a failed read, 0 while none failed. -/
  code : Nat
  deriving DecidableEq, Repr

/-- Records that a command placed beyond a ring's producer index (R219, R471). -/
structure RingOut where
  ring : Nat
  start : Nat
  rmax : Nat
  /-- False when policy discard found too few free slots. -/
  stored : Bool
  /-- Records placed. -/
  count : Nat
  deriving DecidableEq, Repr

/-- A data fault that waits for the checks of its command's tiles (R159): code, bole, address, detail1. -/
structure HeldFault where
  code : Nat
  bole : Nat
  addr : Nat
  d1 : Nat
  deriving DecidableEq, Repr

/-- A command in its slot (R279). -/
structure Cmd where
  sq : Nat
  seq : Nat
  desc : Desc
  phase : Phase
  /-- Position in fetch order. -/
  order : Nat
  /-- Position in the order of first dispatch; 0 before it (R273). -/
  first : Nat
  /-- Attempts so far, and attempts killed by contained faults (R552). -/
  attempts : Nat
  kills : Nat
  /-- Epoch and seed bound at dispatch (R292, R312). -/
  epoch : Nat
  seed : Nat
  /-- Stamps of the dispatch and of the last kill by a contained fault; no stamp after any other kill. -/
  startAt : Nat
  killedAt : Nat
  /-- Logical boles that hold a share, those that have not started it, and those that have reported (R228, R230). -/
  shares : List Nat
  unstarted : List Nat
  reported : List Nat
  /-- Next instruction of each controller's prologue, and the controllers whose DIV has run (R228). -/
  ctlPc : Tab Nat
  divided : List Nat
  /-- Place in its compartment's port: the lowest starts first (R273). -/
  port : Int
  /-- Ticket set given to each controller or bole: start, step, count, and whether a DIV of mode 1 or 2 fixed it. -/
  sets : Tab (Nat × Nat × Nat × Bool)
  /-- Ranks that DIVs write into index registers, by logical bole: register and rank. -/
  ranks : Tab (List (Nat × Nat))
  /-- By logical bole: counter (slice × 8,192 + ctr) and ticket count named by the last DIV. -/
  divCtr : Tab (Nat × Nat)
  /-- Values of A0 to A7 at dispatch (R465). -/
  aregs : List Nat
  /-- Buffers of fresh outputs by argument (R219). -/
  fresh : Tab BufRef
  /-- Holds taken on published inputs (R400). -/
  holds : List BufRef
  /-- Highest byte written into each output, as an extent (R230). -/
  extents : Tab Nat
  rings : List RingOut
  reds : List RedEntry
  /-- Ranges that store PUTs have written: data address and bytes (R494). -/
  stored : List (Nat × Nat)
  /-- Send phase: 0 not begun, 1 waiting for DONEs, 2 complete (R496). -/
  sent : Nat
  /-- Numbers of the transfers whose DONE reported accepted; kept over re-runs (R497). -/
  accepted : List Nat
  /-- Tickets taken in this attempt, and tickets this slot has published (R231). -/
  drawn : List Nat
  published : List Nat
  /-- First informational code its own work raised, and whether records were discarded or a deadline missed (R475). -/
  code : Nat
  discarded : Bool
  /-- Completion result (R476). -/
  result : Nat
  /-- Engine work is finished and the commit may run. -/
  ready : Bool
  fault : Option HeldFault
  /-- Cycles counted, largest over the members (R208, R316). -/
  cycles : Nat
  /-- Physical boles used, as a mask (R315). -/
  usedBoles : Nat
  /-- Host buffers by number. -/
  hostBufs : Tab HostBuf
  /-- Charges of the running attempt: ns of the engine class, DRAM bytes read and written, PCIe bytes in, Skidway bytes sent, and activity counts by
  event (R297, R299). -/
  ns : Nat
  dramRd : Nat
  dramWr : Nat
  pcieIn : Nat
  skySent : Nat
  acts : Tab Nat
  /-- Media or deck waits: the deck it waits for. -/
  waitDeck : Option Nat
  /-- pic_id of the command's pictures published so far, and how many (R476). -/
  pics : List Nat
  /-- Completion status decided by a rejected or ended picture: status and code. -/
  verdict : Option (Nat × Nat)
  /-- The re-run draws on the recovery pool (R405). -/
  rerun : Bool
  /-- Informational codes reported once per command (R93, R158, R231, R251, R264, R471). -/
  said : List Nat
  /-- Audit flags (R316): a refresh was forced, suspended at least once, the group was degraded. -/
  forced : Bool
  wasSuspended : Bool
  degraded : Bool
  /-- The delta record of its stream context at its first dispatch, by which refresh is forced, over re-runs too (R250, R254). -/
  delta : List Byte
  /-- Contexts as the commit will leave them (R563: contexts change only at commit); none closes the context. -/
  newCtx : List (Nat × Option Ctx)
  /-- Issue contexts saved by a group-level save: logical bole, context number, context (R233, R288). -/
  saved : List (Nat × Nat × IssueCtx)
  /-- Owners of the accumulator banks that the command held at the save: logical bole, key, bank (R86, R285). -/
  savedAcc : List (Nat × Nat × AccBank)
  /-- Records of published pictures that form template instances at commit (R544): context and pic_id. -/
  instances : List (Nat × Nat)
  /-- A commit of it has run, and only the re-run that a kill then asked for holds the slot (R231). -/
  committed : Bool
  /-- pic_id of the change map it loaded (R254). -/
  mapPic : Option Nat
  /-- A decode command whose access unit is queued for its context (R327). -/
  queued : Bool
  /-- Frame and map buffers of its picture, or reconstruction and output of an encode; kept over a kill (R331, R332). -/
  frameBuf : Option BufRef
  mapBuf : Option BufRef
  /-- Segments of its picture that are checkpointed, or samples of its batch (R332, R357), kept over a kill. -/
  segs : Nat
  /-- Engines on which its picture raised FRAME_BOUNDS (R347). -/
  boundsOn : List Nat
  /-- The source frame descriptor of an encode command, and the frame number of a track command's picture, from the first dispatch on. -/
  src : List Byte
  deriving DecidableEq, Repr

/-! ### Memory (12, 13) -/

/-- Page predictor state of a bank (R380). -/
structure PageBank where
  c : Nat
  closeMode : Bool
  openRow : Option Nat
  lastRow : Nat
  deriving DecidableEq, Repr

/-- A DRAM subchannel beside its registers (12). -/
structure SubCh where
  /-- Groups whose check burst the check cache holds, most recent first (R373). -/
  cache : List Nat
  banks : Tab PageBank
  /-- Poison list, physical bursts (R391). -/
  poison : List Nat
  /-- Corrected errors of the scrub period by row × 2 + device (R392). -/
  rowErr : Tab Nat
  /-- Rows repaired: rank, bank, row, device packed as row × 2 + device. -/
  repaired : List Nat
  /-- Rows waiting for repair. -/
  repairDue : List Nat
  /-- Temperature at the last training; a retraining is due, since this stamp, and at once (R371, R387); one runs (R386). -/
  trainTemp : Nat
  due : Bool
  dueAt : Nat
  urgent : Bool
  retraining : Bool
  /-- Its retraining is the spare activation of a contained fault (R557, R562). -/
  recovers : Bool
  /-- Stamp of the last request for each rank (R388). -/
  lastReq : Tab Nat
  deriving DecidableEq, Repr

/-- The DRAM and its controller. -/
structure Dram where
  /-- Data bytes by data address; an unlisted byte has not been written under the keys now in use. -/
  mem : Mem
  /-- Which keys are in use: counts start-ups (R377). -/
  gen : Nat
  sub : Tab SubCh
  /-- Burst of the running scrub pass: subchannel and position (R390). -/
  scrubPos : Nat
  /-- The subchannels are in self-refresh at a clock loss or for a module state (R388). -/
  srAll : Bool
  /-- The row that a service request repairs: subchannel and rank row (R569). -/
  svcRow : Option (Nat × Nat)
  /-- Bursts at which a re-run may not raise an address check again: slot and burst (R371). -/
  addrChk : List (Nat × Nat)
  /-- Stamp since which patrol scrub waits for a rank to wake (R389). -/
  scrubWait : Option Nat
  deriving DecidableEq, Repr

/-- Who holds a buffer (R400). -/
inductive Holder where
  | cmd (slot : Nat)
  | ctx (id : Nat)
  | host
  deriving DecidableEq, Repr

/-- Owner table entry of an allocated buffer (R399). -/
structure Owner where
  part : Nat
  kind : Nat
  id : Nat
  holders : List Holder
  deriving DecidableEq, Repr

/-- An allocation that waits (R404). -/
structure Waiter where
  slot : Nat
  live : Bool
  deadline : Nat
  recovery : Bool
  order : Nat
  deriving DecidableEq, Repr

/-- A deck (13). [DESIGN CHOICE, log entry 12] -/
structure Deck where
  /-- Free ring as runs of consecutive indices, oldest first (R395, R398). -/
  ring : List (Nat × Nat)
  /-- Cache of free indices, most recent first (R398). -/
  cache : List Nat
  owners : Tab Owner
  /-- Reserve buffers still free (R405). -/
  resvFree : Nat
  waiters : List Waiter
  /-- Partitions whose quota crossing has been logged (R402). -/
  overQuota : List Nat
  /-- Partition that last owned each buffer (R376). -/
  last : Tab Nat
  deriving DecidableEq, Repr

/-! ### Media engines (10) -/

/-- The picture an engine works on. -/
structure Job where
  slot : Nat
  ctx : Nat
  live : Bool
  /-- Its budget or a block's limit has run out (R333). -/
  expired : Bool
  /-- A re-run of it left its frame on a second engine (R347). -/
  damaged : Bool
  /-- What its headers say. -/
  head : PicHead
  startAt : Nat
  deriving DecidableEq, Repr

/-- A decode or encode engine beside its registers. -/
structure Engine where
  /-- 0 offline, 1 online, 4 reloading, 5 retired; busy and draining follow from the job and the requests. -/
  mode : Nat
  job : Option Job
  /-- A picture set aside at a checkpoint for a re-run (R557, R561). -/
  aside : Option Job
  /-- Pictures left in which another fault retires it (R347). -/
  watch : Nat
  /-- Epoch it runs under (R340). -/
  epoch : Nat
  /-- A reload has been asked for and waits for the picture boundary (R346). -/
  reloadDue : Bool
  /-- SHA-384 of the microcode image that it runs, as measurement 3 reports it (R583, R602). -/
  ucode : List Byte
  deriving DecidableEq, Repr

/-! ### Skidway (16) -/

/-- One outstanding Skidway message kept for replay (R486). -/
structure SkyKept where
  seq : Nat
  vc : Nat
  data : List Byte
  deriving DecidableEq, Repr

/-- A Skidway port (16). -/
structure Port where
  /-- Number of the next message sent, and of the next expected (R486). -/
  txSeq : Nat
  rxSeq : Nat
  /-- Messages sent and not acknowledged, oldest first. -/
  replay : List SkyKept
  /-- Resends of the oldest message so far. -/
  resends : Nat
  /-- The lane has trained, and HELLO decides what the port becomes (R490). -/
  linked : Bool
  /-- Messages waiting for credit or for a place in the replay buffer: channel and message. -/
  waiting : List (Nat × List Byte)
  /-- An acknowledgement is owed (R486). -/
  ackDue : Bool
  /-- Ports that the neighbour's own exchange reports up, as a mask (R491). -/
  peerUps : Nat
  deriving DecidableEq, Repr

/-- A transfer of a send phase that has no DONE yet (R496 to R498). -/
structure Xfer where
  slot : Nat
  idx : Nat
  /-- Send window it came through, destination module, target number as a window's (64 + g for a grove), first port. -/
  win : Nat
  dst : Nat
  target : Nat
  port : Nat
  msg : List Byte
  sentAt : Nat
  deriving DecidableEq, Repr

/-- Skidway beside its registers. -/
structure Sky where
  ports : Tab Port
  /-- Transfers without a DONE by slot × 1,024 + index. -/
  xfers : Tab Xfer
  /-- Transfer IDs that each open DRAM window has accepted (R497). -/
  rxIds : Tab (List Nat)
  deriving DecidableEq, Repr

/-! ### Power (17) -/

/-- The power controller beside its registers. -/
structure Power where
  /-- Rails that are on, in order of their start. -/
  railsOn : List Nat
  /-- 3V3_AUX is present (R509). -/
  auxOn : Bool
  /-- The hot-swap switch is closed and the input reads as qualified (R510). -/
  switchOn : Bool
  /-- The module has been started or wants to be: off = 1 and PLDM off clear it (R447, R526). -/
  wanted : Bool
  /-- The switch opened for overvoltage and recovers by itself (R510). -/
  overV : Bool
  /-- Excursion timer in tenths of a µs (R519). -/
  excursion : Nat
  /-- Throttle levels of the power and the thermal controller (R519, R520, R521). -/
  pwrLevel : Nat
  thrLevel : Nat
  /-- µs since the power controller last stepped up and down, µs of throttling not yet counted in PW_THR_MS, µs of good input (R514, R519, R523). -/
  upUs : Nat
  downUs : Nat
  thrUs : Nat
  stableUs : Nat
  /-- ms since the thermal level last fell (R521). -/
  coolMs : Nat
  /-- Stamp at which the pause began (R512). -/
  pauseAt : Nat
  paused : Bool
  /-- ns of ARITH cycles gated since power-on: by the throttle level and in pauses (R512, R520). -/
  gatedNs : Nat
  /-- A power-fail stop left the module's outputs released (R513). -/
  powerFail : Bool
  /-- The flash holds the marker of a power-fail stop, at this stamp, that no record completes (R556). -/
  marker : Option Nat
  deriving DecidableEq, Repr

/-! ### Start-up and the management plan (18) -/

/-- Seed table entry (R311): value and valid flag, by partition × 256 + index. -/
structure Seed where
  value : Nat
  valid : Bool
  deriving DecidableEq, Repr

/-- A template of the plan (R543, R544). -/
structure Template where
  ctx : Nat
  sq : Nat
  /-- Preload records that it waits for (R545). -/
  preloads : List Nat
  /-- Prototype descriptor and patch of each stage. -/
  stages : List (List Byte × List Byte)
  deriving DecidableEq, Repr

/-- A preload of the plan (R545, R546, R587): the SHA-384 of its object's header, where it goes, and how it stands: 0 waiting, 1 complete, 2 failed. -/
structure Preload where
  hash : List Byte
  addr : Nat
  len : Nat
  part : Nat
  state : Nat
  deriving DecidableEq, Repr

/-- A stored image with the version and security version that its update named (R575, R577, R594). -/
structure Bank where
  image : List Byte
  ver : Word
  svn : Nat
  deriving DecidableEq, Repr

/-- The keys that certificates of the module name and sign with (R582, R593). -/
inductive CertKey where
  /-- The Graolo root. -/
  | root
  /-- The Graolo manufacturing CA. -/
  | manufacturing
  /-- The device identity key. -/
  | dik
  /-- The alias key of a steward image, by the image's SHA-384. -/
  | imageKey (image : List Byte)
  /-- The content key-agreement key of an owner hash and generation. -/
  | cka (owner : List Byte) (gen : Nat)
  /-- The key of an unlocked start-up, whose certificate is marked debug. -/
  | debug
  deriving DecidableEq, Repr

/-- A certificate by what it certifies: the key it names, the key that signed it, whether it names the module serial, and the measurements that it carries (R582). -/
structure Cert where
  key : CertKey
  signer : CertKey
  namesSerial : Bool
  measured : List Byte
  deriving DecidableEq, Repr

/-- A content object in the flash content area (R585, R587). -/
structure Content where
  hash : List Byte
  bytes : List Byte
  deriving DecidableEq, Repr

/-- The security state of the flash and the steward (20). -/
structure Security where
  /-- Replay-protected region: owner slot and generation, counters, boot record (R590). -/
  owner : Option (List Byte)
  ownerGen : Nat
  fwSvn : Nat
  ucSvn : Nat
  planCtr : Nat
  bankB : Bool
  trial : Bool
  /-- Start-ups on trial in a row that have not reached ready (R578). -/
  trialFails : Nat
  /-- The active microcode bank is B. -/
  ucBankB : Bool
  /-- Steward and microcode banks A and B, plan slots A and B, content area. -/
  stewA : Bank
  stewB : Bank
  ucA : Bank
  ucB : Bank
  slotA : List Byte
  slotB : List Byte
  /-- The migrated copy in use has reached ready and its original slot was freed (R547). -/
  migDone : Bool
  content : List Content
  /-- Debug level of the next start-up and of this one (R592, R593), and the challenge that waits for its response. -/
  unlockNext : Nat
  unlocked : Nat
  challenge : Option (Nat × List Byte)
  /-- Stamp of that challenge (R592). -/
  challengedAt : Nat
  /-- The manifest being collected, with the numbers of the pieces written and their bytes (R595, R596). -/
  manifest : List Byte
  held : List Nat
  pieces : Tab (List Byte)
  /-- The update agent that holds the update came by PLDM (R600). -/
  byPldm : Bool
  /-- An operation that waits for host data: op, piece, what has arrived and how many bytes are missing (R595, R596). -/
  updOp : Nat
  updPiece : Nat
  updBuf : Mem
  updMissing : Nat
  /-- A steward hand-over is due, or its heartbeat is awaited (R601): 0 none, 1 due, 2 switched. -/
  handover : Nat
  /-- Stamp of the switch to the new image (R601). -/
  switchedAt : Nat
  /-- The certificate chain in flash: root, manufacturing CA and DIK (R582). -/
  chain : List Cert
  /-- The certificates that the running steward has issued: alias and CKA, or the one marked debug (R582, R593). -/
  issued : List Cert
  /-- The steward image that runs is of bank B, and was started anew since training (R532, R601). -/
  newImage : Bool
  /-- MCTP endpoint ID (R524). -/
  eid : Nat
  /-- Engines that a microcode activation has still to reload (R602). -/
  reloads : List Nat
  deriving DecidableEq, Repr

/-- The objects that the plan makes, as a function-level reset makes them again (R438, R536). -/
structure PlanBase where
  sqs : Tab Sq
  cqs : Tab Cq
  mrings : Tab Ring
  lists : Tab CutList
  dicts : Tab Dict
  ctxs : Tab Ctx
  seeds : Tab Seed
  deriving DecidableEq, Repr

/-- How far the start-up has come (18). -/
structure Startup where
  /-- Stage in progress, 1 to 7; 0 off, 13 ready, 14 recovery (R576). -/
  stage : Nat
  /-- The self-tests of stage 5 have ended. -/
  tested : Bool
  /-- The plan in use, empty in the safe state (R538, R540). -/
  plan : List Byte
  templates : List Template
  preloads : List Preload
  base : PlanBase
  /-- Stamp at which TEMPLATE_SQ_FULL was last logged (R544). -/
  tplLogged : Option Nat
  /-- Physical boles that failed their self-test, and engines (R533). -/
  failedBoles : List Nat
  failedEngines : List Nat
  /-- Stand-ins kept over a start-up, by grove: the logical slot; groves whose original bole has been brought back (R25, R568). -/
  standKept : Tab Nat
  backOn : List Nat
  /-- Module number read from the MOD_ID straps at stage 3. -/
  modId : Nat
  deriving DecidableEq, Repr

/-! ### The whole -/

/-- Per-queue accounting (R300): bole ns, media ns, DRAM bytes, PCIe bytes, energy, rerun ns. -/
structure QueueAcct where
  bole : Nat
  media : Nat
  dram : Nat
  pcie : Nat
  energy : Nat
  rerun : Nat
  deriving DecidableEq, Repr

/-- A slice of an owned subtree (R274): the class that holds it, the stamp at which it began and whether it has expired. [DEDUCED, log entry 20] -/
structure Slice where
  cls : Nat
  since : Nat
  expired : Bool
  deriving DecidableEq, Repr

/-- What a group-level save wrote for a bole (R288): the address of its slot, the scratchpad banks and the accumulator banks, and the reduction
accumulator. -/
structure SavedBole where
  addr : Nat
  spad : List Nat
  acc : List Nat
  red : Tab Word
  deriving DecidableEq, Repr

/-- The scheduler beside its registers. -/
structure Sched where
  /-- Next fetch order number and next first-dispatch number. -/
  nextOrder : Nat
  nextFirst : Nat
  nextPort : Nat
  /-- Slices by key of the owned subtree. -/
  slices : Tab Slice
  /-- Queue served last, by compartment key × 4 + class. -/
  lastSq : Tab Nat
  /-- Frozen shadow stamp of the pending epoch, the partitions' owner masks under the epoch before the current one, and the units still to switch. -/
  epochAt : Nat
  ownBefore : List Nat
  switching : List Nat
  /-- Compartments in hand-over: flat bole and new owner + 1 or 0. -/
  handover : List (Nat × Nat)
  /-- Groves that change hands whole (R27): old owner + 1 or 0, until their Landing slice is scrubbed, and the boles of such groves that wait only
  for that. -/
  groveMoves : Tab Nat
  handed : List Nat
  /-- What stands in the save areas, by logical bole (R288). -/
  saved : Tab SavedBole
  /-- Kills that PT_PREEMPT.req asked for, by partition: stamp of the request and ns until they are complete (R283, R301). -/
  preemptAt : Tab (Nat × Nat)
  /-- LIVE commands for which other work has been pre-empted and which are not yet dispatched. -/
  preempting : List Nat
  /-- Partitions that a refused queue write has made partition-fatal and whose commands are still to be killed (R605). -/
  pfailDue : List Nat
  /-- Busy ns of the sample assembler in this 10 ms window (R358). -/
  sxNs : Nat
  /-- Pixels of non-LIVE pictures served in the 10 ms window that began at `servedAt`, by partition for decode and 16 + partition for encode (R275). -/
  servedAt : Nat
  served : Tab Nat
  /-- Stamp of the last energy calibration or change of owners since, and bole ns owned in the window so far by partition (R299). -/
  ownedAt : Nat
  ownedNs : Tab Nat
  deriving DecidableEq, Repr

/-- The machine. -/
structure State where
  /-- Commands that wait, first in, first out. -/
  pending : List Instr
  /-- Registers by BAR0 offset (function n's own registers at n × 2^26 + offset, configuration space at 2^31 + 4,096 n + offset); an
  unlisted register holds its reset value. -/
  regs : Tab Word
  tl : Timeline
  ck : Clocks
  ep : Endpoint
  sqs : Tab Sq
  cqs : Tab Cq
  mrings : Tab Ring
  cmds : Tab Cmd
  sched : Sched
  boles : Tab Bole
  lands : Tab Landing
  /-- Window writes in flight and boom lines to be staged, in order. -/
  remote : List RemoteW
  fills : List BoomFill
  lists : Tab CutList
  dicts : Tab Dict
  ctxs : Tab Ctx
  dram : Dram
  decks : Tab Deck
  engines : Tab Engine
  sky : Sky
  pow : Power
  boot : Startup
  sec : Security
  seeds : Tab Seed
  acct : Tab QueueAcct
  /-- Number of the next fault record (R554). -/
  logSeq : Nat
  /-- Flash log of the last 64 fatal records (R556). -/
  flashLog : List (List Byte)
  /-- Outward messages, oldest first. -/
  out : List OutMsg
  /-- How many free values have been drawn: the model's own field. -/
  fresh : Nat
  deriving DecidableEq, Repr

/-- The machine right after reset: every register at its reset value, nothing started, no power qualified, no memory written. [DESIGN CHOICE, log entry 3] -/
def State.reset : State :=
  { pending := [], regs := []
    tl := { now := 0, frac := 0, lines := 1125, num := 30, den := 1, slew := 0, trim := 0, acquired := false, inWin := 0, framesSinceEdge := 0
            pendSrc := 0, pendAt := 0, sincePulse := none, goodPulses := 0, ptmOrigin := 0, ptmFrame := 0, fsHop := none, fsFrame := 0
            fsSent := false, drivesFs := false, fsSilent := 0, alarmHeld := [] }
    ck := { pendSel := 0, pendAt := 0, ringDown := false, outSel := 0, outDiv := 0, outPhase := 0, window := 0 }
    ep := { tags := [], waitq := [], msix := [], held := [], linkUp := false, cfgReady := false, flr := [], ltr := [], wakePin := false, perst := true }
    sqs := [], cqs := [], mrings := [], cmds := []
    sched := { nextOrder := 1, nextFirst := 1, nextPort := 1, slices := [], lastSq := [], epochAt := 0, ownBefore := [], switching := [], handover := []
               groveMoves := [], handed := [], saved := [], preemptAt := [], preempting := [], pfailDue := [], sxNs := 0, servedAt := 0, served := [], ownedAt := 0
               ownedNs := [] }
    boles := [], lands := [], remote := [], fills := [], lists := [], dicts := [], ctxs := []
    dram := { mem := [], gen := 0, sub := [], scrubPos := 0, srAll := false, svcRow := none, addrChk := [], scrubWait := none }
    decks := [], engines := []
    sky := { ports := [], xfers := [], rxIds := [] }
    pow := { railsOn := [], auxOn := false, switchOn := false, wanted := true, overV := false, excursion := 0, pwrLevel := 0, thrLevel := 0, upUs := 0
             downUs := 0, thrUs := 0, stableUs := 0, coolMs := 0, pauseAt := 0, paused := false, gatedNs := 0, powerFail := false, marker := none }
    boot := { stage := 0, tested := false, plan := [], templates := [], preloads := [], base := ⟨[], [], [], [], [], [], []⟩, tplLogged := none
              failedBoles := [], failedEngines := [], standKept := [], backOn := [], modId := 0 }
    sec := { owner := none, ownerGen := 0, fwSvn := 0, ucSvn := 0, planCtr := 0, bankB := false, trial := false, trialFails := 0, ucBankB := false
             stewA := ⟨[], 0, 0⟩, stewB := ⟨[], 0, 0⟩, ucA := ⟨[], 0, 0⟩, ucB := ⟨[], 0, 0⟩, slotA := [], slotB := [], migDone := false, content := []
             unlockNext := 0, unlocked := 0, challenge := none, challengedAt := 0, manifest := [], held := [], pieces := [], byPldm := false, updOp := 0, updPiece := 0
             updBuf := [], updMissing := 0, handover := 0, switchedAt := 0
             chain := [⟨.root, .root, false, []⟩, ⟨.manufacturing, .root, false, []⟩, ⟨.dik, .manufacturing, true, []⟩], issued := []
             newImage := false, eid := 0, reloads := [] }
    seeds := [], acct := [], logSeq := 0, flashLog := [], out := [], fresh := 0 }

end Sys2Proof.Machine
end

