-- ==== Sys2Proof/Machine/Ops.lean ====
section
/-! DEFINITION. The named operations over registers, outward messages, interrupts and DRAM that every meaning uses. -/

namespace Sys2Proof

/-- Distance between the copies of a register that every PCIe function has of its own (BAR0 is 64 MiB, R28). -/
def fnStride : Nat := 2 ^ 26

/-- Where configuration space of a function stands among the registers. [PRESUMED, log entry 2] -/
def cfgOff (fn : Nat) : Nat := 2 ^ 31 + 4096 * fn

/-- The field as function `fn` has it, where every function has its own (R449). -/
def Fld.fn (f : Fld) (fn : Nat) : Fld := f.at (fn * fnStride)

/-- The field in the configuration space of a function. -/
def Fld.cfg (f : Fld) (fn : Nat) : Fld := f.at (cfgOff fn)

end Sys2Proof

namespace Sys2Proof.Machine

/-! ### Registers -/

/-- The block layouts an offset of BAR0 belongs to, each with the base of its block (R28, R30, R301, R393, R413, R348, R481, R503). -/
def locate (o : Nat) : List (Blk × Nat) :=
  if 2 ^ 31 ≤ o then [(.cfg, o - (o - 2 ^ 31) % 4096)]
  else
    let f := o - o % fnStride
    let x := o % fnStride
    if 0x100000 ≤ x && x < 0x210000 then let b := f + 0x100000 + (x - 0x100000) / 0x4000 * 0x4000; [(.comp, b), (.bl, b)]
    else if 0x210000 ≤ x && x < 0x250000 then let b := f + 0x210000 + (x - 0x210000) / 0x4000 * 0x4000; [(.comp, b), (.div, b)]
    else if 0x250000 ≤ x && x < 0x260000 then
      let b := f + 0x250000 + (x - 0x250000) / 0x4000 * 0x4000; [(.comp, b), (.div, b), (.cg, b)]
    else if 0x260000 ≤ x && x < 0x264000 then [(.comp, f + 0x260000), (.div, f + 0x260000)]
    else if 0x31000 ≤ x && x < 0x32000 then [(.pt, f + 0x31000 + (x - 0x31000) / 0x100 * 0x100)]
    else if 0x34000 ≤ x && x < 0x35000 then [(.ac, f + 0x34000 + (x - 0x34000) / 0x100 * 0x100)]
    else if 0x30400 ≤ x && x < 0x30800 then [(.ctl, f + 0x30400 + (x - 0x30400) / 0x40 * 0x40)]
    else if 0x41000 ≤ x && x < 0x42000 then [(.dk, f + 0x41000 + (x - 0x41000) / 0x40 * 0x40)]
    else if 0x42000 ≤ x && x < 0x43000 then [(.dkq, f + 0x42000 + (x - 0x42000) / 0x40 * 0x40)]
    else if 0x43000 ≤ x && x < 0x44000 then [(.dkh, f + 0x43000 + (x - 0x43000) / 0x40 * 0x40)]
    else if 0x50000 ≤ x && x < 0x60000 then
      let b := f + 0x50000 + (x - 0x50000) / 0x1000 * 0x1000; if x < 0x51000 && 0x800 ≤ x % 0x1000 then [(.gl, f)] else [(.dr, b)]
    else if 0x60100 ≤ x && x < 0x60200 then [(.md, f + 0x60100 + (x - 0x60100) / 0x40 * 0x40)]
    else if 0x68100 ≤ x && x < 0x68180 then [(.md, f + 0x68100 + (x - 0x68100) / 0x40 * 0x40)]
    else if 0x80100 ≤ x && x < 0x801C0 then [(.sw, f + 0x80100 + (x - 0x80100) / 0x40 * 0x40)]
    else if 0x81000 ≤ x && x < 0x81200 then [(.txw, f + 0x81000 + (x - 0x81000) / 0x20 * 0x20)]
    else if 0x82000 ≤ x && x < 0x82200 then [(.rxw, f + 0x82000 + (x - 0x82000) / 0x20 * 0x20)]
    else [(.gl, f)]

/-- Does a row of a layout hold offset `rel`, and at which distance from its first copy? -/
def RegRow.hit (r : RegRow) (rel : Nat) : Option Nat :=
  match r.flds with
  | [] => none
  | f :: _ =>
    if rel = f.off then some 0
    else if r.count ≤ 1 || rel < f.off then none
    else if (rel - f.off) % r.stride = 0 && (rel - f.off) / r.stride < r.count then some (rel - f.off) else none

/-- The fields of the register at an offset; none where no block defines one (R28). -/
def fldsAt (o : Nat) : List Fld :=
  (locate o).flatMap fun (b, base) =>
    (regRows b (o - base)).flatMap fun r =>
      match r.hit (o - base) with
      | some d => r.flds.map fun f => f.at (base + d)
      | none => []

/-- The reset value of the register at an offset. -/
def resetWord (o : Nat) : Word := BitVec.ofNat 32 ((fldsAt o).foldl (fun v f => v ||| (f.reset % 2 ^ f.w) <<< f.lo) 0)

/-- The word a register holds. [DESIGN CHOICE, log entry 7] -/
def State.reg (s : State) (o : Nat) : Word := (tget s.regs o).getD (resetWord o)

/-- Sets the word of a register. -/
def State.setReg (s : State) (o : Nat) (v : Word) : State := { s with regs := tput s.regs o v }

/-- The value of a field. -/
def State.rd (s : State) (f : Fld) : Nat := bits (s.reg f.off).toNat f.lo f.w

/-- A one-bit field as a truth value. -/
def State.rdB (s : State) (f : Fld) : Bool := s.rd f != 0

/-- Sets a field, leaving the rest of its register. -/
def State.wr (s : State) (f : Fld) (v : Nat) : State :=
  s.setReg f.off (BitVec.ofNat 32 (setBits (s.reg f.off).toNat f.lo f.w v))

/-- Sets a one-bit field. -/
def State.wrB (s : State) (f : Fld) (b : Bool) : State := s.wr f (b2n b)

/-- Adds to a counter field, which wraps at its width. -/
def State.inc (s : State) (f : Fld) (n : Nat) : State := s.wr f (s.rd f + n)

/-- Adds to a counter field that stops at its largest value. -/
def State.incSat (s : State) (f : Fld) (n : Nat) : State := s.wr f (min (s.rd f + n) (2 ^ f.w - 1))

/-- Reads a pair of registers, low word first (R4). -/
def State.rd2 (s : State) (lo hi : Fld) : Nat := s.rd lo + s.rd hi * 2 ^ 32

/-- Writes a pair of registers. -/
def State.wr2 (s : State) (lo hi : Fld) (v : Nat) : State := (s.wr lo (v % 2 ^ 32)).wr hi (v / 2 ^ 32)

/-- Adds to a 64-bit counter in a pair of registers. -/
def State.inc2 (s : State) (lo hi : Fld) (n : Nat) : State := s.wr2 lo hi ((s.rd2 lo hi + n) % 2 ^ 64)

/-- Base of partition p's PT_ block (R301). -/
def ptBase (p : Nat) : Nat := 0x31000 + 0x100 * p
/-- Base of partition p's AC_ block (R301). -/
def acBase (p : Nat) : Nat := 0x34000 + 0x100 * p
/-- Base of deck d's block (R413). -/
def dkBase (d : Nat) : Nat := 0x41000 + 0x40 * d
/-- Base of the BL_ block of physical bole p (R28). -/
def blBase (p : Nat) : Nat := 0x100000 + 0x4000 * p
/-- Base of the block of subchannel sc's channel, with the offset of the subchannel's registers taken into account (R393). -/
def scBase (sc : Nat) : Nat := 0x50000 + 0x1000 * (sc / 2) + 0x100 * (sc % 2)

/-- GL_CTRL.seal has been set (R8, R542). -/
def State.sealed (s : State) : Bool := s.rdB F.glStatus_sealed

/-- The timeline value. -/
def State.now (s : State) : Nat := s.tl.now

/-- What a write of `v` makes of one field (R7): RW and, before seal, RWP take the value; W1C clears and W1S sets the bits written as 1. -/
def fldWrite (sealed : Bool) (v old : Nat) (f : Fld) : Nat :=
  let x := bits old f.lo f.w
  let y := bits v f.lo f.w
  match f.acc with
  | .rw => setBits old f.lo f.w y
  | .rwp => if sealed then old else setBits old f.lo f.w y
  | .w1c => setBits old f.lo f.w (x - (x &&& y))
  | .w1s => setBits old f.lo f.w (x ||| y)
  | .ro | .wo => old

/-- A write of a register by the access codes of its fields (R7); an offset without a register ignores it (R28). -/
def State.regWrite (s : State) (o v : Nat) : State :=
  match fldsAt o with
  | [] => s
  | fs => s.setReg o (BitVec.ofNat 32 (fs.foldl (fldWrite s.sealed v) (s.reg o).toNat))

/-- Adds to a 64-bit counter of partition p's AC_ block (R301). [DEDUCED, log entry 14] -/
def State.acAdd (s : State) (p off n : Nat) : State :=
  s.inc2 (F.acCnt_word.at (acBase p + off)) (F.acCnt_word.at (acBase p + off + 4)) n

/-- Sublines from stamp `b` to stamp `a` (R56). -/
def Timeline.errSub (t : Timeline) (a b : Nat) : Int :=
  (sgn 32 (stFrame a + 2 ^ 32 - stFrame b) * t.lines + stLine a - stLine b) * 65536 + stSub a - stSub b

/-- ns from a stamp to now. [DESIGN CHOICE, log entry 21] -/
def State.nsSince (s : State) (st : Nat) : Nat :=
  (s.tl.errSub s.tl.now st).toNat * s.tl.den * 1000000000 / (s.tl.num * s.tl.lines * 65536)

/-! ### Outward messages and interrupts -/

/-- Sends one message outward. [DESIGN CHOICE, log entry 8] -/
def State.emit (s : State) (m : OutMsg) : State := { s with out := s.out ++ [m] }

/-- The function's Bus Master Enable is set and neither it nor the physical function is in D3hot (R441, R604). -/
def State.fnAwake (s : State) (fn : Nat) : Bool :=
  s.rdB (F.cfgCmd_busMaster.cfg fn) && s.rd (F.cfgPmcsr_state.cfg fn) == 0 && s.rd (F.cfgPmcsr_state.cfg 0) == 0

/-- Neither the function nor the physical function is in D3hot (R441). [DEDUCED, log entry 105] -/
def State.fnD0 (s : State) (fn : Nat) : Bool := s.rd (F.cfgPmcsr_state.cfg fn) == 0 && s.rd (F.cfgPmcsr_state.cfg 0) == 0

/-- The link carries traffic and leaves L1 for it (R444). -/
def State.leaveL1 (s : State) : State := s.wr F.glLink_l1 0

/-- Virtual functions that exist: 1 to NumVFs while VF Enable is 1 (R426); the physical function always does. -/
def State.fnExists (s : State) (fn : Nat) : Bool :=
  fn == 0 || (s.rdB (F.cfgSriovCtl_vfEnable.cfg 0) && fn ≤ s.rd (F.cfgSriovNum_numVfs.cfg 0))

/-- May a function be reached through its BARs: it exists, the link is up, Memory Space Enable is set and it is in D0 (R426, R441)? -/
def State.barOpen (s : State) (fn : Nat) : Bool :=
  s.ep.linkUp && s.fnExists fn && (if fn = 0 then s.rdB (F.cfgCmd_memSpace.cfg 0) else s.rdB (F.cfgSriovCtl_vfMse.cfg 0)) && s.fnD0 fn

/-- Records a code of the endpoint in GL_HOST_LAST of its function (R449). -/
def State.hostLast (s : State) (fn code tag : Nat) : State :=
  ((s.wr (F.glHostLast_code.fn fn) code).wr (F.glHostLast_tag.fn fn) tag).wr (F.glHostLast_valid.fn fn) 1

/-- Vectors of a function (R434). -/
def fnVectors (fn : Nat) : Nat := if fn = 0 then 2048 else 64

/-- The MSI-X entry of a function's vector. -/
def State.msixEnt (s : State) (fn vec : Nat) : MsixEnt := tgetD s.ep.msix (fn * 2048 + vec) ⟨0, 0, true, false⟩

/-- Sets an MSI-X entry. -/
def State.setMsix (s : State) (fn vec : Nat) (e : MsixEnt) : State :=
  { s with ep := { s.ep with msix := tput s.ep.msix (fn * 2048 + vec) e } }

/-- An event on a vector (R436, R604): nothing while MSI-X Enable is 0, the pending bit while masked or while the function may not send,
otherwise a message. -/
def State.raiseVec (s : State) (fn vec : Nat) : State :=
  if !s.rdB (F.cfgMsix_enable.cfg fn) || fnVectors fn ≤ vec then s
  else
    let e := s.msixEnt fn vec
    if e.masked || s.rdB (F.cfgMsix_fnMask.cfg fn) || !s.fnAwake fn then s.setMsix fn vec { e with pend := true }
    else s.emit (.msix fn vec e.addr e.data)

/-- Splits `len` bytes at `addr` so that no part is longer than `m` or crosses a 4 KiB boundary (R428): address and length of each part. -/
def splitReq (m : Nat) : Nat → Nat → Nat → List (Nat × Nat)
  | 0, _, _ => []
  | fuel + 1, addr, len =>
    if len = 0 then []
    else
      let n := min len (max 1 (min m (4096 - addr % 4096)))
      (addr, n) :: splitReq m fuel (addr + n) (len - n)

/-- Max_Payload_Size of a function, at most the 512 bytes it supports (R418, R428). -/
def State.mps (s : State) (fn : Nat) : Nat := min 512 (128 * 2 ^ s.rd (F.cfgDevCtl_mps.cfg fn))

/-- Max_Read_Request_Size of a function, up to 4 KiB (R428). -/
def State.mrrs (s : State) (fn : Nat) : Nat := min 4096 (128 * 2 ^ s.rd (F.cfgDevCtl_mrrs.cfg fn))

/-- Writes host memory in the order of the function's writes; held while the function may not send (R428, R604). [DEDUCED, log entry 14] -/
def State.hostWrite (s : State) (fn addr : Nat) (data : List Byte) : State :=
  let parts := (splitReq (s.mps fn) data.length addr data.length).map fun (a, n) => OutMsg.hostWrite fn a ((data.drop (a - addr)).take n)
  if s.fnAwake fn && !(s.ep.held.any fun h => h.1 == fn) then { s with out := s.out ++ parts }
  else { s with ep := { s.ep with held := s.ep.held ++ parts.map fun m => (fn, m) } }

/-- Report through AER: the error status bit of the function's capability is set, with the advisory non-fatal one where the rule names it (R431, R433), and
the report is sent. -/
def State.aer (s : State) (fn : Nat) (k : AerKind) : State :=
  let f := match k with
    | .completionTimeout => F.cfgAerUnc_cplTimeout
    | .unexpectedCompletion => F.cfgAerUnc_unexpCpl
    | .poisonedTlp => F.cfgAerUnc_poisoned
    | .internalError => F.cfgAerUnc_internal
    | .clockLoss => F.cfgAerUnc_internal
  let s := if k == .unexpectedCompletion || k == .poisonedTlp then s.wr (F.cfgAerCor_advisory.cfg fn) 1 else s
  (s.wr (f.cfg fn) 1).emit (.aer fn k)

/-! ### DRAM -/

/-- Size of the data space, 448 GiB (R368). -/
def dramSize : Nat := 448 * 2 ^ 30

/-- The key that only the module uses (R375). -/
def moduleKey : Nat := 16

/-- Key index of the granule of a data address (R375). -/
def State.keyOf (s : State) (a : Nat) : Nat :=
  let g := a / 2 ^ 30
  bits (s.reg (0x50900 + 4 * (g / 4))).toNat (8 * (g % 4)) 5

/-- The deck `d` is enabled: configured and neither disabled nor failed (R396, R412). -/
def State.deckOn (s : State) (d : Nat) : Bool :=
  s.rdB (F.dkCfg_en.at (dkBase d)) && !s.rdB (F.dkStat_disabled.at (dkBase d)) && !s.rdB (F.dkStat_failed.at (dkBase d))

/-- Base, buffer size and count of a deck (R394). -/
def State.deckGeom (s : State) (d : Nat) : Nat × Nat × Nat :=
  (s.rd (F.dkBaseLo_base.at (dkBase d)) + s.rd (F.dkBaseHi_base.at (dkBase d)) * 2 ^ 32, 2 ^ s.rd (F.dkCfg_sizeLog2.at (dkBase d)),
    s.rd (F.dkCount_count.at (dkBase d)))

/-- Data address of a buffer (R394). -/
def State.bufAddr (s : State) (b : BufRef) : Nat :=
  let (base, size, _) := s.deckGeom b.deck
  base + b.idx * size

/-- Buffer size of a deck. -/
def State.bufSize (s : State) (d : Nat) : Nat := 2 ^ s.rd (F.dkCfg_sizeLog2.at (dkBase d))

/-- The buffer of an enabled deck that a data address lies in. -/
def State.bufAt (s : State) (a : Nat) : Option BufRef :=
  (List.range 64).findSome? fun d =>
    if s.deckOn d then
      let (base, size, n) := s.deckGeom d
      if base ≤ a && a < base + size * n then some ⟨d, (a - base) / size⟩ else none
    else none

/-- Owner table entry of a buffer (R399). -/
def State.ownerOf (s : State) (b : BufRef) : Option Owner := (tget s.decks b.deck).bind fun d => tget d.owners b.idx

/-- May a request with this owner tag (16 for the module's own) reach a data address (R375, R376)? -/
def State.dramOk (s : State) (part a : Nat) : Bool :=
  if dramSize ≤ a then false
  else if part = moduleKey then s.keyOf a == moduleKey
  else s.keyOf a == part || (s.keyOf a == moduleKey && match s.bufAt a with
    | some b => match s.ownerOf b with
      | some o => o.part == part
      | none => false
    | none => false)

/-- First addresses of the 64-byte bursts that a range of bytes touches. -/
def burstsOf (a n : Nat) : List Nat := if n = 0 then [] else (List.range ((a + n - 1) / 64 - a / 64 + 1)).map fun i => (a / 64 + i) * 64

/-- The mapping of R369: subchannel and physical burst of a data address. -/
def dramMap (a : Nat) : Nat × Nat :=
  let sc := bits a 8 5 ^^^ bits a 13 5 ^^^ bits a 18 5 ^^^ bits a 23 5 ^^^ bits a 28 5 ^^^ bits a 33 5 ^^^ bits a 38 1
  let l := ((a >>> 13) <<< 8) ||| bits a 0 8
  let d := l / 64
  (sc, 8 * (d / 7) + d % 7)

/-- The data address that R369 maps to a physical burst of a subchannel; none for a check burst. -/
def dramUnmap (sc p : Nat) : Option Nat :=
  if p % 8 = 7 then none
  else
    let l := (7 * (p / 8) + p % 8) * 64
    let hi := (l >>> 8) <<< 13
    let fold := bits hi 13 5 ^^^ bits hi 18 5 ^^^ bits hi 23 5 ^^^ bits hi 28 5 ^^^ bits hi 33 5 ^^^ bits hi 38 1
    some (hi + (sc ^^^ fold) * 256 + bits l 0 8)

/-- A subchannel's record before anything has happened to it. -/
def SubCh.new : SubCh := ⟨[], [], [], [], [], [], 0, false, 0, false, false, false, []⟩

/-- The record of subchannel sc. -/
def State.subch (s : State) (sc : Nat) : SubCh := tgetD s.dram.sub sc SubCh.new

/-- Replaces the record of subchannel sc. -/
def State.setSubch (s : State) (sc : Nat) (c : SubCh) : State := { s with dram := { s.dram with sub := tput s.dram.sub sc c } }

/-- Is the burst of a data address on its subchannel's poison list (R391)? -/
def State.poisoned (s : State) (a : Nat) : Bool := let (sc, p) := dramMap a; (s.subch sc).poison.contains p

/-- The byte at a data address; one that has not been written under the keys in use has a free value (R376, R377). [DESIGN CHOICE, log entry 10] -/
def State.dramByte (s : State) (a : Nat) : Byte := (tget s.dram.mem a).getD (Config.freeDram s.dram.gen a)

/-- Consecutive bytes of the data space, without a check. -/
def State.dramBytes (s : State) (a n : Nat) : List Byte := (List.range n).map fun i => s.dramByte (a + i)

/-- How a request to DRAM ends. -/
inductive MemRes (α : Type) where
  /-- Served. -/
  | ok (x : α)
  /-- Refused, DRAM_ACCESS_DENIED (R375), at an address. -/
  | denied (a : Nat)
  /-- Uncorrectable (R372), at an address. -/
  | bad (a : Nat)
  deriving DecidableEq, Repr

/-- A read of `n` bytes for an owner tag (R371, R375, R391). [DESIGN CHOICE, log entry 11] -/
def State.dramRead (s : State) (part a n : Nat) : MemRes (List Byte) :=
  match (burstsOf a n).find? fun b => !s.dramOk part b with
  | some b => .denied b
  | none => match (burstsOf a n).find? s.poisoned with
    | some b => .bad b
    | none => .ok (s.dramBytes a n)

/-- Stores bytes into the data space; a burst written whole leaves its poison list (R391). -/
def State.dramPut (s : State) (a : Nat) (data : List Byte) : State :=
  let whole := (burstsOf a data.length).filter fun b => a ≤ b && b + 64 ≤ a + data.length
  let s := whole.foldl (fun (s : State) b =>
    if s.poisoned b then
      let (sc, p) := dramMap b
      let c := s.subch sc
      (s.setSubch sc { c with poison := c.poison.filter (· != p) }).wr (F.drScPoison_entries.at (scBase sc)) ((c.poison.filter (· != p)).length)
    else s) s
  { s with dram := { s.dram with mem := data.zipIdx.foldl (fun m (b, i) => tput m (a + i) b) s.dram.mem } }

/-- A write of bytes for an owner tag; a refused write changes nothing (R375, R378). [DESIGN CHOICE, log entry 11] -/
def State.dramWrite (s : State) (part a : Nat) (data : List Byte) : Option State :=
  if (burstsOf a data.length).all (s.dramOk part) then some (s.dramPut a data) else none

/-- The contents of a range become unreadable: its key or its owner changed (R376, R377). [DESIGN CHOICE, log entry 10] -/
def State.dramForget (s : State) (lo hi : Nat) : State :=
  { s with dram := { s.dram with mem := mclear s.dram.mem lo hi, gen := s.dram.gen + 1 } }

/-- Enters a burst in its poison list, which holds 256; answers whether there was room (R391). -/
def State.poisonAdd (s : State) (sc p : Nat) : State × Bool :=
  let c := s.subch sc
  if c.poison.contains p then (s, true)
  else if 256 ≤ c.poison.length then (s, false)
  else ((s.setSubch sc { c with poison := c.poison ++ [p] }).wr (F.drScPoison_entries.at (scBase sc)) (c.poison.length + 1), true)

/-! ### Free values -/

/-- Draws a fresh counter for a free value. [DESIGN CHOICE, log entry 4] -/
def State.draw (s : State) : Nat × State := (s.fresh, { s with fresh := s.fresh + 1 })

end Sys2Proof.Machine
end

