-- ==== Sys2Proof/Machine/Flags.lean ====
section
/-! DEFINITION. Fault codes and their classes, the 64-byte fault record, the fault and flash logs, the writes of queue objects, and the metadata records that the module publishes on its own (15, 19). -/

namespace Sys2Proof.Machine

/-- The classes of R551 with the numbers of the fault record. -/
inductive FaultClass where
  | informational | corrected | refused | dataFault | contained | partitionFatal | deviceFatal
  deriving DecidableEq, Repr

/-- Number of a class in a fault record (R554). -/
def FaultClass.num : FaultClass → Nat
  | .informational => 0 | .corrected => 1 | .refused => 2 | .dataFault => 3 | .contained => 4 | .partitionFatal => 5 | .deviceFatal => 6

/-- Codes of class informational (R551 and the code tables). -/
def infoCodes : List Nat :=
  [0x105,0x10a,0x408,0x703,0x604,0x60d,0x60f,0xa42,0x302,0x306,0x308,0x803,0x804,0x807,0x808,0x80c,0x907,0xa01,0xa02,0xa07] ++
  [0xb05,0xb09,0xb0a,0xb0b,0xb0d,0xc04,0xc05,0xc06,0xc07,0xc08,0xd02,0xd03,0xd07,0xd08,0xd09,0xd0b,0xd0c,0x326,0x328,0xe03] ++
  [0xe04,0xe05,0xe0a,0x201,0x205,0x206,0x207,0x20b,0x20d,0x20e,0x340,0x344,0x345,0x347,0x348,0x364,0x365,0x366,0xf02,0xf06,0xf07,0xf09]

/-- Codes of class corrected. -/
def correctedCodes : List Nat :=
  [0x102,0x103,0x104,0x108,0x109,0x406,0x409,0x40b,0x507,0xb01,0xb08,0xb0c,0xc0b,0xe01,0xe02,0x208,0x346,0x360,0xf01]

/-- Codes of class data fault. -/
def dataCodes : List Nat :=
  [0x701,0x702,0x704,0x501,0x502,0x503,0x504,0x505,0x506,0x601,0x606,0x607,0x608,0x60a,0x60b,0x60c,0x60e,0xa43,0x801,0x802] ++
  [0x80b,0x903,0x904,0xa05,0xa08,0xb02,0xb07,0xd01,0xd04,0x325,0xe06,0xe08,0xe09,0xe0b,0x363]

/-- Codes of class contained. -/
def containedCodes : List Nat :=
  [0x401,0x402,0x403,0x404,0x405,0x407,0x40a,0x508,0x509,0x30a,0x805,0x80a,0x905,0xb03,0xe07]

/-- Codes of class device-fatal. -/
def deviceCodes : List Nat := [0x101,0xb04,0xb06,0x202,0x203,0x204,0x209,0x20a,0x20c,0xf0a,0xf0b]

/-- The class of a code, where its rule gives it no other (R551, table Class labels). -/
def codeClass (c : Nat) : FaultClass :=
  if infoCodes.contains c then .informational
  else if correctedCodes.contains c then .corrected
  else if dataCodes.contains c then .dataFault
  else if containedCodes.contains c then .contained
  else if c = 0xc0c ∨ c = 0x361 then .partitionFatal
  else if deviceCodes.contains c then .deviceFatal
  else .refused

/-- Kinds of fault source, with the numbers of R554. -/
inductive SrcKind where
  | none | bole | quad | grove | die | decode | encode | media | subchannel | deck | function | port | clocks | power | steward | scheduler
  deriving DecidableEq, Repr

/-- Number of a source kind (R554). -/
def SrcKind.num : SrcKind → Nat
  | .none => 0 | .bole => 1 | .quad => 2 | .grove => 3 | .die => 4 | .decode => 5 | .encode => 6 | .media => 7 | .subchannel => 8
  | .deck => 9 | .function => 10 | .port => 11 | .clocks => 12 | .power => 13 | .steward => 14 | .scheduler => 15

/-- The kinds whose records name an index: physical index, engine, subchannel, deck, function, port, rail or sensor; 0 for every other (R554). -/
def SrcKind.indexed : SrcKind → Bool
  | .bole | .decode | .encode | .media | .subchannel | .deck | .function | .port | .power => true
  | .none | .quad | .grove | .die | .clocks | .steward | .scheduler => false

/-- What a fault says of itself; the rest of the record comes from the state (R554). -/
structure FaultInfo where
  code : Nat
  cls : FaultClass
  kind : SrcKind := .none
  idx : Nat := 0
  part : Option Nat := none
  slot : Option Nat := none
  ctx : Option Nat := none
  d0 : Nat := 0
  d1 : Nat := 0
  d2 : Nat := 0
  flags : Nat := 0
  deriving DecidableEq, Repr

/-- A fault with its table class. -/
def mkFault (code : Nat) (kind : SrcKind) (idx : Nat := 0) (d0 : Nat := 0) (d1 : Nat := 0) : FaultInfo :=
  { code := code, cls := codeClass code, kind := kind, idx := idx, d0 := d0, d1 := d1 }

/-! ### Writes of queue objects -/

/-- First number of the control queues among the queue tables (R458). -/
def ctlSq (p : Nat) : Nat := 16384 + p
/-- Number of the control CQ of partition p among the CQ table. -/
def ctlCq (p : Nat) : Nat := 4096 + p

/-- A write of an entry, record or pointer block of a queue object of partition `p` (R473, R605): into host memory in the function's order,
or into module DRAM under the partition's key; a refused write is dropped and makes the partition fatal. [DEDUCED, log entry 14] -/
def State.queueWrite (s : State) (p addr : Nat) (host : Bool) (data : List Byte) : State :=
  if host then (s.acAdd p 0x48 data.length).hostWrite p addr data
  else match s.dramWrite p addr data with
    | some s' => s'
    | none => { s with sched := { s.sched with pfailDue := s.sched.pfailDue ++ [p] } }

/-- Bytes of a pointer block: the index, then zeros (R453). -/
def ptrBytes (i : Nat) : List Byte := leBytes 8 (i % 2 ^ 32)

/-- Free slots of a ring (R452). -/
def Ring.free (r : Ring) : Nat := 2 ^ r.log2 - (r.prod + 2 ^ 32 - r.cons) % 2 ^ 32

/-- Address of record i of a ring (R452). -/
def Ring.at (r : Ring) (i : Nat) : Nat := r.place.base + (i % 2 ^ r.log2) * 64

/-- Publishes one record on a ring on its own (R480): steps 1, 2 and 5 of R473; on a full ring only the discard count rises. -/
def State.publishRecord (s : State) (n : Nat) (data : List Byte) : State :=
  match tget s.mrings n with
  | none => s
  | some r =>
    if r.free = 0 then { s with mrings := tput s.mrings n { r with dropped := (r.dropped + 1) % 2 ^ 32 } }
    else
      let s := s.queueWrite r.part (r.at r.prod) r.place.baseHost data
      let p := (r.prod + 1) % 2 ^ 32
      let s := { s with mrings := tput s.mrings n { r with prod := p } }
      let s := s.queueWrite r.part r.place.ptr r.place.ptrHost (ptrBytes p)
      if r.irqEn then s.raiseVec r.part r.vector else s

/-! ### The fault record -/

/-- Bytes 0 to 63 of a fault record (R554). -/
def State.faultRecord (s : State) (f : FaultInfo) : List Byte :=
  let c := f.slot.bind fun n => tget s.cmds n
  let part := match f.part, c with
    | some p, _ => p + 16
    | none, some c => c.desc.part + 16
    | none, none => 0
  let sq := match c with
    | some c => c.sq % 16384 + (if 16384 ≤ c.sq then 2 ^ 14 else 0) + 2 ^ 15
    | none => 0
  let ctx := match f.ctx, c with
    | some x, _ => x + 2 ^ 14
    | none, some c => if c.desc.ctxValid then c.desc.ctx + 2 ^ 14 else 0
    | none, none => 0
  let body := leBytes 2 f.code ++ leBytes 1 f.cls.num ++ leBytes 1 f.kind.num ++ leBytes 2 (if f.kind.indexed then f.idx else 0) ++ leBytes 1 part ++
    leBytes 1 (match c with | some c => min 255 c.attempts | none => 0) ++ leBytes 4 s.logSeq ++ leBytes 2 sq ++
    leBytes 2 (f.slot.getD 0) ++ leBytes 4 (match c with | some c => c.seq | none => 0) ++ leBytes 4 ctx ++ leBytes 8 s.now ++
    leBytes 8 f.d0 ++ leBytes 8 f.d1 ++ leBytes 8 f.d2 ++ leBytes 4 f.flags
  body ++ leBytes 4 (crc32c body)

/-- The 64 bytes of a metadata record: header of R477 and payload, padded with 0. -/
def metaRecord (type cont more ctxField seq stamp : Nat) (payload : List Byte) : List Byte :=
  let b := leBytes 1 (type + 16 * cont + 32 * more) ++ [0] ++ leBytes 2 ctxField ++ leBytes 4 seq ++ leBytes 8 stamp ++ payload
  (b ++ List.replicate 64 (0 : Byte)).take 64

/-- Logs a fault (R551, R554, R555, R556, R480): the record into the fault log, the counters and FT_LAST, the flash log and vector 0 for the
fatal classes, AER for a device-fatal one, and a FAULT record on every ring of the partition that asks for it. -/
def State.logFault (s : State) (f : FaultInfo) : State :=
  let rec' := s.faultRecord f
  let s := { s with logSeq := (s.logSeq + 1) % 2 ^ 32 }
  let n := s.rd F.ftLogSize_kib * 16
  let s := if s.rdB F.ftCfg_logEn && n != 0 then
      let a := s.rd2 F.ftLogBaseLo_base F.ftLogBaseHi_base + (s.rd F.ftLogHead_head % n) * 64
      ((s.dramWrite moduleKey a rec').getD s).inc F.ftLogHead_head 1
    else s
  let s := match f.cls with
    | .corrected => s.inc F.ftCnt0_corrected 1
    | .contained => s.inc F.ftCnt0_contained 1
    | .dataFault => s.inc F.ftCnt1_data 1
    | .partitionFatal => s.inc F.ftCnt1_pfatal 1
    | .deviceFatal => s.inc F.ftCnt1_dfatal 1
    | _ => s
  let s := ((s.wr F.ftLast_code f.code).wr F.ftLast_class f.cls.num).wr F.ftLast_valid 1
  let part := match f.part with
    | some p => some p
    | none => (f.slot.bind fun n => tget s.cmds n).map fun (c : Cmd) => c.desc.part
  let fatal := f.cls == .partitionFatal || f.cls == .deviceFatal
  let s := if fatal then
      { s with flashLog := (s.flashLog ++ [rec']).drop ((s.flashLog.length + 1) - 64) }
    else s
  let s := match f.cls with
    | .partitionFatal => s.raiseVec (part.getD 0) 0
    | .deviceFatal => (s.aer 0 .internalError).raiseVec 0 0
    | _ => s
  match part with
  | none => s
  | some p =>
    let c := f.slot.bind fun n => tget s.cmds n
    let ctxField := match f.ctx, c with
      | some x, _ => x + 2 ^ 14
      | none, some c => if c.desc.ctxValid then c.desc.ctx + 2 ^ 14 else 0
      | none, none => 0
    let r := metaRecord 7 0 0 ctxField (match c with | some c => c.seq | none => 0) s.now (rec'.take 48)
    s.mrings.foldl (fun (s : State) (e : Nat × Ring) => if e.2.faultEn && e.2.part == p then s.publishRecord e.1 r else s) s

/-- Logs a code with its table class. -/
def State.log (s : State) (code : Nat) (kind : SrcKind) (idx : Nat := 0) (d0 : Nat := 0) (d1 : Nat := 0) : State :=
  s.logFault (mkFault code kind idx d0 d1)

/-- Logs a code about a command. -/
def State.logCmd (s : State) (code slot : Nat) (kind : SrcKind := .scheduler) (idx : Nat := 0) (d0 : Nat := 0) (d1 : Nat := 0) : State :=
  s.logFault { mkFault code kind idx d0 d1 with slot := some slot }

/-- Logs a code about a partition. -/
def State.logPart (s : State) (code p : Nat) (kind : SrcKind := .scheduler) (idx : Nat := 0) (d0 : Nat := 0) (d1 : Nat := 0) : State :=
  s.logFault { mkFault code kind idx d0 d1 with part := some p }

end Sys2Proof.Machine
end

