-- ==== Sys2Proof/Machine/DeckOps.lean ====
section
/-! DEFINITION. Buffer decks: levels, allocation, holds, returns and reclaims (13). -/

namespace Sys2Proof.Machine

/-- A deck with nothing in it. -/
def Deck.new : Deck := ⟨[], [], [], 0, [], [], []⟩

/-- The record of deck d. -/
def State.deck (s : State) (d : Nat) : Deck := tgetD s.decks d Deck.new

/-- Replaces the record of deck d. [DESIGN CHOICE, log entry 12] -/
def State.setDeck (s : State) (d : Nat) (k : Deck) : State := { s with decks := tput s.decks d k }

/-- Free indices in a ring held as runs. -/
def ringLen (r : List (Nat × Nat)) : Nat := r.foldl (fun n e => n + e.2) 0

/-- Takes up to `n` indices from the front of a ring. -/
def ringTake : Nat → List (Nat × Nat) → List Nat × List (Nat × Nat)
  | 0, r => ([], r)
  | _, [] => ([], [])
  | n + 1, (a, k) :: r =>
    if k = 0 then ringTake n r
    else
      let (l, r') := ringTake n (if k = 1 then r else (a + 1, k - 1) :: r)
      (a :: l, r')

/-- Free buffers of a deck. -/
def Deck.free (k : Deck) : Nat := ringLen k.ring + k.cache.length

/-- The deck's available count: free buffers minus those of the reserve that are still free (R403). -/
def Deck.available (k : Deck) : Nat := k.free - k.resvFree

/-- Is this the recovery deck (R405)? -/
def State.isRecDeck (s : State) (d : Nat) : Bool := s.rd F.dkGCfg_recDeck == d

/-- The threshold of a level, 1 warn, 2 throttle, 3 stop (R403). -/
def State.deckThreshold (s : State) (d level : Nat) : Nat :=
  match level with
  | 1 => s.rd (F.dkWarn_warn.at (dkBase d))
  | 2 => s.rd (F.dkThrottle_throttle.at (dkBase d))
  | _ => s.rd (F.dkStop_stop.at (dkBase d))

/-- One entry into a level: its code is logged and, with irq_en, its vector sent (R403). -/
def State.enterLevel (s : State) (d level : Nat) : State :=
  let s := (s.wr (F.dkStat_level.at (dkBase d)) level).log (0xC03 + level) .deck d
  if s.rdB (F.dkCfg_irqEn.at (dkBase d)) then s.raiseVec 0 (s.rd (F.dkCfg_vector.at (dkBase d))) else s

/-- Evaluates the thresholds of a deck after an operation, entering or leaving its levels one after another (R403), and keeps DK_MIN_FREE. -/
def State.deckLevel (s : State) (d : Nat) : State :=
  let av := (s.deck d).available
  let s := if av < s.rd (F.dkMinFree_low.at (dkBase d)) then s.wr (F.dkMinFree_low.at (dkBase d)) av else s
  let down (s : State) (l : Nat) : State :=
    if s.rd (F.dkStat_level.at (dkBase d)) + 1 = l && av ≤ s.deckThreshold d l then s.enterLevel d l else s
  let up (s : State) (l : Nat) : State :=
    if s.rd (F.dkStat_level.at (dkBase d)) = l && s.deckThreshold d l + s.rd (F.dkResv_hyst.at (dkBase d)) < av
    then s.wr (F.dkStat_level.at (dkBase d)) (l - 1) else s
  [3, 2, 1].foldl up ([1, 2, 3].foldl down s)

/-- A ring entry that is taken: its index is below the count, and its bitmap bit is 0 (R411). -/
def Deck.entryOk (k : Deck) (count i : Nat) : Bool := i < count && (tget k.owners i).isNone

/-- Refills the cache from the ring when it holds fewer than 16 indices (R398); bad entries are discarded (R411). [DESIGN CHOICE, log entry 12] -/
def Deck.refill (k : Deck) (count : Nat) : Deck :=
  if k.cache.length < 16 then { k with ring := (ringTake 32 k.ring).2, cache := ((ringTake 32 k.ring).1.filter (k.entryOk count)).reverse ++ k.cache }
  else k

/-- Entries that a refill discards (R411). -/
def Deck.discards (k : Deck) (count : Nat) : Nat :=
  if k.cache.length < 16 then ((ringTake 32 k.ring).1.filter fun i => !k.entryOk count i).length else 0

/-- Refills the cache of a deck (R398); each entry discarded is logged (R411). -/
def State.refillDeck (s : State) (d : Nat) : State :=
  let n := s.rd (F.dkCount_count.at (dkBase d))
  let k := s.deck d
  (List.range (k.discards n)).foldl (fun (s : State) _ => s.log 0xC0B .deck d) (s.setDeck d (k.refill n))

/-- Spills the 32 oldest indices of a cache of more than 48 to the ring, in the order in which they were placed (R398). [DESIGN CHOICE, log entry 12] -/
def Deck.spill (k : Deck) : Deck :=
  if 48 < k.cache.length then
    { k with ring := k.ring ++ ((k.cache.drop (k.cache.length - 32)).reverse.map fun i => (i, 1)), cache := k.cache.take (k.cache.length - 32) }
  else k

/-- Buffers of a deck that count against a partition's quota (R402). -/
def Deck.heldBy (k : Deck) (p : Nat) : Nat := (k.owners.filter fun e => e.2.part == p && e.2.kind != 3).length

/-- The partition is at its quota in the deck (R402). -/
def State.atQuota (s : State) (d p : Nat) : Bool := s.rd (F.dkQuota_quota.at (0x42000 + 0x40 * d + 4 * p)) ≤ (s.deck d).heldBy p

/-- Takes the index most recently placed in the cache and gives it an owner with one hold (R398, R399); a buffer that goes to another
partition than before becomes unreadable (R376). -/
def State.takeBuf (s : State) (d : Nat) (o : Owner) : Option (BufRef × State) :=
  let s := s.refillDeck d
  let k := s.deck d
  match k.cache with
  | [] => none
  | i :: rest =>
    let b : BufRef := ⟨d, i⟩
    let s := (s.setDeck d { k with cache := rest, owners := tput k.owners i o, last := tput k.last i o.part }).refillDeck d
    let s := if tget k.last i = some o.part then s else s.dramForget (s.bufAddr b) (s.bufAddr b + s.bufSize d)
    some (b, s.deckLevel d)

/-- How an allocation ends. -/
inductive Alloc where
  | got (b : BufRef) (s : State)
  /-- It waits (R402, R403). -/
  | wait (s : State)
  /-- Refused, DECK_DISABLED (R396). -/
  | disabled
  /-- A recovery allocation found the recovery pool empty (R405, R564). -/
  | empty

/-- A recovery allocation (R397, R405, R411): from a deck that is ready and is not rebuilt, the deck's reserve, then its available buffers, then the recovery deck. -/
def State.allocRecovery (s : State) (d : Nat) (o : Owner) : Alloc :=
  if !s.deckOn d then .disabled
  else if !s.rdB (F.dkStat_ready.at (dkBase d)) || s.rdB (F.dkStat_rebuilding.at (dkBase d)) then .wait s
  else
    let k := s.deck d
    let own := { o with kind := 3 }
    if 0 < k.resvFree then
      match (s.setDeck d { k with resvFree := k.resvFree - 1 }).takeBuf d own with
      | some (b, s) => .got b s
      | none => .empty
    else match s.takeBuf d own with
      | some (b, s) => .got b s
      | none =>
        let r := s.rd F.dkGCfg_recDeck
        if s.deckOn r && s.bufSize d ≤ s.bufSize r then
          match s.takeBuf r own with
          | some (b, s) => .got b s
          | none => .empty
        else .empty

/-- An ordinary allocation (R396, R398, R402, R403). -/
def State.alloc (s : State) (d : Nat) (live : Bool) (o : Owner) : Alloc :=
  if !s.deckOn d || s.isRecDeck d then .disabled
  else if !s.rdB (F.dkStat_ready.at (dkBase d)) || s.rdB (F.dkStat_rebuilding.at (dkBase d)) then .wait s
  else
    let level := s.rd (F.dkStat_level.at (dkBase d))
    let k := s.deck d
    if s.atQuota d o.part then
      if k.overQuota.contains o.part then .wait s
      else .wait ((s.setDeck d { k with overQuota := o.part :: k.overQuota }).logPart 0xC07 o.part .deck d)
    else if level = 3 || (level = 2 && !live) || k.available = 0 then .wait s
    else match s.takeBuf d o with
      | some (b, s) => .got b s
      | none => .wait s

/-- Puts a buffer whose last hold went back into its deck (R400, R405): the reserve refills first. -/
def State.putBack (s : State) (b : BufRef) : State :=
  let k := s.deck b.deck
  let k := { k with owners := tdel k.owners b.idx, cache := b.idx :: k.cache,
                    resvFree := min (s.rd (F.dkResv_resv.at (dkBase b.deck))) (k.resvFree + 1) }
  let k := { k with overQuota := k.overQuota.filter fun p => s.rd (F.dkQuota_quota.at (0x42000 + 0x40 * b.deck + 4 * p)) ≤ k.heldBy p }
  (s.setDeck b.deck k.spill).deckLevel b.deck

/-- Replaces the owner entry of an allocated buffer. -/
def State.setOwner (s : State) (b : BufRef) (o : Owner) : State :=
  let k := s.deck b.deck
  s.setDeck b.deck { k with owners := tput k.owners b.idx o }

/-- A return of the module that fails its checks (R408): the record names the command or the context, the refusal is counted, nothing else changes. -/
def State.badReturn (s : State) (b : BufRef) (h : Holder) : State :=
  let f := mkFault 0xC02 .deck b.deck (s.bufAddr b)
  (s.logFault (match h with
    | .cmd slot => { f with slot := some slot }
    | .ctx id => { f with ctx := some id, part := (tget s.ctxs id).map (·.part) }
    | .host => f)).inc (F.dkReject_rejected.at (dkBase b.deck)) 1

/-- Releases one hold of a holder; at no hold left the buffer returns (R400, R408). -/
def State.release (s : State) (b : BufRef) (h : Holder) : State :=
  match s.ownerOf b with
  | some o =>
    if o.holders.contains h then
      let o := { o with holders := o.holders.erase h }
      if o.holders.isEmpty then s.putBack b else s.setOwner b o
    else s.badReturn b h
  | none => s.badReturn b h

/-- Does a waiter come before another (R404)? -/
def Waiter.before (a b : Waiter) : Bool :=
  if a.recovery != b.recovery then a.recovery
  else if a.live != b.live then a.live
  else if a.live && a.deadline != b.deadline then b.deadline == noStamp || (a.deadline != noStamp && stLt a.deadline b.deadline)
  else a.order < b.order

/-- Allocations that wait in a deck come before another one (R404): it waits too, but not for one that waits only for its partition's quota (R402). [DEDUCED, log entry 95] -/
def State.deckQueue (s : State) (d : Nat) (w : Waiter) : Bool := (s.deck d).waiters.any fun x =>
  x.slot != w.slot && x.before w && match tget s.cmds x.slot with
    | some c => !s.atQuota d c.desc.part
    | none => false

/-- Producers held back at a deck's level (R403): non-LIVE ones at throttle, all at stop. -/
def State.deckHolds (s : State) (d : Nat) (live : Bool) : Bool :=
  let l := s.rd (F.dkStat_level.at (dkBase d))
  l == 3 || (l == 2 && !live)

/-- Takes one more hold on an allocated buffer; none where the count would pass 255 (R401). -/
def State.hold (s : State) (b : BufRef) (h : Holder) : Option State :=
  (s.ownerOf b).bind fun o => if 255 ≤ o.holders.length then none else some (s.setOwner b { o with holders := o.holders ++ [h] })

/-- Publication of a buffer (R400): its kind becomes published and the command's hold passes to the holders named; with none it returns. -/
def State.publishBuf (s : State) (b : BufRef) (slot : Nat) (dst : List Holder) : State :=
  match s.ownerOf b with
  | some o =>
    let hs := o.holders.erase (.cmd slot) ++ dst
    if hs.isEmpty then s.putBack b else s.setOwner b { o with kind := 2, holders := hs }
  | none => s

/-- Reclaims every hold of a partition's buffers that a test selects (R410); answers how many buffers were touched. -/
def State.reclaim (s : State) (p : Nat) (kinds : Nat → Bool) (sel : Holder → Bool) : State × Nat :=
  let todo := s.decks.flatMap fun e => (e.2.owners.filter fun o => o.2.part == p && kinds o.2.kind && o.2.holders.any sel).map fun o =>
    ((⟨e.1, o.1⟩ : BufRef), o.2)
  (todo.foldl (fun (s : State) (b, o) =>
    let hs := o.holders.filter fun h => !sel h
    let s := if hs.isEmpty then s.putBack b else s.setOwner b { o with holders := hs }
    s.inc (F.dkReject_reclaimed.at (dkBase b.deck)) 1) s, todo.length)

/-- The checks of a return of a buffer address (R407): the refusal code, or 0. -/
def State.returnCheck (s : State) (fn a : Nat) : Nat :=
  match s.bufAt a with
  | none => 0xC01
  | some b => match s.ownerOf b with
    | some o =>
      if o.part ≠ fn then 0xC0A
      else if a ≠ s.bufAddr b then 0xC03
      else if o.holders.contains .host then 0 else 0xC02
    | none => if a ≠ s.bufAddr b then 0xC03 else 0xC02

/-- A driver's return (R407). -/
def State.driverReturn (s : State) (fn a : Nat) : State :=
  let c := s.returnCheck fn a
  let s := s.wr (F.dkRetStat_code.fn fn) c
  match s.bufAt a with
  | none => (s.logPart c fn .deck 0 a).inc F.dkGStat_unmatched 1
  | some b =>
    if c = 0 then s.release b .host
    else (s.logPart c fn .deck b.deck a).inc (F.dkReject_rejected.at (dkBase b.deck)) 1

end Sys2Proof.Machine
end

