-- ==== Sys2Proof/Machine/CmdOps.lean ====
section
/-! DEFINITION. Compartments, commands in their slots, completion and audit records, and how a command is refused, dropped, ended, killed or lost (01, 08, 15, 19). -/

namespace Sys2Proof.Machine

/-! ### Compartments -/

/-- Key of a compartment from a descriptor's target byte (R463): boles 0 to 63, quads 64 to 79, groves 80 to 83, die 84. -/
def compOf (t : Nat) : Nat :=
  let g := bits t 2 2; let q := bits t 4 2; let b := bits t 6 2
  match t % 4 with
  | 0 => 16 * g + 4 * q + b
  | 1 => 64 + 4 * g + q
  | 2 => 80 + g
  | _ => 84

/-- Level of a compartment (R13). -/
def compLevel (k : Nat) : Nat := if k < 64 then 0 else if k < 80 then 1 else if k < 84 then 2 else 3

/-- Flat numbers of the boles of a compartment (R11). -/
def compBoles (k : Nat) : List Nat :=
  if k < 64 then [k]
  else if k < 80 then (List.range 4).map fun b => 4 * (k - 64) + b
  else if k < 84 then (List.range 16).map fun b => 16 * (k - 80) + b
  else List.range 64

/-- The members of a group, one level down. -/
def compMembers (k : Nat) : List Nat :=
  if k < 64 then []
  else if k < 80 then (List.range 4).map fun b => 4 * (k - 64) + b
  else if k < 84 then (List.range 4).map fun q => 64 + 4 * (k - 80) + q
  else (List.range 4).map fun g => 80 + g

/-- Commands in flight at most (R13). -/
def compLimit (k : Nat) : Nat := [64, 256, 1024, 4096].getD (compLevel k) 0

/-- Base of a grove controller's block (R28). -/
def cgBase (g : Nat) : Nat := 0x250000 + 0x4000 * g

/-- Physical index that serves a logical bole (R12, R20, R21). -/
def State.physOf (s : State) (n : Nat) : Nat :=
  let g := n / 16
  if s.rdB (F.spare_active.at (cgBase g)) && s.rd (F.spare_slot.at (cgBase g)) == n % 16 then 17 * g + 16 else 17 * g + n % 16

/-- Logical bole that a physical index serves. -/
def State.logOf (s : State) (p : Nat) : Option Nat :=
  let g := p / 17
  if p % 17 = 16 then (if s.rdB (F.spare_active.at (cgBase g)) then some (16 * g + s.rd (F.spare_slot.at (cgBase g))) else none)
  else if s.physOf (16 * g + p % 17) = p then some (16 * g + p % 17) else none

/-- Base of a compartment's block; a bole's is that of the physical bole that serves it. -/
def State.compBase (s : State) (k : Nat) : Nat :=
  if k < 64 then blBase (s.physOf k) else if k < 80 then 0x210000 + 0x4000 * (k - 64) else if k < 84 then cgBase (k - 80) else 0x260000

/-- A logical bole is online: it is not in the offline mask and its state reads online or standing in (R30, R31). -/
def State.boleOnline (s : State) (n : Nat) : Bool :=
  !(s.rd (F.offline_mask.at (cgBase (n / 16)))).testBit (n % 16) &&
    (let st := s.rd (F.status_state.at (blBase (s.physOf n))); st == 1 || st == 4)

/-- A logical bole is offline and has no stand-in (R19, R31). -/
def State.boleOff (s : State) (n : Nat) : Bool := (s.rd (F.offline_mask.at (cgBase (n / 16)))).testBit (n % 16)

/-- The owner mask of a partition (R26, R269). -/
def State.ownMask (s : State) (p : Nat) : Nat := s.rd2 (F.ptOwnLo_own.at (ptBase p)) (F.ptOwnHi_own.at (ptBase p))

/-- The partition owns every bole of the compartment (R270). -/
def State.owns (s : State) (p k : Nat) : Bool := (compBoles k).all (s.ownMask p).testBit

/-- An empty bole. -/
def Bole.new : Bole :=
  { ctxs := [], held := [], lastCtx := 0, spad := [], acc := [], accBanks := [], redAcc := [], wins := [], spadLive := [], accLive := []
    tiles := [], arrays := [], stats := [], plane := none, pendSig := [], mvpLast := none, vuLast := none, scrubFor := 0, diag := none
    ungating := [], draining := false, testing := false, ueWords := [], standFor := none, busyAt := none }

/-- The record of physical bole p. -/
def State.bole (s : State) (p : Nat) : Bole := tgetD s.boles p Bole.new

/-- Its grove's understory bole is being made ready to take the address of logical bole n (R23 step 3). -/
def State.preparing (s : State) (n : Nat) : Bool := (s.bole (17 * (n / 16) + 16)).standFor == some n

/-- Replaces the record of physical bole p. -/
def State.setBole (s : State) (p : Nat) (b : Bole) : State := { s with boles := tput s.boles p b }

/-- An empty Landing slice. -/
def Landing.new : Landing := ⟨[], [], [], [], [], []⟩

/-- The record of grove g's Landing slice. -/
def State.land (s : State) (g : Nat) : Landing := tgetD s.lands g Landing.new

/-- Replaces the record of grove g's Landing slice. -/
def State.setLand (s : State) (g : Nat) (l : Landing) : State := { s with lands := tput s.lands g l }

/-- An engine before its microcode is loaded. -/
def Engine.new : Engine := ⟨0, none, none, 0, 0, false, []⟩

/-- The record of engine e: decoders 0 to 3, encoders 4 and 5. -/
def State.engine (s : State) (e : Nat) : Engine := tgetD s.engines e Engine.new

/-- The active microcode bank (R577). -/
def Security.ucBank (x : Security) : Bank := if x.ucBankB then x.ucB else x.ucA

/-- Replaces the record of engine e. -/
def State.setEngine (s : State) (e : Nat) (x : Engine) : State := { s with engines := tput s.engines e x }

/-! ### Commands -/

/-- The command is dispatched and not committed or killed. -/
def Cmd.inFlight (c : Cmd) : Bool := c.phase == .running || c.phase == .saving || c.phase == .suspended

/-- The command's deadline has come (R45): what commits now is late. -/
def Cmd.late (c : Cmd) (now : Nat) : Bool := c.desc.deadline != noStamp && !stLt now c.desc.deadline

/-- Is a command in flight on a compartment: addressed to it, or with a share on one of its boles (R13)? -/
def Cmd.on (c : Cmd) (k : Nat) : Bool :=
  c.inFlight && c.desc.cls == 1 && (compOf c.desc.target == k ||
    (compLevel k < compLevel (compOf c.desc.target) && (compBoles k).any c.shares.contains))

/-- Commands in flight on a compartment (R30). -/
def State.inFlightOn (s : State) (k : Nat) : Nat := (s.cmds.filter fun e => e.2.on k).length

/-- Commands a partition has in their slots (R271). -/
def State.partInFlight (s : State) (p : Nat) : Nat := (s.cmds.filter fun e => e.2.desc.part == p).length

/-- Contexts a partition has open (R271). -/
def State.partContexts (s : State) (p : Nat) : Nat := (s.ctxs.filter fun e => e.2.part == p).length

/-- Replaces a command. -/
def State.setCmd (s : State) (slot : Nat) (c : Cmd) : State := { s with cmds := tput s.cmds slot c }

/-- Changes a command, if the slot holds one. -/
def State.modCmd (s : State) (slot : Nat) (f : Cmd → Cmd) : State := { s with cmds := tmod s.cmds slot f }

/-- Bytes of a completion record (R475). -/
def completionBytes (c : Cmd) (status code stamp result : Nat) : List Byte :=
  leBytes 2 (c.sq % 16384 + (if 16384 ≤ c.sq then 2 ^ 14 else 0)) ++ leBytes 2 code ++ leBytes 4 c.seq ++ leBytes 4 c.desc.step ++
    leBytes 1 c.desc.seedIdx ++ leBytes 1 status ++ leBytes 1 c.desc.tag ++ ([0] : List Byte) ++ leBytes 8 stamp ++ leBytes 8 result

/-- Bytes of an audit record (R316). -/
def State.auditBytes (s : State) (c : Cmd) (code : Nat) : List Byte :=
  let l := tget s.lists c.desc.op
  let standIn := (List.range 4).any fun g => c.usedBoles.testBit (17 * g + 16)
  leBytes 2 (c.sq % 16384) ++ leBytes 2 code ++ leBytes 4 c.seq ++
    leBytes 2 (if c.desc.cls = 1 then c.desc.op + (match l with | some x => x.level * 2 ^ 12 | none => 0) else 0) ++ ([0, 0] : List Byte) ++
    leBytes 4 (match l with | some x => if c.desc.cls = 1 then x.check else 0 | none => 0) ++
    leBytes 4 (s.rd F.idArithSig_sig) ++ leBytes 4 (s.rd F.idTimingSig_sig) ++ leBytes 4 c.desc.step ++ leBytes 1 c.desc.seedIdx ++
    leBytes 1 (min 255 c.attempts) ++ leBytes 1 ((maskList 68 c.usedBoles).length) ++
    leBytes 1 (b2n c.forced + 2 * b2n c.wasSuspended + 4 * b2n standIn + 8 * b2n c.degraded) ++ leBytes 8 c.seed ++ leBytes 4 c.epoch ++
    leBytes 4 c.cycles ++ leBytes 8 c.startAt ++ leBytes 8 s.now

/-- Writes the audit record of a completion, if the partition keeps them (R315, R316, R318, R319). -/
def State.audit (s : State) (c : Cmd) (code : Nat) : State :=
  let p := c.desc.part
  if !s.rdB (F.ptAuditCtl_en.at (ptBase p)) then s
  else
    let n := s.rd (F.ptAuditSize_size.at (ptBase p)) * 16
    let h := s.rd (F.auditHead_head.at (8 * p))
    if n = 0 then s
    else if (h + 1) % n = s.rd (F.auditTail_tail.at (8 * p)) then s.inc (F.ptAuditCtl_dropped.at (ptBase p)) 1
    else
      let a := s.rd2 (F.ptAuditBaseLo_base.at (ptBase p)) (F.ptAuditBaseHi_base.at (ptBase p)) + h * 64
      ((s.dramWrite p a (s.auditBytes c code)).getD s).wr (F.auditHead_head.at (8 * p)) ((h + 1) % n)

/-- Bytes of a write that leave through PCIe. -/
def outBytes (host : Bool) (n : Nat) : Nat := if host then n else 0

/-- Bytes written to the host are charged to a submission queue (R297). -/
def State.acctOut (s : State) (sq n : Nat) : State :=
  if n = 0 then s
  else
    let q := tgetD s.acct sq ⟨0, 0, 0, 0, 0, 0⟩
    { s with acct := tput s.acct sq { q with pcie := q.pcie + n } }

/-- Bytes that the completion of a command sends to the host. -/
def State.cqOut (s : State) (c : Cmd) : Nat := match (tget s.sqs c.sq).bind fun q => tget s.cqs q.cq with
  | some k => outBytes k.place.baseHost 32 + outBytes k.place.ptrHost 8
  | none => 0

/-- Writes a completion record and advances its CQ (R473 steps 3 and 4), then the audit record; answers whether the CQ's vector is due (R474). -/
def State.postCq (s : State) (c : Cmd) (status code result : Nat) : State × Bool :=
  match (tget s.sqs c.sq).bind fun q => (tget s.cqs q.cq).map fun k => (q.cq, k) with
  | none => (s, false)
  | some (n, k) =>
    let a := k.place.base + (k.prod % 2 ^ k.log2) * 32
    let s := s.queueWrite k.part a k.place.baseHost (completionBytes c status code s.now result)
    let p := (k.prod + 1) % 2 ^ 32
    let s := { s with cqs := tput s.cqs n { k with prod := p, reserved := k.reserved - 1, written := (k.written + 1) % 2 ^ 32 } }
    let s := s.queueWrite k.part k.place.ptr k.place.ptrHost (ptrBytes p)
    let s := s.acctOut c.sq (outBytes k.place.baseHost 32 + outBytes k.place.ptrHost 8)
    (s.audit c code, k.irqEn && !c.desc.noIrq)

/-- Sends the vector of the CQ of a command. -/
def State.cqVector (s : State) (c : Cmd) : State :=
  match (tget s.sqs c.sq).bind fun q => tget s.cqs q.cq with
  | some k => s.raiseVec k.part k.vector
  | none => s

/-- A completion on its own: record, producer index, audit record, vector (R473, R474). -/
def State.postCompletion (s : State) (c : Cmd) (status code result : Nat) : State :=
  let (s, v) := s.postCq c status code result
  if v then s.cqVector c else s

/-! ### Accounting -/

/-- Index of a command class's engine time counter (R297). -/
def engineIdx (cls : Nat) : Nat := [0, 0, 1, 2, 3, 3, 4, 5].getD cls 3

/-- Calibrated dynamic energy (R299). -/
def State.calibrated (s : State) (e : Nat) : Nat := e * s.rd F.acCalK_k / 65536

/-- ns that a share has run: the time since it started or was restored, and what it ran before (R208, R286). [DESIGN CHOICE, log entry 21] -/
def State.ctxNs (s : State) (x : IssueCtx) : Nat := x.ranNs + (if x.stopped then 0 else s.nsSince x.startAt)

/-- ns of that time whose ARITH cycles were gated (R520). -/
def State.ctxGated (s : State) (x : IssueCtx) : Nat := x.ranGated + (if x.stopped then 0 else s.pow.gatedNs - x.gatedAt)

/-- ARITH cycles that a context has counted; a gated cycle does not exist (R208, R520). [DESIGN CHOICE, log entry 21] -/
def State.ctxCycles (s : State) (c : IssueCtx) : Nat := (s.ctxNs c - s.ctxGated c) * 3 / 4

/-- The issue contexts that run shares of a command. -/
def State.ctxsOf (s : State) (slot : Nat) : List IssueCtx := s.boles.flatMap fun b => (b.2.ctxs.filter fun x => x.2.slot == slot).map (·.2)

/-- ns that the shares of a command have run which have not reported, those of suspended ones included: a kill charges them (R297). -/
def State.runningNs (s : State) (slot : Nat) (c : Cmd) : Nat :=
  ((s.ctxsOf slot).filter fun x => !x.reported).foldl (fun n x => n + s.ctxNs x) 0 + c.saved.foldl (fun n e => n + e.2.2.ranNs) 0

/-- Energy of events counted, in µJ / 65,536 (R299). -/
def actEnergy (l : Tab Nat) : Nat := l.foldl (fun n e => n + e.2 * Config.energyCoef e.1) 0

/-- The energy of work with no owner tag, by counts of the activities of R299 (R298). -/
def State.untagged (s : State) (l : Tab Nat) : State :=
  s.inc2 F.acUnattrLo_unattr F.acUnattrHi_unattr (s.calibrated (actEnergy l / 65536))

/-- Dynamic energy of an attempt (R299): counts times coefficients. [DESIGN CHOICE, log entry 13] -/
def Cmd.energy (c : Cmd) (d : Nat) : Nat :=
  (actEnergy (c.acts ++ [(0, c.dramRd + c.dramWr), (1, c.pcieIn), (2, c.skySent)]) + Config.energyLines d) / 65536

/-- A command's count of an activity event rises (R299). -/
def Cmd.act (c : Cmd) (k n : Nat) : Cmd := if n = 0 then c else { c with acts := tput c.acts k (tgetD c.acts k 0 + n) }

/-- Counts activity events of the command of a slot. -/
def State.act (s : State) (slot k n : Nat) : State := s.modCmd slot fun c => c.act k n

/-- Charges an attempt that ends, at commit or at kill (R297 to R299). [DESIGN CHOICE, log entry 13] -/
def State.charge (s : State) (slot : Nat) (c : Cmd) (killed : Bool) : State :=
  let p := c.desc.part
  let c := if killed then { c with ns := c.ns + s.runningNs slot c } else c
  let (d, s) := s.draw
  let e := s.calibrated (c.energy d)
  let s := s.acAdd p (8 * engineIdx c.desc.cls) c.ns
  let s := (((s.acAdd p 0x30 c.dramRd).acAdd p 0x38 c.dramWr).acAdd p 0x40 c.pcieIn).acAdd p 0x50 c.skySent
  let s := s.acAdd p 0x60 e
  let bole := c.desc.cls == 1
  let s := if killed then ((((if bole then s.acAdd p 0x68 c.ns else s).acAdd p 0x70 (c.dramRd + c.dramWr)).acAdd p 0x78 e).acAdd p 0x90 1)
    else s.acAdd p 0x88 1
  let q := tgetD s.acct c.sq ⟨0, 0, 0, 0, 0, 0⟩
  let q := { q with bole := q.bole + (if bole then c.ns else 0), media := q.media + (if bole then 0 else c.ns),
                    dram := q.dram + c.dramRd + c.dramWr, pcie := q.pcie + c.pcieIn, energy := q.energy + e,
                    rerun := q.rerun + (if killed && bole then c.ns else 0) }
  let s := { s with acct := tput s.acct c.sq q }
  if bole then
    c.shares.foldl (fun (s : State) k =>
      let b := s.compBase k
      let s := if killed then s.inc (F.acKill_killed.at b) 1 else s.inc (F.acCommit_committed.at b) 1
      s.inc2 (F.acEnergyLo_energy.at b) (F.acEnergyHi_energy.at b) (e / max 1 c.shares.length)) s
  else s

/-- A command with an attempt's charges cleared. -/
def Cmd.noCharge (c : Cmd) : Cmd := { c with ns := 0, dramRd := 0, dramWr := 0, pcieIn := 0, skySent := 0, acts := [] }

/-- Charges the attempt that a command has running, if it has one. -/
def State.chargeKilled (s : State) (slot : Nat) : State := match tget s.cmds slot with
  | some c => if c.inFlight then (s.charge slot c true).setCmd slot c.noCharge else s
  | none => s

/-- What stands in the save areas for boles on which no saved share is left goes (R288). -/
def State.trimSaved (s : State) : State :=
  { s with sched := { s.sched with saved := s.sched.saved.filter fun e => s.cmds.any fun c => c.2.saved.any fun x => x.1 == e.1 } }

/-! ### Windows -/

/-- Revokes the windows that a command opened: open, exhausted and expired ones (R176). -/
def revokeWins (slot : Nat) (w : Tab Win) : Tab Win :=
  w.map fun e => (e.1, if e.2.slot == slot && (e.2.state == 1 || e.2.state == 2 || e.2.state == 3) then { e.2 with state := 4 } else e.2)

/-- What a kill or the end of a command does to a bole (R86, R173, R224, R225, R233, R563): the contexts that run it go, and are held for its
re-run where `hold` says so (R560); its pending signals, statistics slots, tiles and windows go; its accumulator banks are released, and where no
other share runs its scratchpad banks are live no more (R283, R284) and the reduction accumulator is empty, so that a re-run begins as the first run did (R304). [DEDUCED, log entry 114] -/
def Bole.drop (b : Bole) (slot : Nat) (hold : Bool) : Bole :=
  let mine := (b.ctxs.filter fun e => e.2.slot == slot).map fun e => (e.1, slot)
  { b with
    ctxs := b.ctxs.filter fun e => e.2.slot != slot
    spadLive := if b.ctxs.any fun e => e.2.slot != slot then b.spadLive else []
    accLive := b.accLive.filter fun k => b.accBanks.any fun e => e.2.slot != slot && e.1 / 4 == k
    redAcc := if b.ctxs.any fun e => e.2.slot != slot then b.redAcc else []
    held := (b.held.filter fun h => h.2 != slot) ++ (if hold then mine ++ b.held.filter fun h => h.2 == slot else [])
    pendSig := b.pendSig.filter fun e => e.1 != slot
    stats := b.stats.filter fun e => e.2.slot != slot
    tiles := b.tiles.filter fun t => t.slot != slot
    accBanks := b.accBanks.filter fun e => e.2.slot != slot
    plane := b.plane.filter fun p => p.slot != slot
    wins := revokeWins slot b.wins }

/-- Host reads that nothing waits for any more: their tags stay in use and their data is discarded (R563). -/
def State.dropReads (s : State) (gone : HostUse → Bool) : State :=
  { s with ep := { s.ep with
    tags := tmap s.ep.tags fun (t : Tag) => if gone t.use then { t with use := .discard } else t
    waitq := s.ep.waitq.filter fun r => !gone r.use } }

/-- A host read is for a command slot. -/
def HostUse.ofSlot (slot : Nat) : HostUse → Bool
  | .cmdData n _ _ => n == slot
  | _ => false

/-- Host data that a command keeps over a kill: a batch has what it has fetched in its checkpoint (R357). -/
def Cmd.keptBufs (c : Cmd) : Tab HostBuf := if c.desc.cls = 4 then c.hostBufs.filter fun e => e.2.missing == 0 || e.2.code != 0 else []

/-- Discards what an attempt left (R221, R563): contexts, windows, private regions of fresh outputs, reduction entries, records and transfers. -/
def State.discardAttempt (s : State) (slot : Nat) (hold : Bool) : State :=
  match tget s.cmds slot with
  | none => s
  | some c =>
    let s := { s with boles := tmap s.boles fun (b : Bole) => b.drop slot hold }
    let s := { s with lands := tmap s.lands fun (l : Landing) => { l with wins := revokeWins slot l.wins } }
    let s := s.dropReads (HostUse.ofSlot slot)
    let s := { s with remote := s.remote.filter (fun r => r.slot != slot || 64 ≤ r.src), fills := s.fills.filter (fun f => f.slot != slot) }
    let s := { s with sky := { s.sky with xfers := s.sky.xfers.filter fun e => e.2.slot != slot } }
    let bufs := c.fresh.map (·.2) ++ c.reds.flatMap (·.bufs)
    let s := bufs.foldl (fun (s : State) b => s.release b (.cmd slot)) s
    s.setCmd slot { c with shares := [], unstarted := [], reported := [], ctlPc := [], divided := [], sets := [], ranks := [], divCtr := [], fresh := [],
                           extents := [], rings := [], reds := [], stored := [], sent := 0, drawn := [], code := 0, fault := none,
                           discarded := false, result := 0, ready := false, hostBufs := c.keptBufs, pics := [], verdict := none, waitDeck := none,
                           forced := false, newCtx := [], saved := [], savedAcc := [], instances := [], mapPic := none } |>.trimSaved

/-- Releases the holds a command has on published inputs (R400). -/
def State.releaseHolds (s : State) (slot : Nat) : State :=
  match tget s.cmds slot with
  | none => s
  | some c => (c.holds.foldl (fun (s : State) b => s.release b (.cmd slot)) s).modCmd slot fun c => { c with holds := [] }

/-- The slot is free again (R279): the command's record goes, with any wait of it in a deck and any engine job. -/
def State.freeSlot (s : State) (slot : Nat) : State :=
  { s with cmds := tdel s.cmds slot
           dram := { s.dram with addrChk := s.dram.addrChk.filter fun e => e.1 != slot }
           decks := tmap s.decks fun (k : Deck) => { k with waiters := k.waiters.filter fun w => w.slot != slot }
           engines := tmap s.engines fun (e : Engine) => { e with
             job := e.job.filter fun j => j.slot != slot
             aside := e.aside.filter fun j => j.slot != slot }
           boles := tmap s.boles fun (b : Bole) => { b with held := b.held.filter fun h => h.2 != slot } }

/-- Ends a command's slot with a completion of the given status and code, discarding everything staged (R160, R199, R276). -/
def State.finishSlot (s : State) (slot status code : Nat) (result : Nat := 0) : State :=
  match tget s.cmds slot with
  | none => s
  | some _ =>
    let s := ((s.chargeKilled slot).discardAttempt slot false).releaseHolds slot
    match tget s.cmds slot with
    | none => s
    | some c =>
      let s := if c.committed then s else s.postCompletion c status code result
      let s := if code = 0x302 then s.inc F.scLateCnt_count 1 else if code = 0x303 then s.inc F.scLateCnt_count2 1 else s
      s.freeSlot slot

/-- The command that waits for this one: the next of its SQ, with after = 1 (R468); or a mark in the queue where it is not fetched yet. [DEDUCED, log entry 24] -/
def State.afterOf (s : State) (sq seq : Nat) : Option Nat :=
  (s.cmds.find? fun e => e.2.sq == sq && e.2.seq == (seq + 1) % 2 ^ 32 && e.2.desc.after).map (·.1)

/-- The picture that a decode command's context would output by it: the next one after those of the decode commands before it (R278, R336). [DEDUCED, log entry 110] -/
def State.wouldOutput (s : State) (c : Cmd) : Option Nat :=
  if c.desc.cls = 2 && c.desc.op == 0 then (tget s.ctxs c.desc.ctx).map fun x =>
    (x.nextPic + (s.cmds.filter fun e => e.2.desc.cls == 2 && e.2.desc.op == 0 && e.2.desc.ctx == c.desc.ctx && e.2.order < c.order).length) % 2 ^ 32
  else none

/-- The commands that depend on a command (R34, R278, R327, R336, R468): the next of its queue with after = 1, and those that wait for the picture
which a decode command would output. [DEDUCED, log entry 110] -/
def State.dependents (s : State) (c : Cmd) : List Nat :=
  let pics : List Nat := match s.wouldOutput c with
    | none => []
    | some n =>
      let names (a : Nat) : Bool := bits a 50 3 == 6 && bits a 32 14 == c.desc.ctx && bits a 0 32 == n
      (s.cmds.filter fun e => e.2.phase == .waiting && e.2.desc.part == c.desc.part && e.2.desc.args.any names).map (·.1)
  (s.afterOf c.sq c.seq).toList ++ pics

/-- Where the next command of the queue is not fetched yet, the queue remembers that this one did not commit (R468). [DEDUCED, log entry 24] -/
def State.markBad (s : State) (c : Cmd) : State :=
  if (s.afterOf c.sq c.seq).isSome then s
  else { s with sqs := tmod s.sqs c.sq fun q => if q.head == (c.seq + 1) % 2 ^ 32 then { q with bad := [c.seq] } else q }

/-- Drops commands, with 0x0303, and those that depend on them in turn (R278, R468). -/
def State.dropAll : Nat → State → List Nat → State
  | 0, s, _ => s
  | _ + 1, s, [] => s
  | n + 1, s, slot :: l => match tget s.cmds slot with
    | none => s.dropAll n l
    | some c =>
      let more := s.dependents c
      (((s.logCmd 0x303 slot).finishSlot slot 3 0x303).markBad c).dropAll n (l ++ more)

/-- What the end of a media command without commit does besides: an encode context loses its stored motion field (R342, R345). -/
def State.endMedia (s : State) (c : Cmd) (status : Nat) : State :=
  if c.desc.cls = 3 && status == 4 then { s with ctxs := tmod s.ctxs c.desc.ctx fun x => { x with motion := false } } else s

/-- Ends a command without commit and drops those that depend on it: refused 2, dropped 3, ended 4 (R160, R198, R276, R278, R336, R468). -/
def State.endCmd (s : State) (slot status code : Nat) (result : Nat := 0) : State :=
  match tget s.cmds slot with
  | none => s
  | some c =>
    let more := s.dependents c
    ((((s.finishSlot slot status code result).markBad c).dropAll 8192 more).endMedia c status)

/-- A data fault of a command (R160): the fault is logged and the command ends, not re-run; after an uncorrectable read the completion carries
the data address (R372). [DEDUCED, log entry 90] -/
def State.dataFault (s : State) (slot code : Nat) (kind : SrcKind := .scheduler) (idx : Nat := 0) (d0 : Nat := 0) (d1 : Nat := 0) : State :=
  (s.logFault { mkFault code kind idx d0 d1 with slot := some slot, cls := .dataFault }).endCmd slot 4 code (if code = 0xB02 then d0 else 0)

/-- A refusal of a command: the fault is logged, nothing else changes, and the completion carries the code (R198). -/
def State.refuseCmd (s : State) (slot code : Nat) (d0 : Nat := 0) : State :=
  (s.logFault { mkFault code .scheduler 0 d0 0 with slot := some slot, cls := .refused }).endCmd slot 2 code

/-- Why a command is killed. -/
inductive KillWhy where
  /-- A contained fault (R552). -/
  | contained
  /-- Pre-emption (R283). -/
  | preempt
  /-- Clock loss, a stand-in drain, or any kill that R552 does not count. -/
  | uncounted
  deriving DecidableEq, Repr

/-- An informational code that a command's own work raises: logged once per command, and the first is the completion's code (R475). -/
def State.sayOnce (s : State) (slot code : Nat) (kind : SrcKind) (idx : Nat := 0) (d0 : Nat := 0) : State :=
  match tget s.cmds slot with
  | none => s
  | some c =>
    let s := if c.said.contains code then s else s.logCmd code slot kind idx d0
    s.modCmd slot fun c => { c with said := if c.said.contains code then c.said else c.said ++ [code], code := if c.code = 0 then code else c.code }

/-- Kills an attempt (R221, R233, R563): what it left is discarded, its slot and input holds stay, and it waits for its re-run; a command that
contained faults have killed FT_CFG.rerun_max times ends with RERUN_LIMIT instead (R552). -/
def State.killCmd (s : State) (slot : Nat) (why : KillWhy) : State :=
  match tget s.cmds slot with
  | none => s
  | some c =>
    if !c.inFlight then s
    else
      let kills := c.kills + (if why == .contained then 1 else 0)
      if why == .contained && max 2 (s.rd F.ftCfg_rerunMax) ≤ kills then
        (s.setCmd slot { c with kills := kills }).dataFault slot 0x363
      else
        let s := (s.chargeKilled slot).discardAttempt slot true
        let s := { s with engines := tmap s.engines fun (e : Engine) => { e with job := e.job.filter fun j => j.slot != slot } }
        let s := if why == .contained then s.wr F.ftStat_recovering 1 else s
        s.modCmd slot fun c => { c with phase := .killed, kills := kills, killedAt := if why == .contained then s.now else noStamp, rerun := true }

/-- Logs a contained fault about a command and kills it. -/
def State.containedKill (s : State) (slot code : Nat) (kind : SrcKind) (idx : Nat) (d0 : Nat := 0) (d1 : Nat := 0) : State :=
  (s.logFault { mkFault code kind idx d0 d1 with slot := some slot, cls := .contained, flags := 1 }).killCmd slot .contained

/-- Slots of the commands that have a share or a context on a physical bole, group commands included (R23 steps 1 and 2). -/
def State.slotsOn (s : State) (p : Nat) : List Nat :=
  (s.cmds.filter fun e => e.2.inFlight && (((s.bole p).ctxs.any fun x => x.2.slot == e.1) ||
    (match s.logOf p with | some n => e.2.shares.contains n | none => false))).map (·.1)

/-- Recovery ends when no killed command waits and no spare activation runs: the diagnosis and scrub of a stand-in, or the retraining of a subchannel (R557, R562). -/
def State.recheckRecovering (s : State) : State :=
  if (s.cmds.any fun e => e.2.phase == .killed) || (s.boles.any fun e => e.2.scrubFor == 1 || e.2.diag.isSome) || (s.dram.sub.any fun e => e.2.recovers) then s
  else s.wr F.ftStat_recovering 0

/-! ### Partition-fatal -/

/-- Kills every command of a partition without a re-run; with `post` each completes with status 5 and the code (R438, R566). -/
def State.loseCmds (s : State) (p code : Nat) (post : Bool) : State :=
  (s.cmds.filter fun e => e.2.desc.part == p).foldl (fun (s : State) (e : Nat × Cmd) =>
    let s := ((s.chargeKilled e.1).discardAttempt e.1 false).releaseHolds e.1
    let s := if post then s.postCompletion e.2 5 code 0 else s
    s.freeSlot e.1) s

/-- The owner tags that a partition's commands have on tally counters are cleared (R563). -/
def State.clearTally (s : State) (p : Nat) : State :=
  { s with lands := tmap s.lands fun (l : Landing) => { l with tally := tmap l.tally fun (t : Nat × Option (Nat × Nat)) =>
    (t.1, t.2.filter fun o => o.1 != p) } }

/-- A partition becomes partition-fatal (R563, R566): the fault is logged, its commands are lost, its buffers reclaimed, its contexts closed,
its counters' owner tags cleared, and FT_STAT.pfail set; a recovery of its commands is abandoned, others go on (R565). -/
def State.partitionFatal (s : State) (p code : Nat) (kind : SrcKind := .scheduler) (idx : Nat := 0) (d0 : Nat := 0) : State :=
  let s := s.logFault { mkFault code kind idx d0 0 with part := some p, cls := .partitionFatal }
  let s := s.loseCmds p code true
  let (s, n) := s.reclaim p (fun _ => true) (fun _ => true)
  let s := if n = 0 then s else s.logPart 0xC08 p .deck
  let s := { s with ctxs := s.ctxs.filter fun e => e.2.part != p }.clearTally p
  (s.wr F.ftStat_pfail (s.rd F.ftStat_pfail ||| 2 ^ p)).recheckRecovering

/-- Carries out the partition-fatal faults that refused queue writes have raised (R605). [DESIGN CHOICE, log entry 108] -/
def State.settleOne (s : State) (p : Nat) : State :=
  if (s.rd F.ftStat_pfail).testBit p then s else s.partitionFatal p 0xB07

/-- Bole p begins or ends a time in which at least one share runs on it (R302). -/
def State.busyOne (s : State) (p : Nat) : State :=
  let b := s.bole p
  match b.busyAt with
  | none => if b.ctxs.isEmpty then s else s.setBole p { b with busyAt := some s.now }
  | some t => if b.ctxs.isEmpty then
      (s.setBole p { b with busyAt := none }).inc2 (F.acBusyLo_busy.at (blBase p)) (F.acBusyHi_busy.at (blBase p)) (s.nsSince t)
    else s

/-- The busy times of all boles (R302). -/
def State.settleBusy (s : State) : State := (tkeys s.boles).foldl State.busyOne s

/-- Every refused queue write of the command just carried out takes its effect (R605). [DESIGN CHOICE, log entry 108] -/
def State.settleWrites (s : State) : State :=
  let due := s.sched.pfailDue
  let s := due.foldl State.settleOne { s with sched := { s.sched with pfailDue := [] } }
  { s with sched := { s.sched with pfailDue := [] } }

/-- What a function reports through LTR, in µs; none where it reports no requirement (R444). [DESIGN CHOICE, log entry 50] -/
def State.ltr (s : State) (fn : Nat) : Option Nat :=
  if !s.rdB (F.cfgDevCtl2_ltrEn.cfg 0) || !s.ep.linkUp || !s.fnExists fn || !s.fnD0 fn then none
  else if s.cmds.any fun e => e.2.desc.part == fn && e.2.inFlight && (match tget s.sqs e.2.sq with | some q => q.cls == 0 | none => false) then some 10
  else some 1000

/-- A function whose latency tolerance has changed reports it (R444); with LTR disabled or the link down nothing is sent. -/
def State.ltrOne (s : State) (fn : Nat) : State :=
  let r := s.ltr fn
  if r = tget s.ep.ltr fn then s
  else
    let s := if s.rdB (F.cfgDevCtl2_ltrEn.cfg 0) && s.ep.linkUp then s.emit (.ltr fn r) else s
    { s with ep := { s.ep with ltr := match r with
      | some us => tput s.ep.ltr fn us
      | none => tdel s.ep.ltr fn } }

/-- The latency tolerance of every function (R444). [DESIGN CHOICE, log entry 50] -/
def State.settleLtr (s : State) : State :=
  if !s.rdB (F.cfgDevCtl2_ltrEn.cfg 0) && s.ep.ltr.isEmpty then s else (List.range 16).foldl State.ltrOne s

/-- What is due at the end of every command (R302, R444, R605). [DESIGN CHOICE, log entry 108] -/
def State.settle (s : State) : State := s.settleWrites.settleBusy.settleLtr

/-- How a meaning ends: the next state, with refused queue writes and busy times settled. [DESIGN CHOICE, log entry 5; DESIGN CHOICE, log entry 108] -/
def finish (s : State) : Host.Outcome State Fault Refusal := .next s.settle

/-! ### Device stop -/

/-- A device-fatal stop (R553): the event is logged, every command is killed without completion, queue fetch ends and ready clears; a recovery is abandoned
(R565), and FT_DFAIL keeps the event that stopped the module. -/
def State.deviceStop (s : State) (code : Nat) (kind : SrcKind) (idx : Nat := 0) : State :=
  let s := s.logFault { mkFault code kind idx with cls := .deviceFatal }
  let s := (s.cmds.map (·.1)).foldl (fun (s : State) slot => (((s.chargeKilled slot).discardAttempt slot false).releaseHolds slot).freeSlot slot) s
  let s := if s.rdB F.ftStat_deviceFailed then s else s.wr F.ftDfail_code code
  ((s.wr F.glStatus_ready 0).wr F.ftStat_recovering 0).wr F.ftStat_deviceFailed 1

end Sys2Proof.Machine
end

