-- ==== Sys2Proof/Machine/BoleOps.lean ====
section
/-! DEFINITION. Bole service: spare map, offline mask, timing image, stand-ins, failed boles and scrubs (01, 03, 05, 09, 19). -/

namespace Sys2Proof.Machine

/-! ### The timing image (R308) -/

/-- Byte of BL_ARR_SPARE that describes an array (R125): row, in_use, ustory_bad, retired. -/
def State.spareByte (s : State) (p a : Nat) : Nat := bits (s.reg (blBase p + 0x2010 + 4 * (a / 4))).toNat (8 * (a % 4)) 8

/-- Sets that byte. -/
def State.setSpareByte (s : State) (p a v : Nat) : State :=
  let o := blBase p + 0x2010 + 4 * (a / 4)
  s.setReg o (BitVec.ofNat 32 (setBits (s.reg o).toNat (8 * (a % 4)) 8 v))

/-- The array has its understory row in service as a spare for a data row. -/
def State.arraySpare (s : State) (p a : Nat) : Bool := (s.spareByte p a).testBit 5 && !(s.spareByte p a).testBit 6

/-- The array is checked by residue (R101, R125): its understory row is in use or out of service. -/
def State.arrayResidue (s : State) (p a : Nat) : Bool := (s.spareByte p a).testBit 5 || (s.spareByte p a).testBit 6

/-- The slow bit of a logical bole. -/
def State.slow (s : State) (n : Nat) : Bool := (List.range 16).any (s.arraySpare (s.physOf n))

/-- Grove g's 24 bits of the image. -/
def State.imageGrove (s : State) (g : Nat) : Nat :=
  let b := cgBase g
  let act := s.rd (F.spare_active.at b)
  act + (if act = 1 then s.rd (F.spare_slot.at b) * 2 else 0) + s.rd (F.offline_mask.at b) * 32

/-- Words 1 to 5 of the timing image. -/
def State.image (s : State) : List Nat :=
  let f := (List.range 4).foldl (fun n g => n + s.imageGrove g * 2 ^ (24 * g)) 0
  [listMask ((List.range 32).filter s.slow), listMask ((List.range 32).filter fun n => s.slow (32 + n)), bits f 0 32, bits f 32 32, bits f 64 32]

/-- Rewrites image and signature after a change; an image that stays as it was changes nothing (R102, R308). -/
def State.retime (s : State) : State :=
  let im := s.image
  if (List.range 5).all fun i => s.rd (F.idTimingImg_img.at (4 * i)) == im.getD i 0 then s
  else
    let s := (im.zipIdx).foldl (fun (s : State) (v, i) => s.wr (F.idTimingImg_img.at (4 * i)) v) s
    let all := s.rd F.idTimingImg0_img :: im
    (s.wr F.idTimingSig_sig (crc32 (all.flatMap (leBytes 4)))).inc F.idTimingGen_gen 1

/-- A grove's spare map or offline mask has changed (R31, R308). -/
def State.mapChanged (s : State) (g : Nat) : State := (s.inc (F.spare_gen.at (cgBase g)) 1).retime

/-! ### Contents -/

/-- A bole with its memories zero, as a scrub leaves it (R172). -/
def Bole.zeroed (b : Bole) : Bole :=
  { b with spad := [], acc := [], accBanks := [], redAcc := [], wins := [], spadLive := [], accLive := [], tiles := [], stats := [], plane := none
           pendSig := [], ueWords := [] }

/-! ### Failures and stand-ins -/

/-- A logical bole goes offline without a stand-in (R21, R567): its group is degraded. -/
def State.goOffline (s : State) (n : Nat) : State :=
  let g := n / 16
  let p := s.physOf n
  let s := s.wr (F.offline_mask.at (cgBase g)) (s.rd (F.offline_mask.at (cgBase g)) ||| 2 ^ (n % 16))
  let s := s.wr (F.status_state.at (blBase p)) 0
  ((s.mapChanged g).log 0x364 .bole p)

/-- The grove's understory bole is in reserve, fit and not being prepared (R21). -/
def State.spareFree (s : State) (g : Nat) : Bool :=
  s.rdB (F.spare_spareOk.at (cgBase g)) && !s.rdB (F.spare_active.at (cgBase g)) && (s.bole (17 * g + 16)).scrubFor == 0

/-- The understory bole is scrubbed to take the address of logical bole n (R23 step 3). -/
def State.prepareSpare (s : State) (n : Nat) : State :=
  let u := 17 * (n / 16) + 16
  let s := s.setBole u { s.bole u with scrubFor := 1, standFor := some n }
  (s.wr (F.status_state.at (blBase u)) 2).wr (F.scrub_busy.at (blBase u)) 1

/-- The OWNER and EPOCH that the block of logical bole n shows (R24, R26, R27, R30, R293), after its address has moved from the block at `old`: those of
the live owner masks and the current epoch; nothing owns it during a hand-over, and until it switches to a new epoch it keeps what it had. -/
def State.showOwner (s : State) (n old : Nat) : State :=
  let b := blBase (s.physOf n)
  if s.sched.switching.contains n then
    (s.wr (F.epoch_epoch.at b) (s.rd (F.epoch_epoch.at old))).setReg (F.owner_owned.at b).off (s.reg (F.owner_owned.at old).off)
  else
    let s := s.wr (F.epoch_epoch.at b) (s.rd F.scEpochCur_epoch)
    if s.sched.handover.any fun h => h.1 == n then s.wr (F.owner_owned.at b) 0
    else match (List.range 16).find? fun p => (s.ownMask p).testBit n with
      | some p => (s.wr (F.owner_partition.at b) p).wr (F.owner_owned.at b) 1
      | none => s.wr (F.owner_owned.at b) 0

/-- The understory bole takes the address of logical bole n (R23 step 4, R24, R31): its owner and epoch are those of that address. -/
def State.standIn (s : State) (n : Nat) : State :=
  let g := n / 16
  let u := 17 * g + 16
  let old := blBase (s.physOf n)
  let s := if s.rd (F.status_state.at old) = 5 then s else s.wr (F.status_state.at old) 0
  let s := (s.wr (F.status_state.at (blBase u)) 4)
  let s := (s.wr (F.spare_active.at (cgBase g)) 1).wr (F.spare_slot.at (cgBase g)) (n % 16)
  let s := s.wr (F.offline_mask.at (cgBase g)) (s.rd (F.offline_mask.at (cgBase g)) &&& (2 ^ 16 - 1 - 2 ^ (n % 16)))
  let s := (s.showOwner n old).wr (F.owner_owned.at old) 0
  let s := s.setBole u { s.bole u with scrubFor := 0, standFor := none }
  ((s.mapChanged g).logFault { mkFault 0x360 .bole u with flags := 2 })

/-- A service request ends with a result (R567, R568, R570). -/
def State.serviceDone (s : State) (p result : Nat) : State :=
  let s := s.setBole p { s.bole p with draining := false, testing := false, scrubFor := 0 }
  (((s.wr F.ftSvcStat_result result).wr F.ftSvcStat_busy 0).inc F.ftSvcStat_count 1).log 0x365 .bole p

/-- A physical bole fails (R21, R23, R95): it is fenced, its commands are killed, and its grove's understory bole is prepared, or the address goes
offline. -/
def State.failBoleOnly (s : State) (p : Nat) : State :=
  let g := p / 17
  let n := s.logOf p
  let s := s.wr (F.status_state.at (blBase p)) 5
  let s := (s.slotsOn p).foldl (fun (s : State) slot => s.killCmd slot .contained) s
  let s := s.setBole p { s.bole p with diag := none, scrubFor := 0, standFor := none }
  let s := s.wr (F.arrDiag_busy.at (blBase p)) 0
  if p % 17 = 16 then
    let s := s.wr (F.spare_spareOk.at (cgBase g)) 0
    match n with
    | some n =>
      let s := (s.wr (F.spare_active.at (cgBase g)) 0).showOwner n (blBase p)
      ((s.wr (F.owner_owned.at (blBase p)) 0).goOffline n).wr (F.status_state.at (blBase p)) 5
    | none => s.mapChanged g
  else match n with
    | some n => if s.spareFree g then s.prepareSpare n else if s.boleOff n then s else s.goOffline n |>.wr (F.status_state.at (blBase p)) 5
    | none => s

/-- A physical bole fails; a service request that drains or tests it ends with that (R567, R568). -/
def State.failBole (s : State) (p : Nat) : State :=
  let busy := (s.bole p).draining || (s.bole p).testing
  let s := s.failBoleOnly p
  if busy then s.serviceDone p (if (s.bole (17 * (p / 17) + 16)).standFor.isSome then 0 else 5) else s

/-- A bole that has passed its self-test and its scrub comes back into service (R568). [DEDUCED, log entry 43; DEDUCED, log entry 94] -/
def State.returnBole (s : State) (p : Nat) : State :=
  let g := p / 17
  let mask := s.rd (F.offline_mask.at (cgBase g))
  let active := s.rdB (F.spare_active.at (cgBase g))
  if p % 17 = 16 then
    let s := s.serviceDone p 0
    match if active then none else (maskList 16 mask).head? with
    | some k => (s.wr (F.spare_spareOk.at (cgBase g)) 1).standIn (16 * g + k)
    | none => ((s.wr (F.status_state.at (blBase p)) 3).wr (F.spare_spareOk.at (cgBase g)) 1).mapChanged g
  else if active && s.rd (F.spare_slot.at (cgBase g)) == p % 17 then ({ s.wr (F.status_state.at (blBase p)) 0 with boot := { s.boot with backOn := s.boot.backOn ++ [g] } }).serviceDone p 4
  else
    let n := 16 * g + p % 17
    let s := s.wr (F.offline_mask.at (cgBase g)) (mask &&& (2 ^ 16 - 1 - 2 ^ (n % 16)))
    let s := (s.wr (F.status_state.at (blBase p)) 1).mapChanged g
    (s.showOwner n (blBase p)).serviceDone p 0

/-- A bole's hand-over ends (R27 step 3): its OWNER shows the new partition, and slices of the old one go. -/
def State.handOverEnds (s : State) (n : Nat) : State :=
  let f := F.status_state.at (blBase (s.physOf n))
  let s := if s.rd f = 2 then s.wr f (if s.physOf n % 17 = 16 then 4 else 1) else s
  let s := { s with sched := { s.sched with
    handover := s.sched.handover.filter fun h => h.1 != n
    handed := s.sched.handed.filter (· != n)
    slices := s.sched.slices.filter fun e => !(compBoles e.1).contains n } }
  s.showOwner n (blBase (s.physOf n))

/-- The hand-overs of a grove that changes hands whole end, once its boles and its slice are scrubbed (R27, R190). -/
def State.groveEnds (s : State) (g : Nat) : State :=
  if (tget s.sched.groveMoves g).isSome && (s.land g).scrubbing.isEmpty && (List.range 16).all fun i => s.sched.handed.contains (16 * g + i) then
    (List.range 16).foldl (fun (s : State) i => s.handOverEnds (16 * g + i)) { s with sched := { s.sched with groveMoves := tdel s.sched.groveMoves g } }
  else s

/-- Segments of grove g's slice that a partition owns, and tally groups as 16 + n (R186, R187). -/
def State.sliceOwned (s : State) (g p : Nat) : List Nat :=
  let part (off i : Nat) : Nat := bits (s.reg (cgBase g + off + 4 * (i / 8))).toNat (4 * (i % 8)) 4
  ((maskList 16 (s.rd (F.lndOwned_mask.at (cgBase g)))).filter fun i => part 0x1100 i == p) ++
    ((maskList 16 (s.rd (F.tallyOwned_mask.at (cgBase g)))).filter fun i => part 0x1110 i == p).map (· + 16)

/-- A bole in hand-over is drained and clean (R27 steps 1 and 2): its hand-over ends, or in a grove that changes hands whole waits for the slice, whose
scrub begins when the last of its boles is clean. -/
def State.handOverDone (s : State) (n : Nat) : State :=
  let g := n / 16
  match tget s.sched.groveMoves g with
  | none => s.handOverEnds n
  | some old =>
    let s := { s with sched := { s.sched with handed := (s.sched.handed.filter (· != n)) ++ [n] } }
    if old ≠ 0 && (List.range 16).all fun i => s.sched.handed.contains (16 * g + i) then
      (s.setLand g { s.land g with scrubbing := s.sliceOwned g (old - 1) }).groveEnds g
    else s.groveEnds g

/-- The scrub of a bole finds a word that is not zero (R172, R565). [DEDUCED, log entry 94] -/
def State.scrubFail (s : State) (p : Nat) : State :=
  let b := s.bole p
  let n := s.logOf p
  let s := (s.wr (F.scrub_fail.at (blBase p)) 1).log 0x509 .bole p
  match b.standFor, b.scrubFor, n with
  | some n, _, _ => ((s.failBole p).goOffline n).recheckRecovering
  | none, 3, _ => ((s.failBoleOnly p).serviceDone p 3).recheckRecovering
  | none, 2, some n => ((s.failBole p).handOverDone n).recheckRecovering
  | _, _, _ => (s.failBole p).recheckRecovering

/-- Energy of a scrub, which no partition is charged for: every line is written and read back (R172, R298). [DESIGN CHOICE, log entry 13] -/
def State.scrubEnergy (s : State) (lines : Nat) : State :=
  s.untagged [(4, 2 * lines)]

end Sys2Proof.Machine
end

