-- ==== Sys2Proof/Machine/Numerics.lean ====
section
/-! DEFINITION. Number formats, exact values, the one FP32 rounding, narrowing, requantization, block scales and the draw generator (04). -/

namespace Sys2Proof.Machine

/-! ### Formats (R126 to R129) -/

/-- Bits of an element of a format code. -/
def fmtBits (f : Nat) : Nat := [8, 8, 4, 8, 8, 16, 16, 32, 32, 8].getD f 0

/-- A format code that is not reserved (R126). -/
def fmtOk (f : Nat) : Bool := f < 10

/-- The integer formats. -/
def fmtInt (f : Nat) : Bool := f < 3 || f == 8

/-- Mantissa width and bias of a float format (R126). -/
def fmtMB (f : Nat) : Nat × Int := match f with
  | 3 => (3, 7) | 4 => (2, 15) | 5 => (7, 127) | 6 => (10, 15) | _ => (23, 127)

/-- Code of the largest finite magnitude (table Float special encodings). -/
def fmtMax (f : Nat) : Nat := match f with
  | 3 => 0x7E | 4 => 0x7B | 5 => 0x7F7F | 6 => 0x7BFF | _ => 0x7F7FFFFF

/-- Canonical NaN (table Float special encodings). -/
def fmtNaN (f : Nat) : Nat := match f with
  | 3 => 0x7F | 4 => 0x7E | 5 => 0x7FC0 | 6 => 0x7E00 | _ => 0x7FC00000

/-- Code of infinity in a format that has one. -/
def fmtInf (f : Nat) : Nat := match f with
  | 4 => 0x7C | 5 => 0x7F80 | 6 => 0x7C00 | _ => 0x7F800000

/-- Smallest and largest value of an integer format. -/
def fmtRange (f : Nat) : Int × Int := match f with
  | 0 => (-128, 127) | 1 => (0, 255) | 2 => (-8, 7) | _ => (-2147483648, 2147483647)

/-- An exact value: NaN, a signed infinity, or (-1)^neg × m × 2^e. -/
inductive FV where
  | nan
  | inf (neg : Bool)
  | fin (neg : Bool) (m : Nat) (e : Int)
  deriving DecidableEq, Repr

/-- The exact value of an integer. -/
def FV.ofInt (i : Int) : FV := .fin (decide (i < 0)) i.natAbs 0

/-- The value of a code of a format (R127 to R129). -/
def FV.dec (f c : Nat) : FV :=
  if fmtInt f then (if f = 1 then .fin false (c % 256) 0 else .ofInt (sgn (fmtBits f) c))
  else if f = 9 then (if c % 256 = 255 then .nan else .fin false 1 ((c % 256 : Nat) - 127))
  else
    let (mw, bias) := fmtMB f
    let w := fmtBits f
    let neg := c.testBit (w - 1)
    let x := bits c mw (w - 1 - mw)
    let m := bits c 0 mw
    let top := 2 ^ (w - 1 - mw) - 1
    if f = 3 then (if x = top && m = 7 then .nan else if x = 0 then .fin neg m (1 - bias - mw) else .fin neg (m + 2 ^ mw) (x - bias - mw))
    else if x = top then (if m = 0 then .inf neg else .nan)
    else if x = 0 then .fin neg m (1 - bias - mw)
    else .fin neg (m + 2 ^ mw) (x - bias - mw)

/-- A value whose magnitude is zero. -/
def FV.isZero : FV → Bool
  | .fin _ 0 _ => true
  | _ => false

/-- A subnormal operand of an FP32 operation of the VU is taken as zero of the same sign (R130). -/
def FV.flush : FV → FV
  | .fin n m e => if m ≠ 0 && (Nat.log2 m : Int) + e < -126 then .fin n 0 0 else .fin n m e
  | v => v

/-- The value of an FP32 word as the VU reads it. -/
def FV.vu (w : Word) : FV := (FV.dec 7 w.toNat).flush

/-- Exact product (R132, R133). -/
def FV.mul : FV → FV → FV
  | .nan, _ => .nan
  | _, .nan => .nan
  | .inf a, .inf b => .inf (a != b)
  | .inf a, .fin b m _ => if m = 0 then .nan else .inf (a != b)
  | .fin a m _, .inf b => if m = 0 then .nan else .inf (a != b)
  | .fin a m e, .fin b n f => .fin (a != b) (m * n) (e + f)

/-- Exact sum (R131, R133). -/
def FV.add : FV → FV → FV
  | .nan, _ => .nan
  | _, .nan => .nan
  | .inf a, .inf b => if a = b then .inf a else .nan
  | .inf a, .fin .. => .inf a
  | .fin .., .inf b => .inf b
  | .fin a m e, .fin b n f =>
    let g := min e f
    let x : Int := (m <<< (e - g).toNat : Nat)
    let y : Int := (n <<< (f - g).toNat : Nat)
    let z := (if a then -x else x) + (if b then -y else y)
    if z = 0 then .fin (a && b) 0 0 else .fin (decide (z < 0)) z.natAbs g

/-- Sign change. -/
def FV.neg : FV → FV
  | .nan => .nan
  | .inf a => .inf (!a)
  | .fin a m e => .fin (!a) m e

/-- Magnitude. -/
def FV.abs : FV → FV
  | .nan => .nan
  | .inf _ => .inf false
  | .fin _ m e => .fin false m e

/-- Is one value less than another? A NaN is less than nothing. -/
def FV.lt : FV → FV → Bool
  | .nan, _ => false
  | _, .nan => false
  | .inf a, .inf b => a && !b
  | .inf a, .fin .. => a
  | .fin .., .inf b => !b
  | .fin a m e, .fin b n f =>
    let g := min e f
    let x : Int := (m <<< (e - g).toNat : Nat)
    let y : Int := (n <<< (f - g).toNat : Nat)
    decide ((if a then -x else x) < (if b then -y else y))

/-- The one rounding of FP32 results (R131): truncation to 24 significant bits, saturation, flush of what lies below 2^-126. -/
def FV.to32 : FV → Word
  | .nan => 0x7FC00000
  | .inf n => BitVec.ofNat 32 (0x7F800000 + b2n n * 2 ^ 31)
  | .fin n m e =>
    let s := b2n n * 2 ^ 31
    if m = 0 then BitVec.ofNat 32 s
    else
      let k := Nat.log2 m
      let x : Int := k + e
      if 127 < x then BitVec.ofNat 32 (s + 0x7F7FFFFF)
      else if x < -126 then BitVec.ofNat 32 s
      else
        let q := if k ≤ 23 then m <<< (23 - k) else m >>> (k - 23)
        BitVec.ofNat 32 (s + (x + 126).toNat * 2 ^ 23 + q)

/-- FP32 addition of two words as an array accumulates them. -/
def fadd (a b : Word) : Word := ((FV.dec 7 a.toNat).add (FV.dec 7 b.toNat)).to32

/-! ### Narrowing (R135 to R137, R142) -/

/-- Mode 1 of R142 on a magnitude of `m` with `d` discarded bits: the truncation, or one step more. -/
def roundMag (mode : Bool) (u m d : Nat) : Nat :=
  let t := m >>> d
  if !mode then t
  else
    let w := min d 32
    let f := (m % 2 ^ d) >>> (d - w)
    if u >>> (32 - w) < f then t + 1 else t

/-- What narrowing one element gives: its code and what the statistics count (R156). -/
structure Narrow where
  code : Nat
  hi : Bool := false
  lo : Bool := false
  nan : Bool := false
  deriving DecidableEq, Repr

/-- Clamps an integer to a range and says on which side it lay. -/
def clampTo (f : Nat) (v : Int) : Narrow :=
  let (lo, hi) := fmtRange f
  { code := wrapN (fmtBits f) (max lo (min hi v)), hi := decide (hi < v), lo := decide (v < lo) }

/-- Narrowing of an exact value (R130, R136, R137): `u` is the element's draw in mode 1. To BF16 it never gives a subnormal, but zero of the same sign. -/
def narrow (f : Nat) (mode : Bool) (u : Nat) (v : FV) : Narrow :=
  if f = 7 then { code := v.to32.toNat }
  else if fmtInt f then
    let (lo, hi) := fmtRange f
    match v with
    | .nan => { code := 0, nan := true }
    | .inf n => { code := wrapN (fmtBits f) (if n then lo else hi), hi := !n, lo := n }
    | .fin n m e =>
      let q : Nat := if 0 ≤ e then m <<< e.toNat else roundMag mode u m (-e).toNat
      clampTo f (if n then -(q : Int) else q)
  else
    let (mw, bias) := fmtMB f
    let s := 2 ^ (fmtBits f - 1)
    match v with
    | .nan => { code := fmtNaN f, nan := true }
    | .inf n => if f = 3 then { code := fmtNaN 3, hi := !n, lo := n } else { code := fmtInf f + b2n n * s }
    | .fin n m e =>
      if m = 0 then { code := b2n n * s }
      else
        let g := max ((Nat.log2 m : Int) + e) (1 - bias) - mw
        let q := if g ≤ e then m <<< (e - g).toNat else roundMag mode u m (g - e).toNat
        let c := (g - (1 - bias - mw)).toNat * 2 ^ mw + q
        let c := if f = 5 && c < 2 ^ mw then 0 else c
        let past := decide (fmtMax f < c)
        { code := min c (fmtMax f) + b2n n * s, hi := past && !n, lo := past && n }

/-- Every value of a format has its exact value in another (R126, R128): writing it there is no narrowing step. -/
def fmtHolds (fo fi : Nat) : Bool :=
  fo == fi || match fi with
    | 0 => fo ≥ 5
    | 1 => fo ≥ 5
    | 2 => fo == 0 || fo ≥ 3
    | 3 => fo == 5 || fo == 6 || fo == 7
    | 4 => fo == 5 || fo == 6 || fo == 7
    | 5 => fo == 7
    | 6 => fo == 7
    | _ => false

/-! ### Functions of the vector unit (R120) -/

/-- e^x × 2^320 for a finite x of magnitude below 128, by the exponential series of x / 256 squared eight times. -/
def expFixed (neg : Bool) (m : Nat) (e : Int) : Nat :=
  let x : Int := (m <<< (e + 312).toNat : Nat) >>> (-(e + 312)).toNat
  let x : Int := if neg then -x else x
  let y := ((List.range 48).foldl (fun (r : Int × Int) (n : Nat) => let t := r.2 * x / (2 ^ 320 * ((n : Int) + 1)); (r.1 + t, t)) ((2 ^ 320 : Int), (2 ^ 320 : Int))).1
  (List.range 8).foldl (fun (v : Nat) _ => v * v / 2 ^ 320) y.toNat

/-- The exact result of a function operation on a finite operand inside its range, rounded to FP32 (R120, R131). -/
def funcExact (vop : Nat) (n : Bool) (m : Nat) (e : Int) : Word :=
  (match vop with
  | 0x30 => FV.fin false (expFixed n m e) (-320)
  | 0x31 => FV.fin n (2 ^ 400 / m) (-400 - e)
  | 0x32 =>
    let h := e / 2
    FV.fin false (2 ^ 400 / Nat.sqrt (m * 2 ^ (e - 2 * h).toNat * 2 ^ 400)) (-200 - h)
  | _ => if 7 ≤ (Nat.log2 m : Int) + e then FV.fin false (2 ^ 24 - 1) (-24) else FV.fin false (2 ^ 1200 / (2 ^ 320 + expFixed (!n) m e)) (-880)).to32

/-- Units in the last place that the result of a function may lie off the exact one (table Function accuracy). -/
def funcUlp (vop : Nat) : Nat := if vop = 0x31 ∨ vop = 0x32 then 1 else 2

/-- The result inside a function's range (R120, R121): within the function's bound of the exact result, by a fixed map from the operand that is free inside
that bound; an output that would be subnormal is zero of the same sign. [DEDUCED, log entry 116] -/
def funcResult (vop : Nat) (n : Bool) (m : Nat) (e : Int) (x : Word) : Word :=
  let r := (funcExact vop n m e).toNat
  let sgn := r / 2 ^ 31 * 2 ^ 31
  let b := funcUlp vop
  let v := r % 2 ^ 31 + Config.vecUlp vop x % (2 * b + 1) - b
  BitVec.ofNat 32 (sgn + (if v < 0x800000 then 0 else min v 0x7F7FFFFF))

/-! ### Requantization (R138 to R141) -/

/-- A requantization parameter record. -/
structure Requant where
  mult : Int
  bias : Int
  shift : Nat
  mode : Bool
  zp : Int
  lo : Int
  hi : Int
  deriving DecidableEq, Repr

/-- A record of 16 bytes for an output format, or none where it is invalid (R138, R139). -/
def Requant.of (f : Nat) (b : List Byte) : Option Requant :=
  let n := field b 0 16
  let (rlo, rhi) := fmtRange f
  let bound (x : Nat) : Int := if f = 1 then x else sgn 8 x
  let r : Requant := ⟨sgn 32 (bits n 0 32), sgn 32 (bits n 32 32), bits n 64 6, n.testBit 70, sgn 16 (bits n 72 16), bound (bits n 88 8),
    bound (bits n 96 8)⟩
  if n.testBit 71 || bits n 104 24 ≠ 0 || r.zp < rlo || rhi < r.zp || r.lo < rlo || rhi < r.lo || r.hi < rlo || rhi < r.hi || r.hi < r.lo
  then none else some r

/-- R140, with the statistics of R156: clipping is by the format's range, before the activation bounds. -/
def requant (f : Nat) (r : Requant) (u : Nat) (acc : Word) : Narrow :=
  let p := (acc.toInt + r.bias) * r.mult
  let q := roundMag r.mode u p.natAbs r.shift
  let v := (if p < 0 then -(q : Int) else q) + r.zp
  let c := clampTo f v
  { c with code := wrapN (fmtBits f) (max r.lo (min r.hi v)) }

/-! ### The generator (R143) -/

/-- Rotation of a 32-bit word to the left. -/
def rotl (x n : Nat) : Nat := ((x <<< n) ||| (x >>> (32 - n))) % 2 ^ 32

/-- Rounds of the generator. -/
def drawRounds : Nat → Nat → Nat → Nat → Nat → Nat → Nat → Nat
  | 0, _, _, a, _, c, _ => a ^^^ c
  | n + 1, k0, k1, a, b, c, d =>
    let a := (a + (b ^^^ k0)) % 2 ^ 32
    let d := rotl (d ^^^ a) 16
    let c := (c + (d ^^^ k1)) % 2 ^ 32
    let b := rotl (b ^^^ c) 12
    let a := (a + b) % 2 ^ 32
    let d := rotl (d ^^^ a) 8
    let c := (c + d) % 2 ^ 32
    let b := rotl (b ^^^ c) 7
    drawRounds n ((k0 + 0x6A5D39E1) % 2 ^ 32) ((k1 + 0x2F9B1C47) % 2 ^ 32) a b c d

/-- The draw of R143. -/
def drawOf (seed step tid idx : Nat) : Nat :=
  drawRounds 8 (seed % 2 ^ 32) (seed / 2 ^ 32 % 2 ^ 32) (idx % 2 ^ 32) (bits idx 32 16) tid step

/-- Index of element p of a VEC under an element-index record (R215). -/
structure ElemRec where
  tid : Nat
  base : Nat
  rowlen : Nat
  stride : Nat
  deriving DecidableEq, Repr

/-- The record from its 16 bytes; none where rowlen is 0. -/
def ElemRec.of (b : List Byte) : Option ElemRec :=
  let n := field b 0 16
  if bits n 80 16 = 0 then none else some ⟨bits n 0 32, bits n 32 48, bits n 80 16, bits n 96 32⟩

/-- The element index (R215), modulo 2^48. -/
def ElemRec.idx (r : ElemRec) (p : Nat) : Nat := (r.base + p / r.rowlen * r.stride + p % r.rowlen) % 2 ^ 48

/-! ### Scales (R147 to R154) -/

/-- Size of a scale entry (R149). -/
def scaleSize (fp16 : Bool) : Nat := if fp16 then 4 else 2

/-- Tag of an entry. -/
def scaleTag (fp16 : Bool) (w : Nat) : Nat := if fp16 then bits w 16 6 else bits w 8 6

/-- Reserved bits of an entry. -/
def scaleRes (fp16 : Bool) (w : Nat) : Nat := if fp16 then bits w 22 10 else bits w 14 2

/-- The scale an entry holds (R148). -/
def scaleVal (fp16 : Bool) (w : Nat) : FV := if fp16 then FV.dec 6 (bits w 0 16) else FV.dec 9 (bits w 0 8)

/-- An entry with a scale code and the tag of its block (R150). -/
def scaleEntry (fp16 : Bool) (code b : Nat) : Nat := if fp16 then code + b % 64 * 2 ^ 16 else code + b % 64 * 2 ^ 8

/-- x × 2^k. -/
def FV.scale2 (k : Int) : FV → FV
  | .fin n m e => .fin n m (e + k)
  | v => v

/-- The larger magnitude. -/
def FV.maxMag (a b : FV) : FV := if a.abs.lt b.abs then b.abs else a.abs

/-- The E8M0 exponent that fits a largest magnitude to an FP8 format (R154). -/
def blockExp (f : Nat) (amax : FV) : Nat :=
  if amax.isZero then 127
  else ((List.range 255).find? fun (e : Nat) => !(FV.dec f (fmtMax f)).lt (amax.scale2 (127 - (e : Int)))).getD 254

/-- amax / 7 truncated to FP16 (R154). -/
def blockFp16 : FV → Nat
  | .fin _ m e => (narrow 6 false 0 (.fin false (m * 2 ^ 300 / 7) (e - 300))).code
  | _ => 0

/-- An exact quotient of finite values rounded under the mode and clamped to INT4 (R154). -/
def quotInt4 (mode : Bool) (u : Nat) : FV → FV → Narrow
  | .fin n m e, .fin _ k f =>
    if k = 0 then { code := 0 }
    else
      let num := m * 2 ^ (e - f).toNat
      let den := k * 2 ^ (f - e).toNat
      let t := num / den
      let q := if mode && u < (num % den) * 2 ^ 32 / den then t + 1 else t
      clampTo 2 (if n then -(q : Int) else q)
  | _, _ => { code := 0 }

/-- Block-quantize of up to 32 values with their draws: the elements and the entry's scale code; none where an element is NaN or infinite
(R154). -/
def blockQuant (f : Nat) (mode : Bool) (xs : List (FV × Nat)) : Option (List Narrow × Nat) :=
  if xs.any fun x => match x.1 with | .fin .. => false | _ => true then none
  else
    let amax := xs.foldl (fun a x => FV.maxMag a x.1) (.fin false 0 0)
    if f = 2 then
      let c := blockFp16 amax
      let s := FV.dec 6 c
      some (xs.map fun x => if s.isZero then { code := 0 } else quotInt4 mode x.2 x.1 s, c)
    else
      let e := blockExp f amax
      some (xs.map fun x => narrow f mode x.2 (x.1.scale2 (127 - e)), e)

/-! ### Packed elements (R127) -/

/-- Element k of packed data of a format. -/
def elemAt (f : Nat) (b : List Byte) (k : Nat) : Nat :=
  let w := fmtBits f
  if w = 4 then (if k % 2 = 0 then ((b.getD (k / 2) 0).toNat % 16) else (b.getD (k / 2) 0).toNat / 16) else field b (k * (w / 8)) (w / 8)

/-- Bytes of `n` elements of a format. -/
def elemBytes (f n : Nat) : Nat := cdiv (n * fmtBits f) 8

/-- Packs element codes (R127). -/
def packElems (f : Nat) : List Nat → List Byte
  | [] => []
  | a :: l =>
    if fmtBits f = 4 then match l with
      | b :: l => BitVec.ofNat 8 (a % 16 + b % 16 * 16) :: packElems f l
      | [] => [BitVec.ofNat 8 (a % 16)]
    else leBytes (fmtBits f / 8) a ++ packElems f l

/-! ### Products of the arrays and the MVP -/

/-- The operand pairs of the arrays (R79): is the accumulator FP32? -/
def arrayPair (a b : Nat) : Option Bool :=
  if a < 2 && (b == 0 || b == 2) then some false
  else if (a == 3 || a == 4) && (b == 3 || b == 4) then some true
  else if (a == 5 && b == 5) || (a == 6 && b == 6) then some true
  else none

/-- The pairs of the MVP, stream and vector (table MVP formats and rates). -/
def mvPair (s v : Nat) : Option Bool :=
  if s = 0 && v < 2 then some false
  else if s = 2 && v = 0 then some false
  else if (s == 3 || s == 4) && (v == 3 || v == 4) then some true
  else if (s == 5 && v == 5) || (s == 6 && v == 6) then some true
  else none

/-- Sum of a list by adjacent pairs, level by level (R113, R119). -/
def pairLevel {α : Type} (f : α → α → α) : List α → List α
  | a :: b :: l => f a b :: pairLevel f l
  | l => l

/-- A tree of `n` levels. -/
def pairTree {α : Type} (f : α → α → α) : Nat → List α → List α
  | 0, l => l
  | n + 1, l => pairTree f n (pairLevel f l)

end Sys2Proof.Machine
end

