-- ==== Sys2Proof/Machine/Timeline.lean ====
section
/-! DEFINITION. The timeline: advance, sources and lock, alarms, and the frame number across modules (02). -/

namespace Sys2Proof.Machine

/-! ### Advance -/

/-- A setting of 0 is treated as 1 (R38). -/
def atLeast1 (n : Nat) : Nat := if n = 0 then 1 else n

/-- The increment of a 5 ns tick in units of 2^-32 subline, rounded to the nearest with ties up (R39). -/
def Timeline.increment (t : Timeline) : Nat :=
  (2 * (65536 * t.lines * t.num * 2 ^ 32) + t.den * 200000000) / (2 * (t.den * 200000000))

/-- Sends this module's Frame block with a hop count on every up port, once a frame (R60, R493). -/
def State.sendFrameBlocks (s : State) (hop : Nat) (master : Bool) : State :=
  if s.tl.fsSent then s
  else
    let s := (List.range 3).foldl (fun (s : State) n =>
      if s.rd (F.swPortStat_state.at (0x80100 + 0x40 * n)) = 2 then s.emit (.frameBlock n (stFrame s.tl.now) hop master) else s) s
    { s with tl := { s.tl with fsSent := true } }

/-- The 32 bytes of payload of a LOAD record as the module's own counters and sensors give them (R478); the busy shares of the engines are
physical measurements and are free values. [DESIGN CHOICE, log entry 13] -/
def State.loadPayload (s : State) : List Byte × State :=
  let (n, s) := s.draw
  let busy := (List.range 10).map fun i => Config.freeByte (16 * n + i)
  let level := (List.range 64).foldl (fun m d => max m (s.rd (F.dkStat_level.at (dkBase d)))) 0
  let hot := [s.rd F.pwTemp0_die, s.rd F.pwTemp0_lid, s.rd F.pwTemp0_dram, s.rd F.pwTemp0_conv, s.rd F.pwTemp1_switch, s.rd F.pwTemp1_bank].foldl max 0
  let commits := (List.range 16).foldl (fun m p => m + s.rd (F.acCnt_word.at (acBase p + 0x88))) 0
  (busy ++ leBytes 2 (s.rd F.pwIn_mv * s.rd F.pwIn_ma10 / 100000) ++ leBytes 1 hot ++ leBytes 1 level ++ leBytes 2 0 ++ leBytes 4 commits ++
    leBytes 4 (s.rd F.scLateCnt_count), s)

/-- A LOAD record on every ring that asks for one in this frame (R480). -/
def State.publishLoad (s : State) : State :=
  s.mrings.foldl (fun (s : State) (e : Nat × Ring) =>
    if e.2.loadEn && e.2.interval != 0 && stFrame s.tl.now % e.2.interval == 0 then
      let (pl, s) := s.loadPayload
      s.publishRecord e.1 (metaRecord 8 0 0 0 0 s.tl.now pl)
    else s) s

/-- This module leads the board's timeline: it is the master or a backup that has taken over (R58, R62). -/
def State.leads (s : State) : Bool := s.rdB F.tlMs_master || s.tl.drivesFs

/-- The management domain is powered: from 3V3_AUX or from the 48 V side (R509). -/
def State.managed (s : State) : Bool := s.pow.auxOn || s.pow.switchOn

/-- This module drives FRAME_SYNC: it leads, driving is permitted, and the module is powered (R63, R509; after a power-fail stop only the auxiliary
supply carries the timeline, R66). -/
def State.drives (s : State) : Bool :=
  s.leads && s.rdB F.tlMs_fsDriveEn && s.managed && (!s.pow.powerFail || s.pow.auxOn)

/-- The start of the next frame (R38, R57, R59, R60, R62, R480): the counter reads (F+1):0.0 under the settings now in effect, the master
drives FRAME_SYNC and sends its Frame blocks, a backup in holdover takes over, and LOAD records are published. -/
def State.frameStart (s : State) : State :=
  let t := s.tl
  let lost := s.rd F.tlStatus_lock = 3 && s.rdB F.tlMs_backup && atLeast1 (s.rd F.tlSyncCfg_lossFrames) ≤ t.fsSilent
  let s := { s with tl := { t with
    now := mkStamp (stFrame t.now + 1) 0 0
    frac := 0
    lines := atLeast1 (s.rd F.tlRaster_lines)
    num := atLeast1 (s.rd F.tlRateNum_num)
    den := atLeast1 (s.rd F.tlRateDen_den)
    ptmOrigin := s.rd2 F.tlPtmOriginLo_origin F.tlPtmOriginHi_origin
    ptmFrame := s.rd F.tlPtmFrame_frame
    framesSinceEdge := t.framesSinceEdge + 1
    fsSilent := t.fsSilent + 1
    fsHop := none
    fsSent := false
    drivesFs := t.drivesFs || lost } }
  let s := s.wrB F.tlStatus_swFrameValid false
  let s := if atLeast1 (s.rd F.tlSyncCfg_lossFrames) < s.tl.fsSilent then s.wr F.tlStatus_fsPresent 0 else s
  let s := if s.drives then s.emit .frameSync else s
  let s := if s.leads then s.sendFrameBlocks 0 true else s
  s.publishLoad

/-- The frames that a number of lines carries into, each one's start taken under the raster that is then in effect; answers the line that is left (R38, R39). -/
def State.carryFrames : Nat → State → Nat → State × Nat
  | 0, s, line => (s, line)
  | n + 1, s, line => if line < s.tl.lines then (s, line) else (s.frameStart).carryFrames n (line - s.tl.lines)

/-- What one 5 ns tick adds: the increment with its trim and the correction of R51, R54 or R56 under way, and the subline count it brings (R39). -/
def Timeline.advance (t : Timeline) : Int × Nat :=
  let inc := t.increment
  let corr : Int := if 0 < t.slew then min t.slew (inc / 1024) else if t.slew < 0 then -(min (-t.slew) (inc / 1024)) else 0
  (corr, t.frac + (inc + t.trim + corr).toNat)

/-- The line that the counter's next tick brings it to, before any carry into the next frame. -/
def Timeline.nextLine (t : Timeline) : Nat := stLine t.now + (stSub t.now + t.advance.2 / 2 ^ 32) / 65536

/-- One 5 ns tick of the timeline counter (R39), with the corrections of R51 and R56 under way. [DESIGN CHOICE, log entry 1] -/
def State.advance (s : State) : State :=
  let t := s.tl
  let (corr, total) := t.advance
  let sub := stSub t.now + total / 2 ^ 32
  let line := t.nextLine
  let s := { s with tl := { t with slew := t.slew - corr, sincePulse := t.sincePulse.map (· + total / 2 ^ 32) } }
  let (s, line) := s.carryFrames (line + 1) line
  { s with tl := { s.tl with now := mkStamp (stFrame s.tl.now) line sub, frac := total % 2 ^ 32 } }

/-! ### The order of one tick's events (R47) -/

/-- A clock or timeline source switch is due: its stamp is reached. -/
def State.switchDue (s : State) : Bool :=
  (s.rdB F.ckSwitchCtrl_pending && !stLt s.now s.ck.pendAt) || (s.rdB F.tlCtrl_pending && !stLt s.now s.tl.pendAt)

/-- The change to a pending configuration epoch is due (R292). -/
def State.epochDue (s : State) : Bool :=
  s.rdB F.scEpochCtrl_pending && !s.rdB F.scStat_switching && !stLt s.now s.sched.epochAt

/-- The stamp of alarm n. -/
def State.alarmAt (s : State) (n : Nat) : Nat := s.rd2 (F.tlAlarmLo_stamp.at (16 * n)) (F.tlAlarmHi_stamp.at (16 * n))

/-- Alarm n is due: it is armed with a stamp that is reached (R64). -/
def State.alarmDue (s : State) (n : Nat) : Bool :=
  s.rdB (F.tlAlarmCtrl_arm.at (16 * n)) && s.alarmAt n != noStamp && !stLt s.now (s.alarmAt n)

/-! ### Sources -/

/-- The window in lines, 0 treated as 1. -/
def State.syncWindow (s : State) : Nat := atLeast1 (s.rd F.tlSyncCfg_window)

/-- Is a timeline source ready (table Source readiness)? -/
def State.tlReady (s : State) (src : Nat) : Bool :=
  match src with
  | 0 => true
  | 1 => s.rdB F.tlStatus_pinPresent
  | 2 => s.rdB F.tlStatus_ptmValid
  | _ => s.rdB F.tlStatus_fsPresent

/-- A refused switch (R49). -/
def State.tlRefuse (s : State) : State := (s.wr F.tlStatus_refused 1).log 0x109 .clocks

/-- A write of TL_CTRL with arm = 1 (R49, R50): the new source must be ready; source and stamp are latched. The arm bit reads 0. [DESIGN CHOICE, log entry 112] -/
def execTlSwitchArm (v : Word) (s : State) : Host.Outcome State Fault Refusal :=
  let s := s.wr F.tlCtrl_srcNext (bits v.toNat 2 2)
  finish <|
    if !v.toNat.testBit 4 then s
    else if s.tlReady (s.rd F.tlCtrl_srcNext) then
      { s.wr F.tlCtrl_pending 1 with tl := { s.tl with
          pendSrc := s.rd F.tlCtrl_srcNext, pendAt := s.rd2 F.tlSwitchAtLo_stamp F.tlSwitchAtHi_stamp } }
    else s.tlRefuse

/-- The switch stamp is reached (R49): the source is tested again and taken, or the switch is cancelled; the trim stays as it is. [DESIGN CHOICE, log entry 112] -/
def State.tlSwitch (s : State) : State :=
  if !s.rdB F.tlCtrl_pending || stLt s.now s.tl.pendAt then s
  else
    let src := s.tl.pendSrc
    let ok := s.tlReady src
    let s := s.wr F.tlCtrl_pending 0
    if ok then
      { (s.wr F.tlCtrl_src src).wr F.tlStatus_lock (if src = 0 then 0 else 1) with
        tl := { s.tl with slew := 0, acquired := false, framesSinceEdge := 0 } }
    else s.tlRefuse

/-- TL_SWITCH_AT_STAMP (R49); the trim that the old source left stays, on free-run too. [DESIGN CHOICE, log entry 112] -/
def execTlSwitchAtStamp (s : State) : Host.Outcome State Fault Refusal := finish s.tlSwitch

/-- Holdover begins (R53). -/
def State.holdover (s : State) : State :=
  let s := { s with tl := { s.tl with acquired := false, slew := 0 } }
  ((s.wr F.tlStatus_lock 3).wr F.tlStatus_lost 1).log 0x104 .clocks

/-- Holdover (R53, R62, R72): loss_frames frames without an edge or dialog inside the window on a source other than free-run. -/
def execTlHoldoverEntry (s : State) : Host.Outcome State Fault Refusal :=
  finish <|
    let n := atLeast1 (s.rd F.tlSyncCfg_lossFrames)
    let lock := s.rd F.tlStatus_lock
    if s.rd F.tlCtrl_src != 0 && (lock == 1 || lock == 2) && n ≤ s.tl.framesSinceEdge then
      s.holdover
    else s

/-- A write of the PTM mapping (R57): held in the registers until the next frame boundary; 0 origin low, 1 origin high, 2 frame. -/
def execTlPtmMappingWrite (r : Fin 3) (v : Word) (s : State) : Host.Outcome State Fault Refusal :=
  finish <| match r.val with
    | 0 => s.wr F.tlPtmOriginLo_origin v.toNat
    | 1 => s.wr F.tlPtmOriginHi_origin v.toNat
    | _ => s.wr F.tlPtmFrame_frame v.toNat

/-- No PTM dialog for 100 ms (R55): ptm_valid clears, and on source 2 holdover follows (R53) at once. [DESIGN CHOICE, log entry 112] -/
def execPtmValidTimeout (s : State) : Host.Outcome State Fault Refusal :=
  finish <|
    let s := s.wr F.tlStatus_ptmValid 0
    if s.rd F.tlCtrl_src = 2 && s.rd F.tlStatus_lock != 3 then s.holdover else s

/-! ### Alarms -/

/-- A write of the low word of an alarm stamp is held (R64). -/
def execTlAlarmLoWrite (n : Fin 16) (v : Word) (s : State) : Host.Outcome State Fault Refusal :=
  finish { s with tl := { s.tl with alarmHeld := tput s.tl.alarmHeld n.val v.toNat } }

/-- A write of the high word sets the whole stamp, with the low word held for it or, without one, the low word in effect (R64). -/
def execTlAlarmHiWrite (n : Fin 16) (v : Word) (s : State) : Host.Outcome State Fault Refusal :=
  let lo := tgetD s.tl.alarmHeld n.val (s.rd (F.tlAlarmLo_stamp.at (16 * n.val)))
  finish (((s.wr (F.tlAlarmLo_stamp.at (16 * n.val)) lo).wr (F.tlAlarmHi_stamp.at (16 * n.val)) v.toNat))

/-- The module is in D3cold: 48 V is off and the auxiliary supply is on (R442). -/
def State.d3cold (s : State) : Bool := s.pow.railsOn.isEmpty && s.pow.auxOn

/-- An enabled wake event (R443): source 1 alarm, 2 Skidway, 3 button. -/
def State.wake (s : State) (src : Nat) : State :=
  let en := match src with
    | 1 => s.rdB F.glWake_alarmEn
    | 2 => s.rdB F.glWake_skidwayEn
    | _ => s.rdB F.glWake_buttonEn
  if !en then s
  else
    let s := s.wr F.glWake_last src
    if !s.rdB (F.cfgPmcsr_pmeEn.cfg 0) then s
    else
      let s := s.wr (F.cfgPmcsr_pmeStatus.cfg 0) 1
      if s.d3cold then { s with ep := { s.ep with wakePin := true } }
      else if s.rd (F.cfgPmcsr_state.cfg 0) = 3 then s.emit .pme else s

/-- Alarm n fires if it is due (R64, R65). -/
def State.fireAlarm (s : State) (n : Nat) : State :=
  let o := 16 * n
  let st := s.alarmAt n
  if !s.alarmDue n then s
  else
    let s := s.wr (F.tlAlarmCtrl_fired.at o) 1
    let s := if s.rdB (F.tlAlarmCtrl_irqEn.at o) then s.raiseVec 0 (s.rd (F.tlAlarmCtrl_vector.at o)) else s
    let asleep := s.d3cold || s.rd (F.cfgPmcsr_state.cfg 0) == 3
    let s := if s.rdB (F.tlAlarmCtrl_wakeEn.at o) && asleep then s.wake 1 else s
    if s.rdB (F.tlAlarmCtrl_everyFrame.at o) then
      let same := mkStamp (stFrame s.now) (stLine st) (stSub st)
      let next := mkStamp (stFrame st + 1) (stLine st) (stSub st)
      let next := if stLt s.now next then next else if stLt s.now same then same else mkStamp (stFrame s.now + 1) (stLine st) (stSub st)
      s.wr (F.tlAlarmHi_stamp.at o) (stFrame next)
    else s.wr (F.tlAlarmCtrl_arm.at o) 0

/-- An armed alarm whose stamp is reached (R64, R65), after the switches, the epoch change and the lower alarms of its tick (R47). -/
def execTlAlarmFire (n : Fin 16) (s : State) : Host.Outcome State Fault Refusal :=
  finish <| if s.switchDue || s.epochDue || (List.range n.val).any s.alarmDue then s else s.fireAlarm n.val

end Sys2Proof.Machine
end

