-- ==== Sys2Proof/Machine/Clocks.lean ====
section
/-! DEFINITION. Clock domains, source switches, clock loss and CLKOUT (02). -/

namespace Sys2Proof.Machine

/-- The sources a domain permits, in the order in which R73 tries them: domains 0 ARITH, 1 FABRIC, 2 MEDIA, 3 MEM, 4 MGMT (table Clock domains). -/
def ckPermitted (d : Nat) : List Nat := if d = 4 then [0, 1, 3] else [0, 2, 3]

/-- Source of a domain in a CK_SRC_SEL or CK_SRC_NEXT word. -/
def ckField (w d : Nat) : Nat := bits w (2 * d) 2

/-- The five domains' selections. -/
def State.ckSel (s : State) : Nat := (s.reg F.ckSrcSel_arith.off).toNat

/-- May this selection be switched to: every newly selected source is ready and permitted (R68)? -/
def State.ckOk (s : State) (next : Nat) : Bool :=
  (List.range 5).all fun d => ckField next d == ckField s.ckSel d ||
    ((s.rd F.ckSrcStat_ready).testBit (ckField next d) && (ckPermitted d).contains (ckField next d))

/-- A refused or cancelled switch (R68, R71). -/
def State.ckRefuse (s : State) : State := (s.wr F.ckSrcStat_refused 1).log 0x102 .clocks

/-- A write of CK_SWITCH_CTRL (R68): arming latches selections and stamp, or is ignored; the arm bit itself holds nothing and reads 0. [DESIGN CHOICE, log entry 112] -/
def execCkSwitchArm (v : Word) (s : State) : Host.Outcome State Fault Refusal :=
  finish <|
    if !v.toNat.testBit 0 then s
    else
      let next := (s.reg F.ckSrcNext_arith.off).toNat
      if s.ckOk next then
        { s.wr F.ckSwitchCtrl_pending 1 with ck := { s.ck with pendSel := next, pendAt := s.rd2 F.ckSwitchAtLo_stamp F.ckSwitchAtHi_stamp } }
      else s.ckRefuse

/-- Compute resumes (R70): the pause and the fallback end and DRAM leaves self-refresh; the killed commands are dispatched again by their own events. -/
def State.ckResume (s : State) : State :=
  let s := (s.wr F.ckSrcStat_paused 0).wr F.ckSrcStat_fallback 0
  let s := { s with dram := { s.dram with srAll := false } }
  (List.range 16).foldl (fun (s : State) c => s.wr (F.drChStat_sr.at (0x50000 + 0x1000 * c)) 0) s

/-- The switch stamp is reached (R68, R69, R70): an accepted switch moves the domains, and where compute is paused it ends the pause. -/
def State.ckSwitch (s : State) : State :=
  if !s.rdB F.ckSwitchCtrl_pending || stLt s.now s.ck.pendAt then s
  else
    let ok := s.ckOk s.ck.pendSel
    let s := s.wr F.ckSwitchCtrl_pending 0
    if ok then
      let s := s.setReg F.ckSrcSel_arith.off (BitVec.ofNat 32 (s.ck.pendSel % 2 ^ 10))
      if s.rdB F.ckSrcStat_paused || s.rdB F.ckSrcStat_fallback then s.ckResume else s
    else s.ckRefuse

/-- CK_SWITCH_AT_STAMP (R68). -/
def execCkSwitchAtStamp (s : State) : Host.Outcome State Fault Refusal := finish s.ckSwitch

/-- Domains that run on a source. -/
def State.ckOn (s : State) (src : Nat) : List Nat := (List.range 5).filter fun d => ckField s.ckSel d == src

/-- Puts domains on the sources that `dst` gives. -/
def State.ckMove (s : State) (ds : List Nat) (dst : Nat → Nat) : State :=
  s.setReg F.ckSrcSel_arith.off (BitVec.ofNat 32 (ds.foldl (fun w d => setBits w (2 * d) 2 (dst d)) s.ckSel))

/-- Subchannels enter self-refresh with their contents kept (R70, R388). -/
def State.selfRefreshAll (s : State) : State :=
  let s := { s with dram := { s.dram with srAll := true } }
  (List.range 16).foldl (fun (s : State) c => s.wr (F.drChStat_sr.at (0x50000 + 0x1000 * c)) 3) s

/-- The timeline on the ring oscillator keeps lock only inside the trim of R51 (R72), by the deviation that the monitor last measured. [DESIGN CHOICE, log entry 113] -/
def State.ringTimeline (s : State) : State :=
  if s.rd F.tlCtrl_src = 0 || s.rd F.tlStatus_lock = 3 || (sgn 24 (s.rd (F.ckMonPpm_ppm.at 12))).natAbs ≤ 976 then s else s.holdover

/-- Commands whose picture a media engine has in hand: the engine stops at its boundary (R70). -/
def State.inEngines (s : State) : List Nat := s.engines.flatMap fun e => (e.2.job.toList ++ e.2.aside.toList).map (·.slot)

/-- A switch that is pending when a source with domains on it is lost is cancelled (R71). -/
def State.ckCancel (s : State) : State := if s.rdB F.ckSwitchCtrl_pending then (s.wr F.ckSwitchCtrl_pending 0).ckRefuse else s

/-- Steps 2 to 4 of R70 with R71: compute pauses, commands in flight are killed without commit but for the pictures in the media engines, which go
on to their boundary, DRAM enters self-refresh, the steward gets its event, CLOCK_LOSS is reported on vector 0 and through AER, and a pending switch is cancelled. [DEDUCED, log entry 109] -/
def State.ckPause (s : State) (src : Nat) : State :=
  let s := s.wr F.ckSrcStat_lost (s.rd F.ckSrcStat_lost ||| 2 ^ src)
  let s := (s.wr F.ckSrcStat_fallback 1).wr F.ckSrcStat_paused 1
  let s := ((s.cmds.map (·.1)).filter fun n => !s.inEngines.contains n).foldl (fun (s : State) slot => s.killCmd slot .uncounted) s
  ((s.selfRefreshAll.emit .stewardEvent).log 0x101 .clocks src).ckCancel

/-- The ring oscillator fails (R73). Until it passes the monitor again a further failure stops the module, also where domains ran on it and have moved off. [DESIGN CHOICE, log entry 112] -/
def State.ringLoss (s : State) : State :=
  let s := { s with ck := { s.ck with ringDown := true } }
  let s := s.wr F.ckSrcStat_present (s.rd F.ckSrcStat_present &&& 7)
  let s := s.wr F.ckSrcStat_ready (s.rd F.ckSrcStat_ready &&& 7)
  let ds := s.ckOn 3
  if ds.isEmpty then
    (s.wr F.ckSrcStat_lost (s.rd F.ckSrcStat_lost ||| 8)).log 0x103 .clocks 3
  else
    let pick (d : Nat) : Option Nat := [0, 1, 2].find? fun n => (ckPermitted d).contains n && (s.rd F.ckSrcStat_present).testBit n
    if ds.all fun d => (pick d).isSome then (s.ckMove ds fun d => (pick d).getD 0).ckPause 3
    else ((s.wr F.ckSrcStat_lost (s.rd F.ckSrcStat_lost ||| 8)).deviceStop 0x101 .clocks 3).ckCancel

/-- The monitor fails a source (R70 to R73). -/
def State.clockLoss (s : State) (src : Nat) : State :=
  if src = 3 then s.ringLoss
  else
    let s := s.wr F.ckSrcStat_present (s.rd F.ckSrcStat_present &&& (15 - 2 ^ src))
    let s := s.wr F.ckSrcStat_ready (s.rd F.ckSrcStat_ready &&& (15 - 2 ^ src))
    let ds := s.ckOn src
    if s.ck.ringDown then
      let s := (s.wr F.ckSrcStat_lost (s.rd F.ckSrcStat_lost ||| 2 ^ src)).deviceStop 0x101 .clocks src
      if ds.isEmpty then s else s.ckCancel
    else if ds.isEmpty then
      (s.wr F.ckSrcStat_lost (s.rd F.ckSrcStat_lost ||| 2 ^ src)).logFault { mkFault 0x101 .clocks src with cls := .corrected }
    else
      let s := (s.ckMove ds fun _ => 3).ckPause src
      if ds.contains 4 then s.ringTimeline else s

/-- The monitor fails one of XO-A, XO-B, REFCLK or the ring. -/
def execClockLoss (src : Fin 4) (s : State) : Host.Outcome State Fault Refusal := finish (s.clockLoss src.val)

/-- The internal ring oscillator fails (R73). -/
def execFallbackClockLost (s : State) : Host.Outcome State Fault Refusal := finish s.ringLoss

/-- The monitor has held a source within its limits for 1 ms and its shadow PLLs are locked (R67, R73). -/
def execClockSourceReady (src : Fin 4) (s : State) : Host.Outcome State Fault Refusal :=
  let s := s.wr F.ckSrcStat_present (s.rd F.ckSrcStat_present ||| 2 ^ src.val)
  let s := s.wr F.ckSrcStat_ready (s.rd F.ckSrcStat_ready ||| 2 ^ src.val)
  finish (if src.val = 3 then { s with ck := { s.ck with ringDown := false } } else s)

/-- Frequency in kHz of the source that CK_CLKOUT.sel names (R74, tables Clock domains and Clock sources). -/
def clkoutKhz (sel : Nat) : Option Nat :=
  [some 750000, some 1500000, some 1000000, some 1100000, some 200000, some 200000, some 100000, some 100000, some 100000, some 200000].getD sel none

/-- What the CLKOUT pin does: released, held low, driven high or low by the divider, or following its source with the source's own duty cycle. -/
inductive PinOut where
  | released
  | low
  | high
  | source
  deriving DecidableEq, Repr

/-- CLKOUT is held low: a reserved selection, or a divided frequency above 100 MHz (R75). -/
def State.clkoutHeld (s : State) : Bool := match clkoutKhz (s.rd F.ckClkout_sel) with
  | some k => decide (100000 * (s.rd F.ckClkout_div + 1) < k)
  | none => true

/-- The divider of CLKOUT runs. -/
def State.clkoutRuns (s : State) : Bool := s.rdB F.ckClkout_en && !s.pow.railsOn.isEmpty && !s.clkoutHeld

/-- The CLKOUT pin now (R74, R75, R508): with an odd divisor d above 1 it is high for (d + 1) / 2 input cycles, with an even one for d / 2. -/
def State.clkoutPin (s : State) : PinOut :=
  if !s.rdB F.ckClkout_en || s.pow.railsOn.isEmpty then .released
  else if s.clkoutHeld then .low
  else
    let d := s.ck.outDiv + 1
    if d = 1 then .source else if s.ck.outPhase < 200000 * ((d + 1) / 2) then .high else .low

/-- Takes the selection and divider of CK_CLKOUT for the output, which begins a cycle. -/
def State.clkoutTake (s : State) : State :=
  { s with ck := { s.ck with outSel := s.rd F.ckClkout_sel, outDiv := s.rd F.ckClkout_div, outPhase := 0 } }

/-- A write of CK_CLKOUT (R74, R75): a running output takes the change at its next rising edge, one that is released or held low begins with it; a divided
frequency above 100 MHz holds the output low and shows too_fast while CLKOUT is enabled. -/
def execCkClkoutWrite (v : Word) (s : State) : Host.Outcome State Fault Refusal :=
  let n := v.toNat
  let ran := s.clkoutRuns
  let s := ((s.wr F.ckClkout_sel (bits n 0 4)).wr F.ckClkout_en (bits n 4 1)).wr F.ckClkout_div (bits n 16 16)
  let s := s.wrB F.ckClkout_tooFast (s.clkoutHeld && (clkoutKhz (bits n 0 4)).isSome && n.testBit 4)
  finish (if ran then s else s.clkoutTake)

/-- 5 ns of CLKOUT (R74): at a rising edge of the output the settings written since take effect. [DESIGN CHOICE, log entry 1] -/
def State.clkoutTick (s : State) : State :=
  if !s.clkoutRuns then s
  else
    let p := s.ck.outPhase + (clkoutKhz s.ck.outSel).getD 0
    let n := 200000 * (s.ck.outDiv + 1)
    if p < n then { s with ck := { s.ck with outPhase := p } }
    else if s.ck.outSel = s.rd F.ckClkout_sel ∧ s.ck.outDiv = s.rd F.ckClkout_div then { s with ck := { s.ck with outPhase := p % n } }
    else s.clkoutTake

/-! ### The monitor (R67, R72, R76) -/

/-- The monitor holds a source at this deviation (table Clock sources and monitor limits). -/
def ppmOk (src : Nat) (ppm : Int) : Bool := match src with
  | 2 => decide (-7500 ≤ ppm ∧ ppm ≤ 2000)
  | 3 => decide (-80000 ≤ ppm ∧ ppm ≤ 80000)
  | _ => decide (-2000 ≤ ppm ∧ ppm ≤ 2000)

/-- The monitor's window for one source ends: CK_MON_PPM shows the measured deviation, which is a free value, and a source inside its limits is present; the ring
oscillator, which needs no PLL, is ready with that (R67, R73, R76). A failure is the event CLOCK_LOSS. [DESIGN CHOICE, log entry 113] -/
def State.monitorOne (s : State) (d src : Nat) : State :=
  let v := (Config.freeWord (4 * d + src)).toNat
  let s := s.wr (F.ckMonPpm_ppm.at (4 * src)) v
  if !ppmOk src (sgn 24 v) then s
  else
    let s := s.wr F.ckSrcStat_present (s.rd F.ckSrcStat_present ||| 2 ^ src)
    if src = 3 then { s.wr F.ckSrcStat_ready (s.rd F.ckSrcStat_ready ||| 8) with ck := { s.ck with ringDown := false } } else s

/-- 5 ns of the monitor: every 10 µs a window ends (R76), and a timeline that a loss of XO-B has put on the ring oscillator is tested again (R72). [DESIGN CHOICE, log entry 113] -/
def State.monitorTick (s : State) : State :=
  if s.ck.window + 1 < 2000 then { s with ck := { s.ck with window := s.ck.window + 1 } }
  else
    let s := { s with ck := { s.ck with window := 0 } }
    let (d, s) := s.draw
    let s := (List.range 4).foldl (fun (s : State) n => s.monitorOne d n) s
    if ckField s.ckSel 4 = 3 && !(s.rd F.ckSrcStat_ready).testBit 1 && s.rdB F.ckSrcStat_fallback then s.ringTimeline else s

/-- One tick of the 200 MHz clock: the timeline counter, CLKOUT and the clock monitor (R39, R74, R76). -/
def State.tick (s : State) : State := s.advance.clkoutTick.monitorTick

/-- The next tick carries the counter into the next frame. -/
def State.atFrameEnd (s : State) : Bool := decide (s.tl.lines ≤ s.tl.nextLine)

/-- FRAME_BOUNDARY (R38, R39): the tick in which the last line of the frame ends; before it there is no boundary. -/
def execFrameBoundary (s : State) : Host.Outcome State Fault Refusal := finish (if s.atFrameEnd then s.tick else s)

end Sys2Proof.Machine
end

