-- ==== Sys2Proof/Machine/Queues.lean ====
section
/-! DEFINITION. Submission and completion queues, metadata rings, doorbells, control queue registers, descriptor fetch and its checks, and reads of host memory (14, 15). -/

namespace Sys2Proof.Machine

/-! ### Reads of host memory -/

/-- Tags a function may use (R428): 768 ten-bit tags or 256 eight-bit ones. -/
def State.tagRange (s : State) (fn : Nat) : List Nat :=
  if s.rdB (F.cfgDevCtl2_tag10En.cfg fn) then (List.range 768).map (· + 0x100) else List.range 256

/-- Issues the waiting requests of functions that may send, in their order, while tags are free (R428). -/
def State.issueReads (s : State) : State :=
  let (s, left) := s.ep.waitq.foldl (fun (acc : State × List HostReq) q =>
    let (s, left) := acc
    if !s.fnAwake q.fn || left.any (fun r => r.fn == q.fn) then (s, left ++ [q])
    else match (s.tagRange q.fn).find? fun t => (tget s.ep.tags (q.fn * 1024 + t)).isNone with
      | none => (s, left ++ [q])
      | some t =>
        let s := { s with ep := { s.ep with tags := tput s.ep.tags (q.fn * 1024 + t) ⟨q.len, q.use, false, s.now, 0⟩ } }
        (s.emit (.hostRead q.fn t q.addr q.len), left)) (s, [])
  { s with ep := { s.ep with waitq := left } }

/-- Requests `len` bytes of host memory, split as R428 says; `use` gives the use of each part by its offset. [DESIGN CHOICE, log entry 9] -/
def State.requestHost (s : State) (fn addr len : Nat) (use : Nat → HostUse) : State :=
  let parts := (splitReq (s.mrrs fn) len addr len).map fun (a, n) => (⟨fn, a, n, use (a - addr)⟩ : HostReq)
  { s with ep := { s.ep with waitq := s.ep.waitq ++ parts } }.issueReads

/-- What a command finds when it needs bytes of host memory. -/
inductive HostRes where
  | ready (data : List Byte)
  | failed (s : State) (code : Nat)
  | waiting (s : State)

/-- A read that a function may not issue counts at once as failed (R432, R604). -/
def State.failHost (s : State) (slot fn buf addr len : Nat) : State :=
  ((s.inc (F.glHostErr2_readErr.fn fn) 1).hostLast fn 0xD04 0).modCmd slot fun c => { c with hostBufs := tput c.hostBufs buf ⟨addr, len, [], 0, 0xD04⟩ }

/-- Bytes of a host buffer of a command: asked for once, then waited for; a function that may not read gets a failed read at once (R432, R604). -/
def State.needHost (s : State) (slot buf addr len : Nat) : HostRes :=
  match tget s.cmds slot with
  | none => .waiting s
  | some c =>
    match tget c.hostBufs buf with
    | some h =>
      if h.code != 0 then .failed s h.code
      else if 0 < h.missing then .waiting s
      else .ready ((List.range h.len).map fun i => (tget h.got i).getD 0)
    | none =>
      if len = 0 then .ready []
      else if !s.rdB (F.cfgCmd_busMaster.cfg c.desc.part) then .failed (s.failHost slot c.desc.part buf addr len) 0xD04
      else
        let s := s.setCmd slot { c with hostBufs := tput c.hostBufs buf ⟨addr, len, [], len, 0⟩, pcieIn := c.pcieIn + len }
        .waiting (s.requestHost c.desc.part addr len fun o => .cmdData slot buf o)

/-! ### Argument words -/

/-- address field of an argument word (R464). -/
def argAddr (a : Nat) : Nat := bits a 0 48
/-- space field. -/
def argSpace (a : Nat) : Nat := bits a 48 2
/-- kind field (R465). -/
def argKind (a : Nat) : Nat := bits a 50 3
/-- deck field. -/
def argDeck (a : Nat) : Nat := bits a 53 6
/-- host field. -/
def argHost (a : Nat) : Bool := a.testBit 59

/-- A descriptor from its 128 bytes (R463); a 1 in a reserved bit is ignored, as is the target of a command of another class than compute (R9). [DEDUCED, log entry 15] -/
def Desc.ofBytes (b : List Byte) : Desc :=
  { cls := field b 0 1 % 16, after := (field b 0 1).testBit 4, noIrq := (field b 0 1).testBit 5, seedIdx := field b 1 1
    op := field b 2 2 % 4096, part := field b 2 2 / 4096, target := field b 4 1, tag := field b 5 1
    ctx := field b 6 2 % 16384, ctxValid := (field b 6 2).testBit 14, epoch := field b 8 4, step := field b 12 4
    notBefore := field b 16 8, deadline := field b 24 8
    shapes := (List.range 8).map fun i => field b (32 + 4 * i) 4
    args := (List.range 8).map fun i => field b (64 + 8 * i) 8 }

/-- Argument n of a descriptor. -/
def Desc.arg (d : Desc) (n : Nat) : Nat := d.args.getD n 0
/-- Shape n of a descriptor. -/
def Desc.shape (d : Desc) (n : Nat) : Nat := d.shapes.getD n 0

/-- The control operations (table Control operations): the argument words and shapes an operation names. -/
def controlNames (op : Nat) : Option (List Nat × List Nat) :=
  match op with
  | 0x001 => some ([0, 1], [0, 1, 2])
  | 0x002 => some ([], [0])
  | 0x003 => some ([0, 1], [0, 1, 2])
  | 0x004 => some ([], [0])
  | 0x005 => some ([0, 1], [0, 1, 2, 3])
  | 0x006 => some ([], [0])
  | 0x010 => some ([0], [0])
  | 0x011 => some ([], [])
  | 0x012 => some ([0], [0, 1])
  | 0x013 => some ([0], [0, 1])
  | 0x020 => some ([0], [0])
  | 0x021 => some ([], [0])
  | 0x022 => some ([0], [0])
  | 0x023 => some ([], [0])
  | _ => none

/-- Check 2 of R467: the class, and the op field against the classes' lists. -/
def Desc.classOk (d : Desc) (control : Bool) : Bool :=
  if control then d.cls == 0 && (controlNames d.op).isSome
  else match d.cls with
    | 1 => true
    | 2 => d.op ≤ 1
    | 3 => d.op ≤ 1
    | 4 => d.op == 0
    | 5 => d.op == 0
    | 6 => d.op < 8
    | 7 => d.op == 0
    | _ => false

/-- The kinds an argument of a class may have, and which shapes the class names (table Command classes). [DEDUCED, log entry 16] -/
def classArgs (cls op : Nat) : List (List Nat) × List Nat :=
  match cls with
  | 1 => (List.replicate 8 [0, 1, 2, 3, 4, 5, 6, 7], List.range 8)
  | 2 => if op = 0 then ([[1]], [0]) else ([], [])
  | 3 => ([[1, 6, 7]], [])
  | 4 => ([[0, 2], [0, 2], [0, 2], [0, 2], [0, 2], [0, 2], [0, 2], [1]], [])
  | 5 => ([[1], [2], [1]], [0, 1, 2, 3])
  | 6 => ([[1], [3, 4]], [0])
  | 7 => ([[1, 7], [4], [0, 6]], [0])
  | _ => ([], [])

/-- One argument word of a command of a class other than control (R464, R465). [DEDUCED, log entry 16] -/
def State.argOk (s : State) (d : Desc) (a : Nat) : Bool :=
  let k := argKind a
  let x := argAddr a
  a < 2 ^ 60 && (k == 1 || argSpace a == 0) && (k == 2 || (argDeck a == 0 && !argHost a)) &&
    match k with
    | 0 => a == 0
    | 1 => if d.cls = 1 then argSpace a != 3 else argSpace a == 0 || argSpace a == 3
    | 2 => x == 0
    | 4 => bits x 10 6 == 0 && x < 2 ^ 32 && bits x 16 16 != 0 &&
        match tget s.mrings (bits x 0 10) with
        | some r => r.part == d.part && !r.faultEn && !r.loadEn && !(d.cls == 1 && r.place.baseHost)
        | none => false
    | 6 => !x.testBit 47
    | 7 => x < 8 && d.after
    | _ => true

/-- Check 3 of R467: argument words and shapes, and a context where the class requires one. -/
def State.argsOk (s : State) (d : Desc) : Bool :=
  if d.cls = 0 then
    match controlNames d.op with
    | none => false
    | some (as, ss) =>
      if d.op = 1 ∨ d.op = 3 ∨ d.op = 5 then true
      else
        ((List.range 8).all fun i => if as.contains i then d.arg i < 2 ^ 50 && (argSpace (d.arg i) == 0 || argSpace (d.arg i) == 3)
          else d.arg i == 0) && ((List.range 8).all fun i => ss.contains i || d.shape i == 0) &&
        (d.ctxValid || !(d.op == 0x11 || d.op == 0x12 || d.op == 0x13))
  else
    let (ks, ss) := classArgs d.cls d.op
    ((List.range 8).all fun i => (ks.getD i [0]).contains (argKind (d.arg i)) && s.argOk d (d.arg i)) &&
      ((List.range 8).all fun i => ss.contains i || d.shape i == 0) &&
      ((d.args.filter argHost).length ≤ 1) &&
      (d.ctxValid || !(d.cls == 2 || d.cls == 3 || d.cls == 6 || d.cls == 7)) &&
      !(d.cls == 5 && 8 ≤ d.shape 3)

/-- Check 4 of R467: the context named is open, of the partition and of a kind that the class accepts (R466). -/
def State.ctxOk (s : State) (d : Desc) : Bool :=
  if !d.ctxValid then true
  else match tget s.ctxs d.ctx with
    | none => false
    | some x => x.part == d.part && x.parent.isNone && match d.cls with
      | 0 => true
      | 1 => x.kind == 0 || x.kind == 4
      | 2 => x.kind == 0
      | 3 => x.kind == 1
      | 6 => x.kind == 3
      | 7 => x.kind == 2
      | _ => false

/-- The checks at fetch in their order (R467, R270): the code of the first failure, or 0. -/
def State.fetchCheck (s : State) (control : Bool) (q : Sq) (raw : List Byte) : Nat :=
  let d := Desc.ofBytes raw
  if d.part ≠ q.part then 0x32A
  else if !d.classOk control then 0x323
  else if !s.argsOk d then 0x324
  else if !s.ctxOk d then 0x329
  else if d.cls = 1 && !s.owns d.part (compOf d.target) then 0x309
  else 0

/-! ### Fetch -/

/-- Free entries of a completion queue beyond those reserved (R469). -/
def Cq.free (k : Cq) : Nat := 2 ^ k.log2 - (k.prod + 2 ^ 32 - k.cons) % 2 ^ 32 - k.reserved

/-- Records a code of chapter 15 in SC_Q_ERR of the function (R482). -/
def State.qErr (s : State) (p code number : Nat) : State :=
  ((s.wr (F.scQErr_code.fn p) code).wr (F.scQErr_number.fn p) number).wr (F.scQErr_valid.fn p) 1

/-- A command as it stands right after its descriptor is fetched. -/
def Cmd.ofDesc (d : Desc) (sq seq order : Nat) : Cmd :=
  { sq := sq, seq := seq, desc := d, phase := .waiting, order := order, first := 0, attempts := 0, kills := 0, epoch := 0, seed := 0
    startAt := 0, killedAt := 0, shares := [], unstarted := [], reported := [], ctlPc := [], divided := [], port := 0, sets := [], ranks := [], divCtr := []
    aregs := [], fresh := [], holds := [], extents := [], rings := [], reds := [], stored := [], sent := 0, accepted := [], drawn := []
    published := [], code := 0, discarded := false, result := 0, ready := false, fault := none, cycles := 0, usedBoles := 0, hostBufs := [], ns := 0
    dramRd := 0, dramWr := 0, pcieIn := 0, skySent := 0, acts := [], waitDeck := none, pics := [], verdict := none, rerun := false
    said := [], forced := false, wasSuspended := false, degraded := false, delta := [], newCtx := [], saved := [], savedAcc := [], instances := [], committed := false, mapPic := none
    queued := false, frameBuf := none, mapBuf := none, segs := 0, boundsOn := [], src := [] }

/-- The lowest free command slot (R279). -/
def State.freeCmdSlot (s : State) : Option Nat := tfree s.cmds 4096

/-- Takes a fetched descriptor into a slot (R453, R467, R468): the head advances, the pointer block shows it, the checks run, and a command
whose predecessor has failed is dropped. -/
def State.acceptDesc (s : State) (sq : Nat) (raw : List Byte) : State :=
  match tget s.sqs sq, s.freeCmdSlot with
  | some q, some slot =>
    let d := Desc.ofBytes raw
    let seq := q.head
    let head := (q.head + 1) % 2 ^ 32
    let failed := q.bad.contains ((seq + 2 ^ 32 - 1) % 2 ^ 32)
    let s := { s with sqs := tput s.sqs sq { q with head := head, fetching := false, fetched := (q.fetched + 1) % 2 ^ 32, bad := [] }
                      sched := { s.sched with nextOrder := s.sched.nextOrder + 1 } }
    let s := s.setCmd slot (Cmd.ofDesc d sq seq s.sched.nextOrder)
    let s := s.queueWrite q.part q.place.ptr q.place.ptrHost (ptrBytes head)
    let code := s.fetchCheck (decide (16384 ≤ sq)) q raw
    if code ≠ 0 then
      let s := if 0x320 ≤ code ∧ code ≤ 0x32A then s.qErr q.part code (sq % 16384) else s
      (s.setCmd slot (Cmd.ofDesc { d with part := q.part } sq seq s.sched.nextOrder)).refuseCmd slot code
    else if d.after && failed then (s.logCmd 0x303 slot).endCmd slot 3 0x303
    else s
  | _, _ => s

/-- A failed descriptor fetch (R472): the SQ stops, the head command completes as refused, and the head advances past it. [DEDUCED, log entry 17] -/
def State.fetchFailed (s : State) (sq code : Nat) : State :=
  match tget s.sqs sq, s.freeCmdSlot with
  | some q, some slot =>
    let head := (q.head + 1) % 2 ^ 32
    let s := { s with sqs := tput s.sqs sq { q with head := head, fetching := false, stopped := true } }
    let s := if 16384 ≤ sq then s.wr (F.ctlCfg_stopped.at (0x30400 + 0x40 * q.part)) 1 else s
    let d := Desc.ofBytes []
    let s := s.setCmd slot (Cmd.ofDesc { d with part := q.part } sq q.head s.sched.nextOrder)
    let s := (s.logFault { mkFault 0x327 .scheduler with slot := some slot }).qErr q.part 0x327 (sq % 16384)
    let s := s.queueWrite q.part q.place.ptr q.place.ptrHost (ptrBytes head)
    s.endCmd slot 2 code
  | _, _ => s

/-- Descriptors on their way from host memory, for the queues that a test selects: each has a slot set aside (R279). -/
def State.fetches (s : State) (sel : Sq → Bool) : Nat := (s.sqs.filter fun e => e.2.fetching && sel e.2).length

/-- The queue manager fetches the next descriptor of an SQ (R268, R271, R279, R441, R467 to R469, R604): held while the queue is stopped or empty,
its partition is at its quota, no slot or CQ entry is free, or the function may not read. [DEDUCED, log entry 17; DEDUCED, log entry 105] -/
def execSqFetch (sq : Fin 16400) (s : State) : Host.Outcome State Fault Refusal :=
  finish <|
    match tget s.sqs sq.val with
    | none => s
    | some q =>
      match tget s.cqs q.cq with
      | none => s
      | some k =>
        let busy := 16384 ≤ sq.val && s.cmds.any fun e => e.2.sq == sq.val
        let quota := sq.val < 16384 && s.rd (F.ptQuota_inflight.at (ptBase q.part)) ≤ s.partInFlight q.part + s.fetches (·.part == q.part)
        if q.stopped || q.fetching || q.deleting.isSome || q.head == q.tail || busy || quota || k.free = 0 || s.freeCmdSlot.isNone || 4096 ≤ s.cmds.length + s.fetches (fun _ => true) ||
            !s.fnD0 q.part ||
            (s.rd F.ftStat_pfail).testBit q.part || s.rdB F.ftStat_deviceFailed then s
        else
          let a := q.place.base + (q.head % 2 ^ q.log2) * 128
          let s := { s with cqs := tput s.cqs q.cq { k with reserved := k.reserved + 1 } }
          if q.place.baseHost then
            if s.fnAwake q.part then
              { s with sqs := tput s.sqs sq.val { q with fetching := true } }.requestHost q.part a 128 fun _ => .descriptor sq.val
            else { s with cqs := tput s.cqs q.cq k }
          else match s.dramRead q.part a 128 with
            | .ok raw => s.acceptDesc sq.val raw
            | .denied _ => s.fetchFailed sq.val 0xB07
            | .bad _ => s.fetchFailed sq.val 0xB02

/-! ### Doorbells -/

/-- An ignored doorbell (R425). -/
def State.doorbellIgnored (s : State) (fn q : Nat) : State :=
  let s := s.inc (F.glDbRej_count.fn fn) 1
  let s := s.hostLast fn 0xD0B 0
  s.logPart 0xD0B fn .function fn q

/-- A write of an SQ tail (R455): one that lies more than the depth beyond the head or behind the last valid tail stops the queue. -/
def State.sqTail (s : State) (n : Nat) (q : Sq) (tail : Nat) : State :=
  if q.stopped then s
  else
    let ahead := (tail + 2 ^ 32 - q.head) % 2 ^ 32
    let was := (q.tail + 2 ^ 32 - q.head) % 2 ^ 32
    if 2 ^ q.log2 < ahead || ahead < was then
      let s := { s with sqs := tput s.sqs n { q with stopped := true } }
      let s := if 16384 ≤ n then s.wr (F.ctlCfg_stopped.at (0x30400 + 0x40 * q.part)) 1 else s
      (s.logPart 0x322 q.part .scheduler 0 (n % 16384)).qErr q.part 0x322 (n % 16384)
    else { s with sqs := tput s.sqs n { q with tail := tail } }

/-- A doorbell write of an SQ tail (R425, R426, R441, R454, R455), of a function that can be reached. -/
def execSqDoorbell (fn : Fin 16) (n : Fin 16384) (v : Word) (s : State) : Host.Outcome State Fault Refusal :=
  finish <| if !s.barOpen fn.val then s else match tget s.sqs n.val with
    | some q => if q.part = fn.val && !q.templated then s.sqTail n.val q v.toNat else s.doorbellIgnored fn.val n.val
    | none => s.doorbellIgnored fn.val n.val

/-- An invalid consumer index (R456). -/
def State.consumerInvalid (s : State) (p n : Nat) : State :=
  (s.logPart 0x328 p .scheduler 0 n).qErr p 0x328 (n % 16384)

/-- Does a new consumer index lie between the last one and the producer (R456)? -/
def consumerOk (prod cons new : Nat) : Bool := (new + 2 ^ 32 - cons) % 2 ^ 32 ≤ (prod + 2 ^ 32 - cons) % 2 ^ 32

/-- A write of a CQ's consumer index (R456). -/
def State.cqHead (s : State) (n : Nat) (k : Cq) (v : Nat) : State :=
  if consumerOk k.prod k.cons v then { s with cqs := tput s.cqs n { k with cons := v } } else s.consumerInvalid k.part n

/-- A doorbell write of a CQ's consumer (R425, R454, R456). -/
def execCqDoorbell (fn : Fin 16) (n : Fin 4096) (v : Word) (s : State) : Host.Outcome State Fault Refusal :=
  finish <| if !s.barOpen fn.val then s else match tget s.cqs n.val with
    | some k => if k.part = fn.val then s.cqHead n.val k v.toNat else s.doorbellIgnored fn.val n.val
    | none => s.doorbellIgnored fn.val n.val

/-- A doorbell write of a ring's consumer (R425, R454, R456). -/
def execRingDoorbell (fn : Fin 16) (n : Fin 1024) (v : Word) (s : State) : Host.Outcome State Fault Refusal :=
  finish <| if !s.barOpen fn.val then s else match tget s.mrings n.val with
    | some r =>
      if r.part ≠ fn.val then s.doorbellIgnored fn.val n.val
      else if consumerOk r.prod r.cons v.toNat then { s with mrings := tput s.mrings n.val { r with cons := v.toNat } }
      else s.consumerInvalid r.part n.val
    | none => s.doorbellIgnored fn.val n.val

/-! ### Control queue registers -/

/-- Base of the SC_CTL block of partition p (R481). -/
def ctlBase (p : Nat) : Nat := 0x30400 + 0x40 * p

/-- May a control queue address be enabled: host memory, or module DRAM in a granule of the partition (R481, R605)? -/
def State.ctlAddrOk (s : State) (p space addr : Nat) : Bool := space == 3 || (space == 0 && addr < dramSize && s.keyOf addr == p)

/-- A write of SC_CTL_CFG (R7, R435, R458, R481): the depths are taken only while en = 0, irq_en always, a vector that the function has, and they reach the
control CQ; en = 1 creates the pair with all four indices 0, or is refused. [DEDUCED, log entry 122] -/
def execScCtlEnable (p : Fin 16) (v : Word) (s : State) : Host.Outcome State Fault Refusal :=
  let p := p.val
  let b := ctlBase p
  let n := v.toNat
  let was := s.rdB (F.ctlCfg_en.at b)
  let s := if was then s else (s.wr (F.ctlCfg_sqLog2.at b) (bits n 0 4)).wr (F.ctlCfg_cqLog2.at b) (bits n 4 4)
  let vec := if bits n 8 11 < fnVectors p then bits n 8 11 else s.rd (F.ctlCfg_vector.at b)
  let s := (s.wr (F.ctlCfg_vector.at b) vec).wr (F.ctlCfg_irqEn.at b) (bits n 19 1)
  let s := { s with cqs := tmod s.cqs (ctlCq p) fun k => { k with vector := vec, irqEn := n.testBit 19 } }
  finish <|
    if n.testBit 20 then
      if was then s
      else
        let sl := s.rd (F.ctlCfg_sqLog2.at b)
        let cl := s.rd (F.ctlCfg_cqLog2.at b)
        let sq := s.rd (F.ctlSqBaseLo_base.at b) * 4096 + s.rd (F.ctlSqBaseHi_base.at b) * 2 ^ 32
        let cq := s.rd (F.ctlCqBaseLo_base.at b) * 4096 + s.rd (F.ctlCqBaseHi_base.at b) * 2 ^ 32
        let pt := s.rd (F.ctlPtrLo_ptr.at b) * 64 + s.rd (F.ctlPtrHi_ptr.at b) * 2 ^ 32
        let sqS := s.rd (F.ctlSqBaseHi_space.at b)
        let cqS := s.rd (F.ctlCqBaseHi_space.at b)
        let ptS := s.rd (F.ctlPtrHi_space.at b)
        if 1 ≤ sl && sl ≤ 8 && 1 ≤ cl && cl ≤ 8 && s.ctlAddrOk p sqS sq && s.ctlAddrOk p cqS cq && s.ctlAddrOk p ptS pt &&
            s.rdB (F.ptCtrl_enabled.at (ptBase p)) then
          let q : Sq := { part := p, place := ⟨sq, sqS == 3, pt, ptS == 3⟩, log2 := sl, head := 0, tail := 0, cls := 1, drop := false
                          cq := ctlCq p, stopped := false, deleting := none, templated := false, fetching := false, plan := false
                          bad := [], outs := [], fetched := 0 }
          let k : Cq := { part := p, place := ⟨cq, cqS == 3, pt + 8, ptS == 3⟩, log2 := cl, prod := 0, cons := 0
                          vector := s.rd (F.ctlCfg_vector.at b), irqEn := s.rdB (F.ctlCfg_irqEn.at b), reserved := 0, plan := false
                          written := 0 }
          { s.wr (F.ctlCfg_en.at b) 1 with sqs := tput s.sqs (ctlSq p) q, cqs := tput s.cqs (ctlCq p) k }
        else s.qErr p 0x320 0
    else
      let s := (s.wr (F.ctlCfg_en.at b) 0).wr (F.ctlCfg_stopped.at b) 0
      { s with sqs := tmod s.sqs (ctlSq p) fun q => { q with stopped := true } }

/-- A write of SC_CTL_SQ_TAIL is the control SQ's doorbell (R455, R481). -/
def execScCtlSqTailWrite (p : Fin 16) (v : Word) (s : State) : Host.Outcome State Fault Refusal :=
  finish <| match tget s.sqs (ctlSq p.val) with
    | some q => if s.rdB (F.ctlCfg_en.at (ctlBase p.val)) then s.sqTail (ctlSq p.val) q v.toNat else s
    | none => s

/-- A write of SC_CTL_CQ_HEAD (R456, R481). -/
def execScCtlCqHeadWrite (p : Fin 16) (v : Word) (s : State) : Host.Outcome State Fault Refusal :=
  finish <| match tget s.cqs (ctlCq p.val) with
    | some k => if s.rdB (F.ctlCfg_en.at (ctlBase p.val)) then s.cqHead (ctlCq p.val) k v.toNat else s
    | none => s

/-- The snapshot of SC_QINFO0 to 3 for an object (R482). -/
def State.qInfo (s : State) (fn type n : Nat) : Nat × Nat × Nat × Nat :=
  let mine (p : Nat) : Bool := fn == p
  match type with
  | 0 => match tget s.sqs n with
    | some q => if mine q.part then
        (q.head, q.tail, (if q.deleting.isSome then 3 else if q.stopped then 2 else 1) + 8 * q.part + 128 * q.cls + 1024 * q.log2, q.fetched)
      else (0, 0, 0, 0)
    | none => (0, 0, 0, 0)
  | 1 => match if n < 4096 then tget s.cqs n else none with
    | some k => if mine k.part then (k.prod, k.cons, 1 + 8 * k.part + 1024 * k.log2, k.written) else (0, 0, 0, 0)
    | none => (0, 0, 0, 0)
  | 2 => match tget s.mrings n with
    | some r => if mine r.part then (r.prod, r.cons, 1 + 8 * r.part + 512 * b2n r.discard + 1024 * r.log2, r.dropped) else (0, 0, 0, 0)
    | none => (0, 0, 0, 0)
  | _ => (0, 0, 0, 0)

/-- A write of SC_QSEL takes the snapshot and sets ready (R482). -/
def execScQselWrite (fn : Fin 16) (v : Word) (s : State) : Host.Outcome State Fault Refusal :=
  let n := v.toNat
  let f := fn.val
  let (a, b, c, d) := s.qInfo f (bits n 14 2) (bits n 0 14)
  let s := ((s.wr (F.scQsel_number.fn f) (bits n 0 14)).wr (F.scQsel_type.fn f) (bits n 14 2)).wr (F.scQsel_ready.fn f) 1
  finish ((((s.setReg (F.scQinfo0_moduleIdx.fn f).off (BitVec.ofNat 32 a)).setReg (F.scQinfo1_driverIdx.fn f).off (BitVec.ofNat 32 b)).setReg
    (F.scQinfo2_state.fn f).off (BitVec.ofNat 32 c)).setReg (F.scQinfo3_count.fn f).off (BitVec.ofNat 32 d))

end Sys2Proof.Machine
end

