-- ==== Sys2Proof/Machine/Scheduler.lean ====
section
/-! DEFINITION. Eligibility, deadlines, dispatch order, compute dispatch, pre-emption, saves and restores (08, 06 R197 to R200). -/

namespace Sys2Proof.Machine

/-! ### Time on the timeline -/

/-- Sublines that a number of ns takes at the line length in effect, rounded up (R281). [DESIGN CHOICE, log entry 21] -/
def State.subOfNs (s : State) (ns : Nat) : Nat := cdiv (ns * 65536 * s.tl.lines * s.tl.num) (s.tl.den * 1000000000)

/-- Sublines of a number of ARITH cycles at 750 MHz, rounded up (R281). [DESIGN CHOICE, log entry 21] -/
def State.subOfCycles (s : State) (n : Nat) : Nat := cdiv (n * 65536 * s.tl.lines * s.tl.num) (s.tl.den * 750000000)

/-- The stamp a number of sublines after another. -/
def State.stAdd (s : State) (st n : Nat) : Nat :=
  let sub := stSub st + n
  let line := stLine st + sub / 65536
  mkStamp (stFrame st + line / s.tl.lines) (line % s.tl.lines) sub

/-- Is a stamp invalid: a constraint whose line is not below the raster in effect (R43)? -/
def State.stampBad (s : State) (st : Nat) : Bool := st != noStamp && s.tl.lines ≤ stLine st

/-! ### Classes and order -/

/-- Class of a command, from its queue (R272). -/
def State.clsOf (s : State) (c : Cmd) : Nat := match tget s.sqs c.sq with | some q => q.cls | none => 3

/-- The command's queue drops late commands (R276). -/
def State.dropsLate (s : State) (c : Cmd) : Bool := match tget s.sqs c.sq with | some q => q.drop | none => false

/-- Earlier deadline first, the no-constraint value last, ties by queue number and queue order (R47, R273). -/
def deadlineBefore (a b : Cmd) : Bool :=
  if a.desc.deadline == b.desc.deadline then decide (a.sq < b.sq) || (a.sq == b.sq && decide (a.order < b.order))
  else if a.desc.deadline == noStamp then false
  else if b.desc.deadline == noStamp then true
  else stLt a.desc.deadline b.desc.deadline

/-- The published picture an argument word names (R465, kind 6). -/
def State.picArg (s : State) (a : Nat) : Option Pic :=
  (tget s.ctxs (bits a 32 14)).bind fun x => x.dpb.find? fun p => p.id == bits a 0 32 && p.shown

/-- The pictures that a command names have been published (R327). -/
def State.picsReady (s : State) (c : Cmd) : Bool :=
  c.desc.args.all fun a => argKind a != 6 || match tget s.ctxs (bits a 32 14) with
    | some x => match x.lastPub with
      | some n => !seqLt n (bits a 0 32)
      | none => false
    | none => true

/-- The command before this one in its queue is out of the way (R468). -/
def State.afterReady (s : State) (c : Cmd) : Bool :=
  !c.desc.after || !(s.cmds.any fun e => e.2.sq == c.sq && (e.2.seq + 1) % 2 ^ 32 == c.seq)

/-- The conditions of eligibility (R34, R45, R327, R328, R468). -/
def State.canBeEligible (s : State) (c : Cmd) : Bool :=
  (c.desc.notBefore == noStamp || !stLt s.now c.desc.notBefore) && s.afterReady c && s.picsReady c &&
    !(c.desc.cls == 2 && s.cmds.any fun e => e.2.desc.cls == 2 && e.2.desc.ctx == c.desc.ctx && e.2.desc.part == c.desc.part && e.2.order < c.order)

/-! ### The checks and the resources of a compute dispatch -/

/-- The dispatch checks of a compute command in their order (R198, R313, R566): code of the first failure, 0 to go on, 1 for an empty command. -/
def State.dispatchCheck (s : State) (c : Cmd) : Nat :=
  let d := c.desc
  let k := compOf d.target
  if (s.rd F.ftStat_pfail).testBit d.part then 0x362
  else if s.stampBad d.notBefore || s.stampBad d.deadline then 0x106
  else if d.notBefore != noStamp && d.deadline != noStamp && !stLt d.notBefore d.deadline then 0x107
  else match tget s.lists d.op with
    | none => 0x609
    | some l =>
      if l.part ≠ d.part then 0x609
      else if l.level ≠ compLevel k then 0x605
      else if compLevel k = 0 && s.boleOff k then 0x301
      else if (List.range 8).any fun i => l.maxS.getD i 0 < d.shape i then 0x603
      else if l.usesRandom && c.attempts = 0 && !(tgetD s.seeds (d.part * 256 + d.seedIdx) ⟨0, false⟩).valid then 0x610
      else if (List.range 8).any fun i => l.zeroMask.testBit i && d.shape i == 0 then 1
      else 0

/-- Resources that at most one dispatched command may name (R255, R470): append tensors, rings, caches, sessions and generation contexts. -/
def State.exclusive (s : State) (c : Cmd) : List (Nat × Nat) :=
  (c.desc.args.filterMap fun a => match argKind a with
    | 3 => some (3, argAddr a)
    | 4 => some (4, bits a 0 10)
    | 5 => some (5, argAddr a)
    | _ => none) ++
  (if c.desc.ctxValid then match tget s.ctxs c.desc.ctx with
    | some x => if x.kind == 2 || x.kind == 3 || x.kind == 4 then [(6, c.desc.ctx)]
        else if c.desc.cls == 1 && c.desc.args.any (fun a => argKind a == 5) then [(7, c.desc.ctx)] else []
    | none => [] else [])

/-- Another dispatched command, or an earlier one of the same queue, names one of them (R470). -/
def State.exclusiveBusy (s : State) (slot : Nat) (c : Cmd) : Bool :=
  let mine := s.exclusive c
  !mine.isEmpty && s.cmds.any fun e => e.1 != slot && (e.2.inFlight || e.2.phase == .killed || (e.2.sq == c.sq && e.2.order < c.order)) &&
    (s.exclusive e.2).any mine.contains

/-- The ring arguments of a command with their r_max (R471). -/
def ringArgs (c : Cmd) : List (Nat × Nat) := c.desc.args.filterMap fun a =>
  if argKind a == 4 then some (bits a 0 10, bits a 16 16) else none

/-- A ring of policy block lacks free slots (R471). -/
def State.ringsWait (s : State) (c : Cmd) : Bool := (ringArgs c).any fun (n, r) => match tget s.mrings n with
  | some g => !g.discard && g.free < r
  | none => false

/-- The records a command may place, fixed at dispatch (R471). -/
def State.ringOuts (s : State) (c : Cmd) : List RingOut := (ringArgs c).filterMap fun (n, r) =>
  (tget s.mrings n).map fun g => ⟨n, g.prod, r, decide (r ≤ g.free), 0⟩

/-- The published output that a link argument names: its data address and, of a fresh one, its buffer (R465). [DEDUCED, log entry 88] -/
def State.linkOut (s : State) (c : Cmd) (a : Nat) : Option (Nat × Option BufRef) := (tget s.sqs c.sq).bind fun q =>
  (q.outs.find? fun o => (o.1 + 1) % 2 ^ 32 == c.seq && o.2.1 == argAddr a).map fun o => o.2.2

/-- The buffers of pictures and links that the command holds from its first dispatch (R400, R465). -/
def State.inputBufs (s : State) (c : Cmd) : List BufRef := c.desc.args.filterMap fun a => match argKind a with
  | 6 => (s.picArg a).bind fun p => if a.testBit 46 then p.map else some p.frame
  | 7 => (s.linkOut c a).bind (·.2)
  | _ => none

/-- A picture argument whose picture is gone, or a link to an output that is not there any more. [DEDUCED, log entry 18] -/
def State.inputGone (s : State) (c : Cmd) : Bool := c.first = 0 && c.desc.args.any fun a => match argKind a with
  | 6 => (s.picArg a).isNone
  | 7 => match s.linkOut c a with
    | none => true
    | some (_, some b) => (match s.ownerOf b with | some o => o.kind != 2 || o.part != c.desc.part | none => true)
    | some (_, none) => false
  | _ => false

/-- How taking the buffers of fresh outputs ends. -/
inductive FreshRes where
  | got (bufs : Tab BufRef) (s : State)
  | wait (deck : Nat) (s : State)
  | disabled
  | empty

/-- Takes a buffer from each deck of a list, keyed; nothing is taken if one has to wait (R219, R398, R404, R405). -/
def State.takeDecks (s : State) (slot : Nat) (c : Cmd) (live : Bool) (want : List (Nat × Nat)) : FreshRes :=
  let me : Waiter := ⟨slot, live, c.desc.deadline, c.rerun, c.order⟩
  let go := want.foldl (fun (acc : FreshRes) w => match acc with
    | .got bufs s' =>
      let o : Owner := ⟨c.desc.part, 0, slot, [.cmd slot]⟩
      match if c.rerun then s'.allocRecovery w.2 o else if s'.deckOn w.2 && s'.deckQueue w.2 me then .wait s' else s'.alloc w.2 live o with
      | .got b s'' => .got (tput bufs w.1 b) s''
      | .wait s'' => .wait w.2 { s'' with decks := s.decks, dram := s.dram }
      | .disabled => .disabled
      | .empty => .empty
    | r => r) (.got [] s)
  match go with
  | .wait d s' =>
    let k := s'.deck d
    .wait d (if k.waiters.any fun x => x.slot == slot then s' else s'.setDeck d { k with waiters := k.waiters ++ [me] })
  | r => r

/-- Takes a buffer for every fresh output, in argument order (R219). -/
def State.takeFresh (s : State) (slot : Nat) (c : Cmd) : FreshRes :=
  s.takeDecks slot c (s.clsOf c == 0) (((List.range 8).filter fun i => argKind (c.desc.arg i) == 2).map fun i => (i, argDeck (c.desc.arg i)))

/-- The value that argument i gives its A register (R465); none where a tensor header cannot be read. [DEDUCED, log entry 18] -/
def State.argValue (s : State) (c : Cmd) (fresh : Tab BufRef) (i : Nat) : MemRes Nat :=
  let a := c.desc.arg i
  match argKind a with
  | 1 => .ok (bits a 0 50)
  | 2 => .ok (match tget fresh i with | some b => s.bufAddr b | none => 0)
  | 3 => match s.dramRead c.desc.part (argAddr a) 64 with
    | .ok h => .ok ((field h 0 6 + field h 16 8) % 2 ^ 48)
    | .denied x => .denied x
    | .bad x => .bad x
  | 4 => .ok (match tget s.mrings (bits a 0 10) with | some r => r.at r.prod | none => 0)
  | 5 => .ok (argAddr a)
  | 6 => .ok (if c.first ≠ 0 then c.aregs.getD i 0 else match s.picArg a with
    | some p => if a.testBit 46 then (match p.map with | some m => s.bufAddr m | none => 0) else s.bufAddr p.frame
    | none => 0)
  | 7 => .ok (if c.first ≠ 0 then c.aregs.getD i 0 else match s.linkOut c a with | some o => o.1 | none => 0)
  | _ => .ok 0

/-- Compute may be dispatched at all: the module is ready, memory is, and nothing pauses compute (R70, R385, R512). -/
def State.computeReady (s : State) : Bool :=
  s.rdB F.glStatus_ready && s.rdB F.glStatus_memReady && !s.rdB F.ckSrcStat_paused && !s.pow.paused && !s.rdB F.ftStat_deviceFailed

/-- The command names a later epoch than the one in force; 0 names none (R295). -/
def State.epochWait (s : State) (c : Cmd) : Bool := c.desc.epoch != 0 && seqLt (s.rd F.scEpochCur_epoch) c.desc.epoch

/-- Why a command that passes its checks still waits for its compartment (R23, R27, R279, R293, R295, R567); a re-run waits until a stand-in that is
being made ready in it serves (R23 step 5). -/
def State.compWait (s : State) (c : Cmd) : Bool :=
  let k := compOf c.desc.target
  let cur := s.rd F.scEpochCur_epoch
  let on := (compBoles k).filter s.boleOnline
  s.epochWait c || on.isEmpty || (c.phase == .killed && (compBoles k).any s.preparing) ||
    (64 ≤ k && s.sched.switching.contains (k + 10)) ||
    (on.any fun n => s.rd (F.epoch_epoch.at (blBase (s.physOf n))) != cur || (s.bole (s.physOf n)).draining || (s.bole (s.physOf n)).scrubFor != 0) ||
    (s.sched.handover.any fun h => (compBoles k).contains h.1) ||
    compLimit k ≤ s.inFlightOn k || on.any fun n => 64 ≤ s.inFlightOn n

/-- How an attempt to dispatch ends. -/
inductive DispRes where
  | refuse (code : Nat)
  | wait (s : State)
  | fault (code addr : Nat)
  | fatal
  | go (s : State)

/-- The stream context a command names (R250): a decode context. -/
def State.streamCtx (s : State) (c : Cmd) : Option (Nat × Ctx) :=
  if !c.desc.ctxValid then none else (tget s.ctxs c.desc.ctx).bind fun x => if x.kind = 0 then some (c.desc.ctx, x) else none

/-- The address of a command's cache argument (R253). -/
def Cmd.cacheArg (c : Cmd) : Nat := ((c.desc.args.find? fun a => argKind a == 5).map argAddr).getD 0

/-- The cache key of a command. -/
def Cmd.key (c : Cmd) (l : CutList) : Nat := (Config.cacheKey l.check c.desc.args).toNat

/-- A delta command: it names a tile cache (R253). -/
def Cmd.isDelta (c : Cmd) : Bool := c.desc.cls == 1 && c.desc.args.any fun a => argKind a == 5

/-- The delta record that the command was dispatched with forces refresh, whatever its map (R250). -/
def Cmd.recordForces (c : Cmd) (l : CutList) : Bool :=
  let d := c.delta
  let period := field d 16 2
  !(field d 21 1).testBit 0 || (field d 21 1).testBit 1 || period == 0 || decide (period ≤ field d 18 2 + 1) || field d 4 4 != c.key l || field d 8 6 != c.cacheArg

/-- The delta record that a command is dispatched with (R250, R254), the same for its re-runs; a first dispatch of a delta command takes up what was
rewritten before it (R255). -/
def State.takeDelta (s : State) (slot : Nat) : State := match tget s.cmds slot with
  | none => s
  | some c => match s.streamCtx c with
    | none => s
    | some (id, x) =>
      let first := c.attempts = 1
      let c := if first then { c with delta := x.params.drop 32 } else c
      let c := if c.isDelta then { c with forced := (tget s.lists c.desc.op).any c.recordForces } else c
      let s := s.setCmd slot c
      if first && c.isDelta then { s with ctxs := tput s.ctxs id { x with rewritten := false } } else s

/-- Marks a command as dispatched: its epoch, seed, registers, buffers, holds and ring slots are bound (R197, R292, R312, R400, R465, R471). -/
def State.bind (s : State) (slot : Nat) (c : Cmd) (fresh : Tab BufRef) (aregs : List Nat) (holds : List BufRef) : State :=
  let first := c.first = 0
  let s := if first then { s with sched := { s.sched with nextFirst := s.sched.nextFirst + 1 } } else s
  let seed := if first then (tgetD s.seeds (c.desc.part * 256 + c.desc.seedIdx) ⟨0, false⟩).value else c.seed
  let s := { s with sched := { s.sched with preempting := s.sched.preempting.filter (· != slot), nextPort := s.sched.nextPort + 1 } }
  let rs := s.ringOuts c
  s.setCmd slot { c with
    phase := .running, first := if first then s.sched.nextFirst else c.first, attempts := c.attempts + 1
    epoch := s.rd F.scEpochCur_epoch, seed := seed, startAt := s.now, aregs := aregs, fresh := fresh
    holds := if first then holds else c.holds
    port := if s.clsOf c == 0 then -(s.sched.nextPort : Int) else s.sched.nextPort, rings := rs, discarded := rs.any fun r => !r.stored, cycles := 0, usedBoles := 0 }

/-- The common part of a dispatch, after its checks (R219, R400, R401, R465, R471): waits leave the command as it is. -/
def State.tryDispatch (s : State) (slot : Nat) (c : Cmd) : DispRes :=
  if s.exclusiveBusy slot c || s.ringsWait c then .wait s
  else if s.inputGone c then .refuse 0x324
  else match s.takeFresh slot c with
    | .disabled => .refuse 0xC0E
    | .wait _ s' => .wait s'
    | .empty => .fatal
    | .got fresh s1 =>
      let holds := s1.inputBufs c
      let held : Option State := if c.first = 0 then (c.holds.foldl List.erase holds).foldl (fun (acc : Option State) b => acc.bind fun x => x.hold b (.cmd slot)) (some s1)
        else some s1
      match held with
      | none => .refuse 0xC09
      | some s2 =>
        let vals := (List.range 8).map fun i => s2.argValue c fresh i
        match vals.find? fun v => match v with | .ok _ => false | _ => true with
        | some (.denied a) => .fault 0xB07 a
        | some (.bad a) => .fault 0xB02 a
        | _ => .go (s2.bind slot c fresh (vals.map fun v => match v with | .ok n => n | _ => 0) holds)

/-- Dispatch of a compute command (R197, R198, R273): the checks, then the compartment, then the common part. -/
def State.dispatchCompute (s : State) (slot : Nat) (c : Cmd) : DispRes :=
  if !s.computeReady then .wait s
  else
    let code := s.dispatchCheck c
    if code > 1 then .refuse code
    else if s.compWait c then .wait s
    else match s.tryDispatch slot c with
      | .go s' =>
        let k := compOf c.desc.target
        let on := (compBoles k).filter s.boleOnline
        let s' := s'.takeDelta slot
        if code = 1 then .go ((s'.modCmd slot fun c => { c with ready := true, extents := [] }).sayOnce slot 0x60D .scheduler)
        else .go (s'.modCmd slot fun c => { c with
          shares := on, unstarted := if k < 64 then [k] else [], degraded := on.length < (compBoles k).length })
      | r => r

/-- Place of a command in the order of R273: 0 the LIVE command that others were pre-empted for, 1 re-runs, 2 LIVE, 3 the rest. -/
def State.tier (s : State) (slot : Nat) (c : Cmd) : Nat :=
  if s.sched.preempting.contains slot then 0 else if c.phase == .killed || c.phase == .suspended then 1 else if s.clsOf c == 0 then 2 else 3

/-- The owned subtree that a compartment of a partition lies in: the largest compartment around it that the partition owns whole (R26, R274). [DEDUCED, log entry 20] -/
def State.subtreeOf (s : State) (p k : Nat) : Nat :=
  let n := (compBoles k).headD 0
  (([84, 80 + n / 16, 64 + n / 4].filter fun j => compLevel k < compLevel j).find? (s.owns p)).getD k

/-- The owned subtree of a compute command. -/
def State.subtree (s : State) (c : Cmd) : Nat := s.subtreeOf c.desc.part (compOf c.desc.target)

/-- A class has eligible commands on an owned subtree (R274). -/
def State.classHas (s : State) (key x : Nat) : Bool :=
  s.cmds.any fun e => e.2.phase == .eligible && e.2.desc.cls == 1 && s.subtree e.2 == key && s.clsOf e.2 == x

/-- The class that may dispatch on an owned subtree in this slice (R274): the holder while its slice lasts and it has eligible work, otherwise
the next class in the order INTERACTIVE, BATCH, BACKGROUND that has. [DEDUCED, log entry 20] -/
def State.sliceClass (s : State) (key : Nat) : Nat :=
  let cur := tgetD s.sched.slices key ⟨0, 0, true⟩
  let order := match cur.cls with
    | 1 => [2, 3, 1]
    | 2 => [3, 1, 2]
    | _ => [1, 2, 3]
  if !cur.expired && cur.cls != 0 && s.classHas key cur.cls then cur.cls else (order.find? (s.classHas key)).getD 0

/-- Does a command come before another on the same compartment (R273)? [DEDUCED, log entry 19] -/
def State.before (s : State) (k : Nat) (a b : Nat × Cmd) : Bool :=
  let ta := s.tier a.1 a.2
  let tb := s.tier b.1 b.2
  if ta ≠ tb then decide (ta < tb)
  else match ta with
    | 1 => a.2.first < b.2.first
    | 3 =>
      let cls := s.sliceClass (s.subtree b.2)
      let ca := s.clsOf a.2; let cb := s.clsOf b.2
      if ca ≠ cb then ca == cls
      else
        let last := tgetD s.sched.lastSq (4 * k + ca) 0
        let ra := (a.2.sq + 32768 - last - 1) % 32768
        let rb := (b.2.sq + 32768 - last - 1) % 32768
        if ra = rb then a.2.order < b.2.order else ra < rb
    | _ => deadlineBefore a.2 b.2

/-- Commands addressed to a compartment that could be dispatched next. -/
def State.candidates (s : State) (k : Nat) : List (Nat × Cmd) := s.cmds.filter fun e =>
  e.2.desc.cls == 1 && compOf e.2.desc.target == k && (e.2.phase == .eligible || e.2.phase == .killed || e.2.phase == .suspended)

/-- No better candidate of the compartment could be dispatched (R273, R274): commands that wait let the next one pass, but not a suspended one,
and outside its slice a class dispatches nothing. [DEDUCED, log entry 19] -/
def State.isNext (s : State) (slot : Nat) (c : Cmd) : Bool :=
  let k := compOf c.desc.target
  (s.tier slot c != 3 || s.clsOf c == s.sliceClass (s.subtree c)) &&
    (s.candidates k).all fun e => e.1 == slot || !s.before k e (slot, c) || match s.dispatchCompute e.1 e.2 with
      | .wait _ => e.2.phase != .suspended
      | _ => false

/-- The slice and the turn of a dispatch of a class other than LIVE (R273, R274). -/
def State.tookTurn (s : State) (slot : Nat) (c : Cmd) : State :=
  if s.tier slot c ≠ 3 then s
  else
    let k := compOf c.desc.target
    let cls := s.clsOf c
    let key := s.subtree c
    let cur := tgetD s.sched.slices key ⟨0, 0, true⟩
    let s := if cur.cls = cls && !cur.expired then s else { s with sched := { s.sched with slices := tput s.sched.slices key ⟨cls, s.now, false⟩ } }
    { s with sched := { s.sched with lastSq := tput s.sched.lastSq (4 * k + cls) c.sq } }

/-- A re-run that is dispatched ends recovery once no other waits (R562). After a contained fault its interruption is recorded: from the detection
until the re-run stands where the killed attempt stood, which is as long after this dispatch as the kill came after the attempt's own, so the time
since that attempt began (R557, R558). [DEDUCED, log entry 89] -/
def State.rerunStarted (s : State) (c : Cmd) : State :=
  if c.phase != .killed then s
  else
    let us := s.nsSince c.startAt / 1000
    let s := if c.killedAt = noStamp then s
      else
        let s := s.wr F.ftTimes_last (min us 65535)
        if s.rd F.ftTimes_longest < us then s.wr F.ftTimes_longest (min us 65535) else s
    s.recheckRecovering

/-- The command's deadline has passed before its first dispatch, and its queue drops late commands (R276). -/
def State.lateDrop (s : State) (c : Cmd) : Bool :=
  c.attempts == 0 && c.late s.now && s.dropsLate c

/-- Drops a late command with those that depend on it (R276, R278). -/
def State.dropLate (s : State) (slot : Nat) : State := (s.logCmd 0x303 slot).endCmd slot 3 0x303

/-- A compute command is dispatched to its compartment (R198, R273, R276): dropped, refused, waiting, or bound to it. -/
def State.computeCommand (s : State) (slot : Nat) : State :=
  match tget s.cmds slot with
  | none => s
  | some c =>
    if c.desc.cls != 1 || !(c.phase == .eligible || c.phase == .killed) then s
    else if s.lateDrop c then s.dropLate slot
    else if !s.isNext slot c then s
    else match s.dispatchCompute slot c with
      | .refuse code => s.refuseCmd slot code
      | .wait s' => s'
      | .fault code a => s.dataFault slot code .scheduler 0 a
      | .fatal => s.partitionFatal c.desc.part 0x361 .deck
      | .go s' =>
        let sc := (s.tookTurn slot c).sched
        ({ s' with sched := { s'.sched with slices := sc.slices, lastSq := sc.lastSq } }).rerunStarted c

/-! ### Pre-emption -/

/-- The boles of a compartment have a free issue context each (R281, R282). -/
def State.freeCtxs (s : State) (k : Nat) : Bool :=
  ((compBoles k).filter s.boleOnline).all fun n => let b := s.bole (s.physOf n); b.ctxs.length + b.held.length < 4

/-- The command has started: a share of it runs or has reported. -/
def State.started (s : State) (slot : Nat) (c : Cmd) : Bool :=
  !c.reported.isEmpty || s.boles.any fun b => b.2.ctxs.any fun x => x.2.slot == slot

/-- Commands running on a compartment: those with a context on one of its boles. -/
def State.runningOn (s : State) (k : Nat) : List (Nat × Cmd) := s.cmds.filter fun e =>
  e.2.phase == .running && e.2.desc.cls == 1 && (compBoles k).any fun n => (s.bole (s.physOf n)).ctxs.any fun x => x.2.slot == e.1

/-- ns that a command has run: its longest share (R208, R282). [DESIGN CHOICE, log entry 21] -/
def State.ranNs (s : State) (slot : Nat) : Nat := (s.ctxsOf slot).foldl (fun n x => max n (s.ctxNs x)) 0

/-- ARITH cycles a command has counted: the most of its members (R208). [DESIGN CHOICE, log entry 21] -/
def State.cyclesOf (s : State) (slot : Nat) (c : Cmd) : Nat :=
  (s.ctxsOf slot).foldl (fun n x => max n (s.ctxCycles x)) c.cycles

/-- cycle_budget of a command's cut list. -/
def State.budgetOf (s : State) (c : Cmd) : Nat := match tget s.lists c.desc.op with | some l => l.budget | none => 0

/-- Live bytes of a bole (R284). -/
def Bole.liveBytes (b : Bole) : Nat := 16384 * b.spadLive.length + 4096 * b.accLive.length + 16384

/-- t_save of a compartment in ns (R285). -/
def State.saveNs (s : State) (k : Nat) : Nat :=
  let l := ((compBoles k).filter s.boleOnline).map fun n => (s.bole (s.physOf n)).liveBytes
  3000 + max (cdiv (l.foldl (· + ·) 0) 900) (cdiv (l.foldl max 0) 64)

/-- Command-level victims in their order (R282): BACKGROUND, BATCH, INTERACTIVE, and within a class the fewest counted cycles. -/
def State.victims (s : State) (k : Nat) : List (Nat × Cmd) :=
  [3, 2, 1].flatMap fun cls => ((s.runningOn k).filter fun e => s.clsOf e.2 == cls).mergeSort fun a b => s.cyclesOf a.1 a.2 ≤ s.cyclesOf b.1 b.2

/-- Counts a pre-emption or a suspension at each bole of the command's shares (R302). -/
def State.countPreempt (s : State) (shares : List Nat) : State :=
  shares.foldl (fun (s : State) n => s.inc (F.acPreempt_preempted.at (blBase (s.physOf n))) 1) s

/-- A command-level pre-emption of one command: the kill and its counts (R283, R301, R302). -/
def State.preemptOne (s : State) (e : Nat × Cmd) : State :=
  ((s.killCmd e.1 .preempt).inc F.scPreemptCnt_count 1).countPreempt e.2.shares

/-- Kills victims until every bole of the compartment has a free issue context (R282, R283); the contexts are for the LIVE command. -/
def State.preemptCmds (s : State) (k : Nat) : State :=
  (s.victims k).foldl (fun (s : State) e =>
    if s.freeCtxs k then s
    else
      let s := s.preemptOne e
      { s with boles := tmap s.boles fun (b : Bole) => { b with held := b.held.filter fun h => h.2 != e.1 } }) s

/-- The contexts of a command stop issuing: what they have run stands (R208, R285). -/
def State.stopIssue (s : State) (slot : Nat) : State :=
  { s with boles := tmap s.boles fun (b : Bole) => { b with ctxs := tmap b.ctxs fun (x : IssueCtx) =>
    if x.slot == slot then { x with ranNs := s.ctxNs x, ranGated := s.ctxGated x, stopped := true } else x } }

/-- A command with a window still open or exhausted (R180). -/
def State.windowOpen (s : State) (slot : Nat) : Bool :=
  (s.boles.any fun e => e.2.wins.any fun w => w.2.slot == slot && (w.2.state == 1 || w.2.state == 2)) ||
    (s.lands.any fun e => e.2.wins.any fun w => w.2.slot == slot && (w.2.state == 1 || w.2.state == 2))

/-- A group-level save starts (R285): every command running on the compartment stops issuing, one with a window open or exhausted as soon as it has closed
it (R180). [DEDUCED, log entry 116] -/
def State.startSave (s : State) (k : Nat) : State :=
  let s := (s.runningOn k).foldl (fun (s : State) e =>
    (if s.windowOpen e.1 then s else s.stopIssue e.1).modCmd e.1 fun c => { c with phase := .saving }) s
  s.inc F.scPreemptCnt_count2 1

/-- group_ok of a partition (R287): the save area holds a slot for every owned bole and lies under the partition's key. -/
def State.groupOk (s : State) (p : Nat) : Bool :=
  let n := (maskList 64 (s.ownMask p)).length
  let lo := s.rd2 (F.ptSaveLo_save.at (ptBase p)) (F.ptSaveHi_save.at (ptBase p))
  let size := s.rd (F.ptSaveSize_size.at (ptBase p)) * 1024
  933888 * n ≤ size && lo + size ≤ dramSize &&
    (List.range (if size = 0 then 0 else (lo + size - 1) / 2 ^ 30 - lo / 2 ^ 30 + 1)).all fun i => s.keyOf ((lo / 2 ^ 30 + i) * 2 ^ 30) == p

/-- A LIVE command that is eligible, or that waits in its compartment's port for contexts (R273, R281). -/
def State.liveWaits (s : State) (slot : Nat) (c : Cmd) : Bool :=
  c.desc.cls == 1 && s.clsOf c == 0 && (c.phase == .eligible || (c.phase == .running && !c.ready && !s.started slot c))

/-- The command comes first of the LIVE commands that wait for its compartment: those in the port in its order, then the eligible ones (R273, R281). -/
def State.atHead (s : State) (slot : Nat) (c : Cmd) : Bool := s.cmds.all fun e =>
  e.1 == slot || !s.liveWaits e.1 e.2 || compOf e.2.desc.target != compOf c.desc.target ||
    (match e.2.phase == .running, c.phase == .running with
     | true, true => decide (c.port < e.2.port)
     | true, false => false
     | false, true => true
     | false, false => !deadlineBefore e.2 c)

/-- The slack test of a LIVE command at the head of its port and the pre-emption that a failure brings (R280 to R283). -/
def State.slackTest (s : State) (slot : Nat) : State :=
  match tget s.cmds slot with
  | none => s
  | some c =>
    let k := compOf c.desc.target
    if !s.liveWaits slot c || !s.atHead slot c || !s.rdB (F.ptCtrl_livePreempt.at (ptBase c.desc.part)) || c.desc.deadline == noStamp then s
    else
      let run := (s.runningOn k).filter fun e => e.2.desc.part == c.desc.part
      let soft := run.filter fun e => s.clsOf e.2 != 0
      let left := soft.map fun e => s.budgetOf e.2 - s.cyclesOf e.1 e.2
      let wait := if s.freeCtxs k then 0 else match left with
        | [] => 0
        | x :: xs => xs.foldl min x
      let at' := s.stAdd s.now (s.subOfCycles wait + s.subOfCycles (s.budgetOf c))
      if stLt at' c.desc.deadline || soft.isEmpty then s
      else
        let b := ptBase c.desc.part
        let longest := run.foldl (fun m e => max m (s.ranNs e.1)) 0
        let s := if c.phase == .eligible then { s with sched := { s.sched with preempting := s.sched.preempting ++ [slot] } } else s
        if s.rdB (F.ptCtrl_groupEn.at b) && s.groupOk c.desc.part && run.length == soft.length && 2 * s.saveNs k ≤ longest
        then s.startSave k
        else s.preemptCmds k

/-- The command waits and the conditions of eligibility hold. -/
def State.mayBeEligible (s : State) (c : Cmd) : Bool := c.phase == .waiting && c.desc.cls != 0 && s.canBeEligible c

/-- A command becomes eligible (R45, R327, R468); a LIVE command then takes the slack test (R281). -/
def State.becomeEligible (s : State) (slot : Nat) : State := match tget s.cmds slot with
  | none => s
  | some c => if s.mayBeEligible c then (s.setCmd slot { c with phase := .eligible }).slackTest slot else s

/-- Another command comes before this one among those that become eligible on one tick: a lower queue, or earlier in the same one (R47). -/
def State.eligibleBefore (s : State) (c : Cmd) : Bool :=
  s.cmds.any fun e => s.mayBeEligible e.2 && (e.2.sq < c.sq || (e.2.sq == c.sq && e.2.order < c.order))

/-- A command's not-before stamp is reached, its predecessor has committed and its pictures are published (R45, R327, R468), and every event that R47 puts
first on this tick has taken effect. -/
def execCommandEligible (slot : Fin 4096) (s : State) : Host.Outcome State Fault Refusal :=
  finish <| match tget s.cmds slot.val with
    | none => s
    | some c =>
      if s.switchDue || s.epochDue || (List.range 16).any s.alarmDue || s.eligibleBefore c then s else s.becomeEligible slot.val

/-- A deadline passes before dispatch (R276, R278): policy drop ends the command and those after it, policy run marks it late. -/
def execDeadlinePass (slot : Fin 4096) (s : State) : Host.Outcome State Fault Refusal :=
  finish <| match tget s.cmds slot.val with
    | none => s
    | some c =>
      if !(c.phase == .waiting || c.phase == .eligible) then s
      else if s.lateDrop c then s.dropLate slot.val
      else s

/-- A compute command is dispatched (R198, R273). -/
def execComputeCommand (slot : Fin 4096) (s : State) : Host.Outcome State Fault Refusal := finish (s.computeCommand slot.val)

/-- A slice of an owned subtree has lasted its time (R274): its class dispatches nothing more until its next turn, or where no other class has eligible
work takes a new slice at once. [DESIGN CHOICE, log entry 106] -/
def execSliceExpiry (k : Fin 85) (s : State) : Host.Outcome State Fault Refusal :=
  finish <| match tget s.sched.slices k.val, (List.range 16).find? fun p => s.owns p k.val with
    | some x, some p =>
      if x.expired || x.cls == 0 || s.nsSince x.since < 1000 * s.rd (F.ptSlice_slice.at (ptBase p + 4 * (x.cls - 1))) then s
      else
        let x' : Slice := if [1, 2, 3].any fun y => y != x.cls && s.classHas k.val y then { x with expired := true } else { x with since := s.now }
        { s with sched := { s.sched with slices := tput s.sched.slices k.val x' } }
    | _, _ => s

/-- The driver pre-empts all non-LIVE commands of a partition at command level (R280, R283): those that run, those that a save has stopped and those that
are suspended. [DEDUCED, log entry 111] -/
def execPtPreemptRequest (p : Fin 16) (s : State) : Host.Outcome State Fault Refusal :=
  let v := s.cmds.filter fun e => e.2.inFlight && e.2.desc.cls == 1 && e.2.desc.part == p.val && s.clsOf e.2 != 0
  let n := ((s.cmds.filter fun e => e.2.desc.part == p.val && e.2.desc.cls == 1).map (·.2.sq)).eraseDups.length
  let s := v.foldl (fun (s : State) e => s.preemptOne e) s
  finish (if v.isEmpty then s else { s with sched := { s.sched with preemptAt := tput s.sched.preemptAt p.val (s.now, 1500 + 40 * n) } })

end Sys2Proof.Machine
end

