-- ==== Sys2Proof/Machine/Operands.lean ====
section
/-! DEFINITION. Operand forms of the cut-list instructions: address operands, registers, reads and writes of the scratchpad, the Landing, the accumulator file and DRAM by a share, and what an instruction that fails does to its command (05, 06). -/

namespace Sys2Proof.Machine

/-! ### Registers of a context (R201) -/

/-- Index register i; I0 reads 0. -/
def Held.ir (r : Held) (i : Nat) : Nat := if i = 0 then 0 else (r.ireg.getD i 0).toNat
/-- Address register a. -/
def Held.ar (r : Held) (a : Nat) : Nat := (r.areg.getD a 0).toNat
/-- Shape register s. -/
def Held.sr (r : Held) (s : Nat) : Nat := (r.sreg.getD s 0).toNat

/-- The registers a unit instruction issues with. -/
def IssueCtx.regs (c : IssueCtx) (w : Nat) : Held := ⟨w, c.ireg, c.areg, c.sreg, c.scales, c.pc⟩

/-- Sets an index register; a write of I0 is ignored. -/
def IssueCtx.setI (c : IssueCtx) (i v : Nat) : IssueCtx := if i = 0 then c else { c with ireg := setAt c.ireg i (BitVec.ofNat 32 v) }
/-- Sets an address register. -/
def IssueCtx.setA (c : IssueCtx) (a v : Nat) : IssueCtx := { c with areg := setAt c.areg a (BitVec.ofNat 64 v) }

/-- Adds to the address bits of an address register's value, modulo 2^48; the space stays (R201). -/
def addrAdd (v : Nat) (d : Int) : Nat := setBits v 0 48 (wrapN 48 ((bits v 0 48 : Nat) + d))

/-! ### Address operands (R202) -/

/-- A location: space 0 DRAM, 1 Landing, 2 scratchpad, and address. -/
structure Loc where
  space : Nat
  addr : Nat
  deriving DecidableEq, Repr

/-- The location that the 24-bit address operand at bit `f` names (R202). -/
def Held.aop (r : Held) (f : Nat) : Loc :=
  let a := r.ar (bits r.word f 4)
  ⟨bits a 48 2, (bits a 0 48 + r.ir (bits r.word (f + 4) 5) * 2 ^ bits r.word (f + 9) 4 + 64 * bits r.word (f + 13) 11) % 2 ^ 48⟩

/-- How an instruction ends that does not run to its end. -/
inductive Bad where
  /-- A data fault with its code and address (R160), and whether that is an address of the Landing. -/
  | data (code addr : Nat) (land : Bool := false)
  /-- A contained fault with its code and address. -/
  | contained (code addr : Nat)
  /-- The instruction has to wait. -/
  | wait
  deriving DecidableEq, Repr

/-- Size of a scratchpad (R162). -/
def spadSize : Nat := 0xC0000

/-- Bank of a scratchpad address (R162). -/
def spadBank (a : Nat) : Nat := 16 * (a / 2 ^ 18) + bits a 6 4

/-- Does a range of bytes touch a scratchpad bank (R162)? -/
def touchesBank (a n k : Nat) : Bool :=
  if n = 0 then false
  else
    let lo := max (a / 64) (4096 * (k / 16))
    let hi := min ((a + n - 1) / 64) (4096 * (k / 16) + 4095)
    lo ≤ hi && lo + (k % 16 + 16 - lo % 16) % 16 ≤ hi

/-- Banks that a range touches. -/
def banksOf (a n : Nat) : List Nat := (List.range 48).filter (touchesBank a n)

/-- Banks of a physical bole that are gated or still returning to service (R182, R183). -/
def State.gated (s : State) (p k : Nat) : Bool :=
  (s.rd2 (F.spadGateStatLo_banks.at (blBase p)) (F.spadGateStatHi_banks.at (blBase p))).testBit k || (s.bole p).ungating.contains k

/-- Landing segments that are gated or still returning to service (R182, R183). -/
def State.segGated (s : State) (g k : Nat) : Bool := (s.rd (F.lndGateStat_mask.at (cgBase g))).testBit k || (s.land g).ungating.contains k

/-- A Landing segment lies in service and belongs to a partition (R187, R190). -/
def State.segOk (s : State) (part g seg : Nat) : Bool :=
  let b := cgBase g
  (s.rd (F.lndOwned_mask.at b)).testBit seg && !(s.rd (F.lndFailed_count.at b)).testBit seg &&
    bits (s.reg (b + 0x1100 + 4 * (seg / 8))).toNat (4 * (seg % 8)) 4 == part

/-- A group of tally counters belongs to a partition, and the segment it lies in is in service (R187, R190). [DEDUCED, log entry 85] -/
def State.tallyOk (s : State) (part g grp : Nat) : Bool :=
  let b := cgBase g
  (s.rd (F.tallyOwned_mask.at b)).testBit grp && !(s.rd (F.lndFailed_count.at b)).testBit 15 && bits (s.reg (b + 0x1110 + 4 * (grp / 8))).toNat (4 * (grp % 8)) 4 == part

/-- Segments of a slice that a range of Landing addresses touches, with their grove. -/
def segsOf (a n : Nat) : List (Nat × Nat) :=
  if n = 0 then [] else (List.range ((a + n - 1) / 2 ^ 19 - a / 2 ^ 19 + 1)).map fun i => ((a / 2 ^ 19 + i) / 16 % 4, (a / 2 ^ 19 + i) % 16)

/-- A Landing range lies in the Landing and names neither staging nor tally area (R184). -/
def landRangeOk (a n : Nat) : Bool :=
  a + n ≤ 2 ^ 25 && (List.range 4).all fun g => a + n ≤ g * 2 ^ 23 + 0x7C0000 || (g + 1) * 2 ^ 23 ≤ a

/-- The checks at issue of a range in a space (R184, R187, R202, R232): the code of the first that fails, or 0. -/
def State.rangeCode (s : State) (part p : Nat) (spaces : List Nat) (l : Loc) (n : Nat) (align : Nat := 64) : Nat :=
  if !spaces.contains l.space then 0x606
  else match l.space with
    | 0 => if dramSize ≤ l.addr then 0x606 else 0
    | 1 =>
      if l.addr % align ≠ 0 || !landRangeOk l.addr n then 0x501
      else if (segsOf l.addr n).any fun (g, k) => !s.segOk part g k then 0x506
      else if (segsOf l.addr n).any fun (g, k) => s.segGated g k then 0x503
      else 0
    | _ =>
      if l.addr % align ≠ 0 || spadSize < l.addr + n then 0x501
      else if (banksOf l.addr n).any (s.gated p) then 0x503
      else 0

/-! ### Reads and writes of a share -/

/-- Bytes of a scratchpad. -/
def Bole.bytes (b : Bole) (a n : Nat) : List Byte := mread 0 b.spad a n

/-- Writes bytes of a scratchpad; the banks written are live (R284). -/
def State.spadWrite (s : State) (p a : Nat) (data : List Byte) : State :=
  let b := s.bole p
  let live := (banksOf a data.length).filter fun k => !b.spadLive.contains k
  s.setBole p { b with spad := mwrite 0 b.spad a data, spadLive := b.spadLive ++ live }

/-- Bytes of the Landing. -/
def State.landBytes (s : State) (a n : Nat) : List Byte := mread 0 (s.land (a / 2 ^ 23 % 4)).mem (a % 2 ^ 23) n

/-- Writes bytes of the Landing. -/
def State.landWrite (s : State) (a : Nat) (data : List Byte) : State :=
  let g := a / 2 ^ 23 % 4
  let l := s.land g
  s.setLand g { l with mem := mwrite 0 l.mem (a % 2 ^ 23) data }

/-- Bytes at a location for a share of a partition (R191, R372, R375). -/
def State.locRead (s : State) (part p : Nat) (l : Loc) (n : Nat) : Except Bad (List Byte) :=
  match l.space with
  | 0 => match s.dramRead part l.addr n with
    | .ok d => .ok d
    | .denied a => .error (.data 0xB07 a)
    | .bad a => .error (.data 0xB02 a)
  | 1 => .ok (s.landBytes l.addr n)
  | _ => .ok ((s.bole p).bytes l.addr n)

/-- Writes bytes at a location for a share of a partition. -/
def State.locWrite (s : State) (part p : Nat) (l : Loc) (data : List Byte) : Except Bad State :=
  match l.space with
  | 0 => match s.dramWrite part l.addr data with
    | some s' => .ok s'
    | none => .error (.data 0xB07 l.addr)
  | 1 => .ok (s.landWrite l.addr data)
  | _ => .ok (s.spadWrite p l.addr data)

/-- A range that must pass its checks. -/
def State.need (s : State) (part p : Nat) (spaces : List Nat) (l : Loc) (n : Nat) (align : Nat := 64) : Except Bad Unit :=
  match s.rangeCode part p spaces l n align with
  | 0 => .ok ()
  | c => .error (.data c l.addr (l.space == 1))

/-- A condition that must hold, with the code of its failure. -/
def need (b : Bool) (code : Nat) : Except Bad Unit := if b then .ok () else .error (.data code 0)

/-! ### The accumulator file (R86, R124, R214, R241) -/

/-- An accumulator source: first array, bank, release. -/
structure AccSrc where
  array : Nat
  bank : Nat
  release : Bool
  deriving DecidableEq, Repr

/-- The accumulator form of the operand at bit `f` (table VEC, s0_acc). -/
def AccSrc.of (w f : Nat) : AccSrc := ⟨bits w f 4, bits w (f + 4) 1, w.testBit (f + 5)⟩

/-- Bank entries of an array's bank, over its quarters. -/
def Bole.bankEnts (b : Bole) (array bank : Nat) : List (Nat × AccBank) :=
  b.accBanks.filter fun e => e.1 / 4 == array * 2 + bank

/-- Arrays that `n` words from a first array reach. -/
def accArrays (first n : Nat) : List Nat := (List.range (cdiv n 1024)).map (first + ·)

/-- Every bank that a read of `n` words touches is readable: a tile has drained into it with every check passed (R88, R107, R124). -/
def Bole.accReadable (b : Bole) (a : AccSrc) (n : Nat) : Bool :=
  (accArrays a.array n).all fun k => !(b.bankEnts k a.bank).isEmpty && (b.bankEnts k a.bank).all fun e => e.2.readable

/-- `n` words in array order (R214, R239). -/
def Bole.accWords (b : Bole) (a : AccSrc) (n : Nat) : List Word :=
  (List.range n).map fun i => tgetD b.acc ((a.array + i / 1024) * 2048 + a.bank * 1024 + i % 1024) 0

/-- Releases the banks a read named, for the reading context: a T6 bank is free once every context has released its quarter, and an invalid region then goes
too (R86, R107, R241). -/
def Bole.accRelease (b : Bole) (slot ctx : Nat) (a : AccSrc) (n : Nat) : Bole :=
  if !a.release then b
  else
    let gone := b.accBanks.filter fun e => (accArrays a.array n).contains (e.1 / 8) && e.1 / 4 % 2 == a.bank &&
      (e.2.shape != 6 || (e.2.slot == slot && e.2.ctx == ctx))
    let stay := b.accBanks.filter fun e => !(gone.any fun g => g.1 == e.1) && !e.2.invalid
    let gone := gone ++ b.accBanks.filter fun e => e.2.invalid && (gone.any fun g => g.1 / 4 == e.1 / 4) && !(stay.any fun g => g.1 / 4 == e.1 / 4)
    let left := b.accBanks.filter fun e => !(gone.any fun g => g.1 == e.1)
    { b with accBanks := left
             accLive := b.accLive.filter fun k => !(gone.any fun g => g.1 / 4 == k) || left.any fun l => l.1 / 4 == k }

/-! ### How an instruction ends -/

/-- Records a fault in the bucker's registers (R234) and, for a scratchpad code, in BL_SPAD_LAST, which holds no address of the Landing, and BL_SPAD_DROP (R182, R193). [DEDUCED, log entry 75] -/
def State.bkFault (s : State) (p x pc slot code addr : Nat) (land : Bool := false) : State :=
  let b := blBase p
  let s := (s.wr (F.bkFault_code.at b) code).wr (F.bkFault_pc.at b) pc
  let s := ((s.wr (F.bkFaultCtx_ctx.at b) x).wr (F.bkFaultCtx_slot.at b) slot).wr (F.bkFaultCtx_valid.at b) 1
  let s := if (code = 0x501 ∨ code = 0x503 ∨ code = 0x508) ∧ !land then
      ((s.wr (F.spadLast_addr.at b) addr).wr (F.spadLast_cause.at b) (code % 256)).wr (F.spadLast_valid.at b) 1
    else s
  if code = 0x503 then s.inc (F.spadDrop_count.at b) 1 else s

/-- The word of a scratchpad or Landing that failed uncorrected in a re-run of the same command (R191): the bole fails, or the Landing segment goes
out of service and the partition that owns it, or owns the tally group the word belongs to, is partition-fatal. -/
def State.repeatUe (s : State) (p : Nat) (l : Loc) : State :=
  if l.space = 1 then
    let g := l.addr / 2 ^ 23 % 4
    let k := l.addr / 2 ^ 19 % 16
    let b := cgBase g
    let grp := (l.addr % 2 ^ 23 - 0x7F0000) / 4096
    let tally := 0x7F0000 ≤ l.addr % 2 ^ 23
    let part := if tally then bits (s.reg (b + 0x1110 + 4 * (grp / 8))).toNat (4 * (grp % 8)) 4 else bits (s.reg (b + 0x1100 + 4 * (k / 8))).toNat (4 * (k % 8)) 4
    let owned := if tally then (s.rd (F.tallyOwned_mask.at b)).testBit grp else (s.rd (F.lndOwned_mask.at b)).testBit k
    let s := s.wr (F.lndFailed_count.at b) (s.rd (F.lndFailed_count.at b) ||| 2 ^ k)
    if owned then s.partitionFatal part 0x509 .grove g l.addr else s
  else s.failBole p

/-- A tile of a command has its checks still to come. -/
def State.tilePending (s : State) (slot : Nat) : Bool := s.boles.any fun b => b.2.tiles.any fun t => t.slot == slot

/-- A data fault held back for the checks of its command's tiles ends the command once they have all passed (R159). [DEDUCED, log entry 116] -/
def State.heldFault (s : State) (slot : Nat) : State := match (tget s.cmds slot).bind (·.fault) with
  | some f => if s.tilePending slot then s else s.dataFault slot f.code .bole f.bole f.addr f.d1
  | none => s

/-- The end of an instruction that fails (R160, R191, R234); detail1 of a desynchronisation is what BL_SCALE_LAST holds (R554). A data fault of a scale or a
parameter record waits for the checks of the command's tiles, since a check that fails kills the command and takes precedence (R159). -/
def State.failInstr (s : State) (p x pc slot : Nat) : Bad → State
  | .wait => s
  | .data code addr land =>
    let d1 := if code = 0x701 then (s.reg (F.scaleLast_expected.at (blBase p)).off).toNat % 2 ^ 15 else pc + x * 65536
    let s := s.bkFault p x pc slot code addr land
    if (code = 0x701 ∨ code = 0x702 ∨ code = 0x704) ∧ s.tilePending slot then
      s.modCmd slot fun c => { c with fault := c.fault.or (some ⟨code, p, addr, d1⟩) }
    else s.dataFault slot code .bole p addr d1
  | .contained code addr => (s.bkFault p x pc slot code addr).containedKill slot code .bole p addr (pc + x * 65536)

/-- A corrected SRAM error is counted and logged (R191). -/
def State.sramCorrected (s : State) (p space addr : Nat) : State :=
  if space = 1 then (s.inc (F.lndEcc_count.at (cgBase (addr / 2 ^ 23 % 4))) 1).log 0x507 .grove (addr / 2 ^ 23 % 4) addr
  else (s.inc (F.spadEcc_count.at (blBase p)) 1).log 0x507 .bole p addr

/-- Place of the command of a slot in fetch order, which tells it from a later command of the same slot. -/
def State.orderOf (s : State) (slot : Nat) : Nat := match tget s.cmds slot with
  | some c => c.order
  | none => 0

/-- An uncorrected SRAM error kills the reader; the same word failing in its re-run escalates (R191). -/
def State.sramUncorrected (s : State) (p x pc slot space addr : Nat) : State :=
  let w := addr / 8
  if space = 1 then
    let g := addr / 2 ^ 23 % 4
    let again := tget (s.land g).ueWords w == some (s.orderOf slot)
    let s := (s.inc (F.lndEcc_count2.at (cgBase g)) 1).setLand g { s.land g with ueWords := tput (s.land g).ueWords w (s.orderOf slot) }
    let s := (s.bkFault p x pc slot 0x508 addr true).containedKill slot 0x508 .bole p addr (pc + x * 65536)
    if again then s.repeatUe p ⟨1, addr⟩ else s
  else
    let again := tget (s.bole p).ueWords w == some (s.orderOf slot)
    let s := (s.inc (F.spadEcc_count2.at (blBase p)) 1).setBole p { s.bole p with ueWords := tput (s.bole p).ueWords w (s.orderOf slot) }
    let s := s.failInstr p x pc slot (.contained 0x508 addr)
    if again then s.repeatUe p ⟨2, addr⟩ else s

/-- The command that owns the bank, or the quarter of it, in which an accumulator word lies (R123, R241). -/
def Bole.accOwner (b : Bole) (array w : Nat) : Option Nat :=
  ((b.bankEnts array (w / 1024)).find? fun e => e.2.shape != 6 || e.1 % 4 == w % 1024 / 32 / 16 * 2 + w % 32 / 16).map (·.2.slot)

/-- An accumulator word that could not be corrected and that its reader goes on with holds a free value. -/
def State.loseAcc (s : State) (p array w : Nat) : State :=
  let (d, s) := s.draw
  s.setBole p { s.bole p with acc := wput (s.bole p).acc (array * 2048 + w) (Config.freeWord d) }

/-- What a unit's own error does (R116, R122, R123, R191): none where the instruction goes on. -/
def State.unitErr (s : State) (p x pc slot : Nat) (mvp : Bool) : UnitErr → State × Bool
  | .none => (s, true)
  | .sramCorrected l a => (s.sramCorrected p (if l then 1 else 2) a, true)
  | .sramUncorrected l a => (s.sramUncorrected p x pc slot (if l then 1 else 2) a, false)
  | .accCorrected _ _ => ((s.inc (F.accEcc_count.at (blBase p)) 1).log 0x406 .bole p, true)
  | .accUncorrected a w =>
    let s := s.inc (F.accEcc_count2.at (blBase p)) 1
    match (s.bole p).accOwner a.val w.val with
    | some k =>
      if k = slot then (s.failInstr p x pc slot (.contained 0x407 (4 * (a.val * 2048 + w.val))), false)
      else (((s.containedKill k 0x407 .bole p (4 * (a.val * 2048 + w.val))).loseAcc p a.val w.val), true)
    | none => ((s.log 0x407 .bole p (4 * (a.val * 2048 + w.val))).loseAcc p a.val w.val, true)
  | .residue lane =>
    let b := s.bole p
    let last := if mvp then b.mvpLast else b.vuLast
    let s := if mvp then s.inc (F.mvpFail_count.at (blBase p)) 1 else s.inc (F.vuFail_count.at (blBase p)) 1
    let s := s.setBole p (if mvp then { b with mvpLast := some lane } else { b with vuLast := some lane })
    let s := s.failInstr p x pc slot (.contained (if mvp then 0x404 else 0x405) lane)
    (if last = some lane then s.failBole p else s, false)
  | .parity lane =>
    let b := s.bole p
    let s := (s.inc (F.vuFail_count2.at (blBase p)) 1).setBole p { b with vuLast := some lane }
    let s := s.failInstr p x pc slot (.contained 0x405 lane)
    (if b.vuLast = some lane then s.failBole p else s, false)

end Sys2Proof.Machine
end

