-- ==== Sys2Proof/Machine/Bucker.lean ====
section
/-! DEFINITION. The bucker: shares, issue, scalar instructions, tickets, division, windows and statistics slots (05, 06). -/

namespace Sys2Proof.Machine

/-! ### Issue -/

/-- Opcode of an instruction word (R209). -/
def opOf (w : Nat) : Nat := bits w 0 8

/-- The listed opcodes (table Opcodes). -/
def opcodes : List Nat := [0x00, 0x01, 0x02, 0x10, 0x18, 0x20, 0x30, 0x34, 0x38, 0x40, 0x48, 0x50, 0x58, 0x59, 0x60, 0x70, 0x78]

/-- Unit of an opcode (table Opcodes). -/
def unitOf (w : Nat) : ExUnit := match opOf w with
  | 0x10 => .arrays | 0x18 => .mvp | 0x20 => .vu | 0x30 => .dma | 0x34 => .dma | _ => .scalar

/-- A run of `n` ones from bit `lo`. -/
def ones (lo n : Nat) : Nat := (2 ^ n - 1) * 2 ^ lo

/-- The bits that the class tables name, beside the common word's (R209). -/
def classBits (w : Nat) : Nat := match opOf w with
  | 0x01 => ones 20 8 + ones 64 60 + (match bits w 20 3 with | 1 => ones 32 3 + ones 48 16 | 2 => ones 32 5 | _ => ones 32 32)
  | 0x10 => ones 20 104
  | 0x18 => ones 20 2 + ones 24 101
  | 0x20 => ones 20 106 - (if w.testBit 125 then ones 38 18 else 0)
  | 0x30 => ones 20 2 + ones 32 64 + (if w.testBit 20 then ones 96 25 else 0)
  | 0x34 => ones 20 8 + ones 32 69 - (if w.testBit 21 then ones 38 18 else 0)
  | 0x38 => if w.testBit 23 then ones 20 2 + ones 23 1 else ones 20 4 + ones 32 96
  | 0x40 => ones 20 12 + ones 40 16 + (match bits w 20 4 with
      | 1 => ones 37 3 + ones 56 16
      | 2 => ones 32 5
      | 4 => ones 72 56
      | _ => 0) - (match bits w 20 4 with | 1 => 0 | 2 => 0 | 3 => 0 | _ => ones 27 5)
  | 0x48 => ones 20 9 + ones 32 15 + ones 48 80
  | 0x50 => ones 20 7 + ones 32 24
  | 0x58 => ones 20 9 + ones 32 32
  | 0x59 => ones 20 28
  | 0x60 => ones 20 6 + ones 32 24 + ones 64 36
  | 0x78 => ones 20 8 + ones 32 3 + ones 48 31
  | _ => 0

/-- No reserved bit is 1 and the opcode is listed (R209). -/
def wordOk (w : Nat) : Bool := opcodes.contains (opOf w) && w &&& (ones 0 20 + classBits w) == w

/-- What an issue works with. -/
structure Iss where
  p : Nat
  x : Nat
  c : IssueCtx
  cmd : Cmd
  code : CutList
  w : Nat
  deriving DecidableEq, Repr

/-- Partition of the command. -/
def Iss.part (i : Iss) : Nat := i.cmd.desc.part

/-- Replaces a context of a bole. -/
def State.setCtx (s : State) (p x : Nat) (c : IssueCtx) : State := let b := s.bole p; s.setBole p { b with ctxs := tput b.ctxs x c }

/-- A command's contexts may issue an instruction: it runs and no data fault of it is held back, or a save waits for it to close its windows, in which time
it goes on but does not commit (R159, R180, R285). -/
def State.mayIssue (s : State) (slot : Nat) (c : Cmd) (w : Nat) : Bool :=
  c.fault.isNone && (c.phase == .running || (c.phase == .saving && s.windowOpen slot && opOf w != 0x70))

/-- The next instruction of a context, where the context runs and has fetched it (R203, R207). [DESIGN CHOICE, log entry 107; DEDUCED, log entry 116] -/
def State.nextInstr (s : State) (p x : Nat) : Option Iss :=
  match tget (s.bole p).ctxs x with
  | none => none
  | some c => match tget s.cmds c.slot with
    | none => none
    | some cmd => match tget s.lists cmd.desc.op with
      | none => none
      | some l =>
        let w := l.code.getD c.pc 0
        if s.mayIssue c.slot cmd w && !c.reported && c.pc < c.fetchedTo && c.pc < l.code.length then some ⟨p, x, c, cmd, l, w⟩ else none

/-- The wait tokens of an instruction are clear (R205). -/
def tokensClear (c : IssueCtx) (w : Nat) : Bool := (maskList 8 (bits w 8 8)).all fun t => !(c.flight.any fun f => f.tok == some t)

/-- The unit's queue has room (R204). -/
def unitRoom (c : IssueCtx) (w : Nat) : Bool := unitOf w == .scalar || (c.flight.filter fun f => f.unit == unitOf w).length < 8

/-- A context is ready (R203). -/
def State.readyCtx (s : State) (p x : Nat) : Bool := match s.nextInstr p x with
  | some i => tokensClear i.c i.w && unitRoom i.c i.w && !i.c.blocked
  | none => false

/-- No ready context comes before x in turn (R203). [DEDUCED, log entry 75] -/
def State.myTurn (s : State) (p x : Nat) : Bool :=
  let l := (s.bole p).lastCtx
  (List.range 4).all fun y => y == x || !decide ((y + 3 - l) % 4 < (x + 3 - l) % 4) || !s.readyCtx p y

/-- The issue that a row stands for, where it is the next one of context x and of the row's kind (R203); no bole issues while the module pauses (R512). -/
def State.issuable (s : State) (p x : Nat) (sel : Nat → Bool) : Option Iss :=
  match s.nextInstr p x with
  | some i => if sel i.w && tokensClear i.c i.w && unitRoom i.c i.w && s.myTurn p x && !s.pow.paused then some i else none
  | none => none

/-- An instruction has issued (R203, R234). -/
def State.issued (s : State) (p x : Nat) : State :=
  let b := s.bole p
  let s := s.setBole p { b with lastCtx := x }
  s.inc2 (F.bkIssuedLo_count.at (blBase p)) (F.bkIssuedHi_count.at (blBase p)) 1

/-- One issue (R203, R209): the encoding check, the instruction's effect, the count; an instruction that has to wait blocks its context. -/
def State.issue (s : State) (p x : Nat) (sel : Nat → Bool) (f : Iss → State → Except Bad State) : State :=
  match s.issuable p x sel with
  | none => s
  | some i =>
    if !wordOk i.w then s.failInstr p x i.c.pc i.c.slot (.data 0x601 0)
    else match f i s with
      | .ok s' => s'.issued p x
      | .error .wait => s.setCtx p x { i.c with blocked := true }
      | .error e => s.failInstr p x i.c.pc i.c.slot e

/-- A scalar instruction that only changes its context; the next instruction follows unless it says otherwise. -/
def State.scalar (s : State) (p x : Nat) (sel : Nat → Bool) (f : Iss → Except Bad IssueCtx) : State :=
  s.issue p x sel fun i s => match f i with
    | .ok c => .ok (s.setCtx p x { c with blocked := false })
    | .error e => .error e

/-- The context with its next instruction the one after this. -/
def IssueCtx.next (c : IssueCtx) : IssueCtx := { c with pc := c.pc + 1, blocked := false }

/-- Does the row of an opcode stand for this word? -/
def isOp (n : Nat) (w : Nat) : Bool := opOf w == n

/-! ### Prologues and division (R228) -/

/-- Compartment key of a controller number. -/
def ctlKey (k : Fin 21) : Nat := 64 + k.val

/-- How many levels below its command's compartment a controller lies, where it lies in it. -/
def ctlDepth (c : Cmd) (k : Nat) : Option Nat :=
  let t := compOf c.desc.target
  if (compBoles k).all (compBoles t).contains then some (compLevel t - compLevel k) else none

/-- Positions of the DIVs of a cut list. -/
def divsOf (l : CutList) : List Nat := (List.range l.code.length).filter fun n => opOf (l.code.getD n 0) == 0x78

/-- First instruction of a controller's prologue, or of the boles' part at depth = level. -/
def sectionStart (l : CutList) (depth : Nat) : Nat := if depth = 0 then 0 else (divsOf l).getD (depth - 1) 0 + 1

/-- The prologue instruction a controller executes next: command, cut list, word, its index (R228). -/
def State.ctlInstr (s : State) (slot k : Nat) : Option (Cmd × CutList × Nat × Nat) :=
  match tget s.cmds slot with
  | none => none
  | some c => match tget s.lists c.desc.op, ctlDepth c k with
    | some l, some d =>
      if c.phase == .running && c.desc.cls == 1 && l.level != 0 && !c.ready && !c.divided.contains k &&
          (d == 0 || (tget c.sets k).isSome) then
        let pc := tgetD c.ctlPc k (sectionStart l d)
        some (c, l, l.code.getD pc 0, pc)
      else none
    | _, _ => none

/-- A controller's instruction fails (R160). -/
def State.failCtl (s : State) (slot k pc code : Nat) : State :=
  s.dataFault slot code (if k < 80 then .quad else if k < 84 then .grove else .die) (if k < 80 then k - 64 else if k < 84 then k - 80 else 0) 0 pc

/-- Initialises a tally counter (R188, R226). -/
def State.tallyInit (s : State) (slot part w : Nat) : Except Bad State :=
  let g := bits w 45 2
  let n := bits w 32 13
  let a := g * 2 ^ 23 + 0x7F0000 + 8 * n
  if !s.tallyOk part g (n / 512) then .error (.data 0x506 a true)
  else if s.segGated g 15 then .error (.data 0x503 a true)
  else
    let l := s.land g
    .ok (s.setLand g { l with tally := tput l.tally n (bits w 64 32, some (part, s.orderOf slot)) })

/-- NOP (R209); as the row of an instruction without a class it is the illegal one. [DEDUCED, log entry 76] -/
def execNop (site : Site) (s : State) : Host.Outcome State Fault Refusal :=
  finish <| match site with
    | .bole p x => s.scalar p.val x.val (fun w => opOf w == 0 || !opcodes.contains (opOf w)) fun i => .ok i.c.next
    | .ctl slot k => match s.ctlInstr slot.val (ctlKey k) with
      | some (_, _, w, pc) =>
        if opOf w ≠ 0 then s
        else if !wordOk w then s.failCtl slot.val (ctlKey k) pc 0x601
        else s.modCmd slot.val fun c => { c with ctlPc := tput c.ctlPc (ctlKey k) (pc + 1) }
      | none => s

/-- TALLY init (R226). -/
def execTallyInit (site : Site) (s : State) : Host.Outcome State Fault Refusal :=
  finish <| match site with
    | .bole p x => s.issue p.val x.val (fun w => opOf w == 0x48 && bits w 20 2 == 0) fun i s =>
        (s.tallyInit i.c.slot i.part i.w).map fun s => s.setCtx p.val x.val i.c.next
    | .ctl slot k => match s.ctlInstr slot.val (ctlKey k) with
      | some (c, _, w, pc) =>
        if opOf w ≠ 0x48 then s
        else if !wordOk w then s.failCtl slot.val (ctlKey k) pc 0x601
        else match s.tallyInit slot.val c.desc.part w with
          | .ok s => s.modCmd slot.val fun c => { c with ctlPc := tput c.ctlPc (ctlKey k) (pc + 1) }
          | .error (.data code _ _) => s.failCtl slot.val (ctlKey k) pc code
          | .error _ => s
      | none => s

/-- Members of a controller that are online: boles, or groups with a bole online (R228). -/
def State.onlineMembers (s : State) (k : Nat) : List Nat := (compMembers k).filter fun m => (compBoles m).any s.boleOnline

/-- A member's share of a set (start, step, count) under a mode (R228). -/
def shareOf (mode r c : Nat) (set : Nat × Nat × Nat) : Nat × Nat × Nat :=
  let (a, st, n) := set
  match mode with
  | 1 => (a + st * r, st * c, (n + c - 1 - r) / c)
  | 2 => (a + st * (r * n / c), st, (r + 1) * n / c - r * n / c)
  | _ => set

/-- Members of a controller that hold shares of a command: those online at its dispatch (R15, R16, R18). -/
def Cmd.membersOf (c : Cmd) (k : Nat) : List Nat := (compMembers k).filter fun m => (compBoles m).any c.shares.contains

/-- DIV (R15, R16, R18, R228): the controller ranks the members that hold shares and hands each its own; after the last DIV the boles' shares may start. [DEDUCED, log entry 79] -/
def execDiv (slot : Fin 4096) (k : Fin 21) (s : State) : Host.Outcome State Fault Refusal :=
  finish <|
    let key := ctlKey k
    match s.ctlInstr slot.val key with
    | some (c, _, w, pc) =>
      let mode := bits w 20 2
      let div := bits w 48 16
      if opOf w ≠ 0x78 then s
      else if !wordOk w || mode = 3 || div = 0 then s.failCtl slot.val key pc 0x601
      else
        let t := cdiv (c.desc.shape (bits w 32 3)) div
        let set : Nat × Nat × Nat := match tget c.sets key with
          | some (a, st, n, _) => if mode = 0 then (0, 1, t) else (a, st, n)
          | none => (0, 1, t)
        let ms := c.membersOf key
        let n := ms.length
        let c' := (ms.zipIdx).foldl (fun (c : Cmd) (m, r) =>
          let (a, st, cnt) := shareOf mode r n set
          let boles := (compBoles m).filter c.shares.contains
          { c with
            sets := tput c.sets m (a, st, cnt, mode != 0)
            ranks := boles.foldl (fun t b => tput t b (tgetD t b [] ++ [(bits w 23 5, r)])) c.ranks
            divCtr := boles.foldl (fun q b => tput q b (bits w 77 2 * 8192 + bits w 64 13, t)) c.divCtr
            unstarted := if w.testBit 22 then c.unstarted ++ boles else c.unstarted }) c
        let s := s.setCmd slot.val { c' with divided := key :: c'.divided, ctlPc := tput c'.ctlPc key (pc + 1) }
        let b := s.compBase key
        (s.wr (F.divStat_mode.at b) mode).inc (F.divShares_count.at b) n
    | none => s

end Sys2Proof.Machine
end

