-- ==== Sys2Proof/Machine/Units.lean ====
section
/-! DEFINITION. How an instruction of a unit runs: its checks at issue, its place in the unit's queue, its work and its completion (06 R203 to R205, R232). -/

namespace Sys2Proof.Machine

/-- A unit instruction at work: where it runs, for which command, and the registers it issued with. -/
structure UnitOp where
  p : Nat
  x : Nat
  slot : Nat
  cmd : Cmd
  code : CutList
  r : Held
  deriving DecidableEq, Repr

/-- Its instruction word. -/
def UnitOp.w (u : UnitOp) : Nat := u.r.word
/-- Its partition. -/
def UnitOp.part (u : UnitOp) : Nat := u.cmd.desc.part

/-- What a kind of unit instruction does: the checks at issue and the work. [DEDUCED, log entry 77] -/
structure UnitSpec where
  check : UnitOp → State → Except Bad Unit
  run : UnitOp → State → Except Bad State

/-- The errors that can befall a unit (R116, R122, R123, R191): memory reads of all, accumulator reads of the VU and the DMA, arithmetic of the MVP and
the VU. -/
def ExUnit.err (u : ExUnit) (e : UnitErr) : UnitErr := match e, u with
  | .accCorrected _ _, .vu => e
  | .accUncorrected _ _, .vu => e
  | .accCorrected _ _, .dma => e
  | .accUncorrected _ _, .dma => e
  | .residue _, .mvp => e
  | .residue _, .vu => e
  | .parity _, .vu => e
  | .sramCorrected _ _, _ => e
  | .sramUncorrected _ _, _ => e
  | _, _ => .none

/-- The repeat flag of the MVP or the VU goes when an operation of it ends without an error (R116, R122). -/
def State.unitClean (s : State) (p : Nat) (u : ExUnit) : State := match u with
  | .mvp => s.setBole p { s.bole p with mvpLast := none }
  | .vu => s.setBole p { s.bole p with vuLast := none }
  | _ => s

/-- The work of a unit with what befalls it on the way: a contained fault comes before a data fault (R159). -/
def State.unitWork (s : State) (u : UnitOp) (un : ExUnit) (e : UnitErr) (f : UnitOp → State → Except Bad State) : Except Bad State :=
  let e := un.err e
  let (s', on) := s.unitErr u.p u.x u.r.pc u.slot (un == .mvp) e
  if on then (f u s').map fun s => s.unitClean u.p un else .ok s'

/-- An earlier instruction of the context waits in this unit's queue (R204: those of one context on one unit complete in issue order). -/
def IssueCtx.unitHeld (c : IssueCtx) (u : ExUnit) : Bool := c.flight.any fun f => f.unit == u && f.held.isSome

/-- The fields of an MV (table MV). -/
structure Mv where
  axpy : Bool
  acc : Bool
  fs : Nat
  fv : Nat
  rows : Nat
  kb : Nat
  deriving DecidableEq, Repr

/-- The fields of an MV word. [DEDUCED, log entry 83] -/
def Mv.of (w : Nat) : Mv := ⟨w.testBit 20, w.testBit 21, bits w 24 4, bits w 28 4, bits w 80 12, bits w 92 9⟩

/-- Bytes between streamed rows (R213). -/
def Mv.pitch (m : Mv) : Nat := cdiv (elemBytes m.fs (m.kb * 32)) 64 * 64

/-- Elements of the vector. -/
def Mv.vecLen (m : Mv) : Nat := if m.axpy then m.rows else m.kb * 32

/-- Elements of the output. -/
def Mv.outLen (m : Mv) : Nat := if m.axpy then m.kb * 32 else m.rows

/-- Bytes of the stream. -/
def Mv.streamBytes (m : Mv) : Nat := (m.rows - 1) * m.pitch + elemBytes m.fs (m.kb * 32)

/-- The fields of a FETCH (table FETCH). -/
structure Fetch where
  boom : Bool
  zc : Bool
  lines : Nat
  bmask : Nat
  bq : Nat
  bg : Nat
  grove : Bool
  win : Nat
  deriving DecidableEq, Repr

/-- The fields of a FETCH word. -/
def Fetch.of (w : Nat) : Fetch := ⟨w.testBit 20, w.testBit 21, bits w 80 16, bits w 96 16, bits w 112 2, bits w 114 2, w.testBit 116, bits w 117 4⟩

/-- Landing segments of a location's range. -/
def Loc.segs (l : Loc) (n : Nat) : List (Nat × Nat) := if l.space = 1 then segsOf l.addr n else []

/-- Landing segments that an instruction reads or writes by its own operands (R181): a stream of MV, source and destination of FETCH. -/
def Held.segs (r : Held) : List (Nat × Nat) := match opOf r.word with
  | 0x18 => (r.aop 32).segs (Mv.of r.word).streamBytes
  | 0x30 =>
    let f := Fetch.of r.word
    (r.aop 32).segs (if f.zc then 1216 * cdiv f.lines 16 else 64 * f.lines) ++ if f.boom then [] else (r.aop 56).segs (64 * f.lines)
  | _ => []

/-- The entry of an instruction in its unit's queue, with the registers it issued with; `waits` where it has not acted yet. -/
def inFlight (r : Held) (waits : Bool) : InFlight :=
  let w := r.word
  { unit := unitOf w, tok := if w.testBit 19 then some (bits w 16 3) else none
    dmaMove := unitOf w == .dma && !(opOf w == 0x34 && bits w 22 2 != 0), held := if waits then some r else none, segs := r.segs }

/-- The context has issued a unit instruction; a context that the instruction's end took away stays away. -/
def State.pushFlight (s : State) (p x slot : Nat) (f : InFlight) : State := match tget (s.bole p).ctxs x with
  | some c => if c.slot == slot then s.setCtx p x { c.next with flight := c.flight ++ [f] } else s
  | none => s

/-- Issue of a unit instruction (R203, R204, R232): its checks, then its work, unless it has to wait in its queue. [DEDUCED, log entry 77] -/
def State.unitIssue (s : State) (p x : Nat) (sel : Nat → Bool) (e : UnitErr) (f : UnitSpec) : State :=
  s.issue p x sel fun i s =>
    let u : UnitOp := ⟨p, x, i.c.slot, i.cmd, i.code, i.c.regs i.w⟩
    match f.check u s with
    | .error b => .error b
    | .ok () =>
      if i.c.unitHeld (unitOf i.w) then .ok (s.pushFlight p x i.c.slot (inFlight u.r true))
      else match s.unitWork u (unitOf i.w) e f.run with
        | .ok s => .ok (s.pushFlight p x i.c.slot (inFlight u.r false))
        | .error .wait => .ok (s.pushFlight p x i.c.slot (inFlight u.r true))
        | .error b => .error b

end Sys2Proof.Machine
end

