-- ==== Sys2Proof/Machine/Arrays.lean ====
section
/-! DEFINITION. Matrix arrays: tiles of every shape, their checks, the T5 combiner, diagnosis, spare rows, and scrubs of boles (03, 04, 07). -/

namespace Sys2Proof.Machine

/-! ### Shapes (R212, R236 to R241, R260) -/

/-- M, N and K of a shape, and the columns of its array grid; a diagonal tile's are those of one block. -/
def tileGeom (shape bw : Nat) : Nat × Nat × Nat × Nat := match shape with
  | 0 => (128, 128, 32, 4)
  | 1 => (256, 64, 32, 2)
  | 2 => (64, 256, 32, 8)
  | 3 => (512, 32, 32, 1)
  | 4 => (32, 512, 32, 16)
  | 5 => (64, 64, 128, 2)
  | 6 => (64, 64, 32, 4)
  | _ => (32, 8 * 2 ^ bw, 1, 1)

/-- The fields of a TILE. -/
structure Tile where
  shape : Nat
  acc : Bool
  bank : Nat
  bw : Nat
  fa : Nat
  fb : Nat
  kblk : Nat
  deriving DecidableEq, Repr

/-- The fields of a TILE word (table TILE). -/
def Tile.of (w : Nat) : Tile := ⟨bits w 20 4, w.testBit 24, bits w 25 1, bits w 26 2, bits w 28 4, bits w 32 4, bits w 84 16⟩

/-- A tile the bucker accepts (R79, R108, R126, R212, R237). -/
def Tile.legal (t : Tile) : Bool :=
  t.shape < 8 && (arrayPair t.fa t.fb).isSome && (if t.shape = 7 then t.bw != 3 && t.fb != 2 else t.bw == 0) && t.kblk != 0 &&
    !(t.shape == 3 && t.fb == 2)

/-- Does the tile accumulate in FP32? -/
def Tile.flt (t : Tile) : Bool := (arrayPair t.fa t.fb).getD false

/-- Valid extent of a dimension: not masked where its I field is 0 (R212). -/
def validExt (r : Held) (s i e : Nat) : Nat := if i = 0 then e else min (r.sr s - r.ir i * e) e

/-- Panel pitch in bytes (R238). -/
def Tile.pitch (t : Tile) (f : Nat) : Nat := elemBytes f (t.kblk * (tileGeom t.shape t.bw).2.2.1)

/-- Blocks of a diagonal tile over the 16 arrays, and their width. -/
def Tile.blocks (t : Tile) : Nat × Nat := (16 * (32 / (8 * 2 ^ t.bw)), 8 * 2 ^ t.bw)

/-- A operand of block d of a diagonal tile for row y at feed step n (R110, R260): its element in the A panel. Depth-wise, the K stream runs over the taps'
rows and the columns that the block's outputs need; grouped, over the taps and the block's input channels. [DESIGN CHOICE, log entry 92] -/
def Tile.diagA (t : Tile) (d y n : Nat) : Nat :=
  let (k, st, g) := Config.diagConv t.bw t.kblk
  let s := t.blocks.2
  let w := st * (s - 1) + k
  if g = 0 then Config.diagChan t.bw t.kblk d + (st * y + n / w) * w + n % w else Config.diagGroup t.bw t.kblk (s * d + n % s) y (n / s)

/-- B operand of column x of block d at feed step n (R110, R260): its element in the B panel, or none where it is invalid. [DESIGN CHOICE, log entry 92] -/
def Tile.diagB (t : Tile) (d x n : Nat) : Option Nat :=
  let (k, st, g) := Config.diagConv t.bw t.kblk
  let s := t.blocks.2
  let w := st * (s - 1) + k
  if g = 0 then
    (if st * x ≤ n % w && n % w < st * x + k then some (Config.diagTap t.bw t.kblk d (n / w * k + (n % w - st * x)) 0) else none)
  else if (s * d + n % s) / g = (s * d + x) / g then some (Config.diagTap t.bw t.kblk (s * d + x) (n / s) ((s * d + n % s) % g)) else none

/-- Elements of the A and B panels of a diagonal tile up to the last that a feed step reads. -/
def Tile.diagExtent (t : Tile) : Nat × Nat :=
  let (d, s) := t.blocks
  let most (l : List Nat) : Nat := l.foldl (fun m a => max m (a + 1)) 0
  (most ((List.range d).flatMap fun i => (List.range 32).flatMap fun y => (List.range t.kblk).map fun n => t.diagA i y n),
   most ((List.range d).flatMap fun i => (List.range s).flatMap fun x => (List.range t.kblk).filterMap fun n => t.diagB i x n))

/-- Bytes of the panels that the checks at issue cover (R238, R260). -/
def Tile.panels (t : Tile) : Nat × Nat :=
  let (m, n, _, _) := tileGeom t.shape t.bw
  if t.shape = 7 then (elemBytes t.fa t.diagExtent.1, elemBytes t.fb t.diagExtent.2) else (m * t.pitch t.fa, n * t.pitch t.fb)

/-- The checks at issue of a TILE (R79, R126, R147, R202, R212, R232, R237). [DEDUCED, log entry 91] -/
def tileCheck (u : UnitOp) (s : State) : Except Bad Unit := do
  let t := Tile.of u.w
  need t.legal 0x601
  let bound (slot f : Nat) : Bool := ((u.r.scales.getD slot none).isNone) || !fmtInt f
  need (bound 0 t.fa && bound 1 t.fb) 0x601
  s.need u.part u.p [2] (u.r.aop 36) t.panels.1
  s.need u.part u.p [2] (u.r.aop 60) t.panels.2

/-! ### Scales of an operand (R149 to R153, R216) -/

/-- A scale entry read for block `b` of an operand. -/
structure ScaleRead where
  /-- Place in issue order: K block, operand, row. -/
  j : Nat
  opnd : Nat
  row : Nat
  b : Nat
  fp16 : Bool
  word : Nat
  deriving DecidableEq, Repr

/-- The entry's fault (R151, R152), or 0. -/
def ScaleRead.code (e : ScaleRead) : Nat :=
  if scaleTag e.fp16 e.word ≠ e.b % 64 || scaleRes e.fp16 e.word ≠ 0 then 0x701
  else match scaleVal e.fp16 e.word with
    | .fin .. => 0
    | _ => 0x702

/-- Reads the entries of `nblk` blocks of each of some rows under a binding. [DEDUCED, log entry 91] -/
def State.readScales (s : State) (part p opnd : Nat) (sb : ScaleBind) (rows : List Nat) (nblk : Nat) : Except Bad (List ScaleRead) :=
  let sz := scaleSize sb.fp16
  rows.foldlM (fun (acc : List ScaleRead) r => do
    let b0 := sb.blk + r * sb.kb
    let l : Loc := ⟨sb.space, sb.base + sz * b0⟩
    if nblk = 0 then pure acc else
    s.need part p [0, 1, 2] l (sz * nblk) 1
    let d ← s.locRead part p l (sz * nblk)
    pure (acc ++ (List.range nblk).map fun j => ⟨j, opnd, r, b0 + j, sb.fp16, field d (sz * j) sz⟩)) []

/-- Entries in issue order. -/
def scaleBefore (a b : ScaleRead) : Bool :=
  if a.j ≠ b.j then decide (a.j < b.j) else if a.opnd ≠ b.opnd then decide (a.opnd < b.opnd) else decide (a.row ≤ b.row)

/-- The faults among entries read (R151, R152, R159, R161): every one is counted, the earliest is reported, and BL_SCALE_LAST and BL_SCALE_BLK hold the
last desynchronisation; none when all are good. [DESIGN CHOICE, log entry 93] -/
def State.scaleFaults (s : State) (p : Nat) (es : List ScaleRead) : Option (State × Nat × Nat) :=
  let bad := (es.filter fun e => e.code ≠ 0).mergeSort scaleBefore
  match bad with
  | [] => none
  | e :: _ =>
    let b := blBase p
    some (bad.foldl (fun (s : State) x =>
      if x.code = 0x701 then
        let s := (((s.inc (F.qntStat_desync.at b) 1).wr (F.scaleLast_expected.at b) (x.b % 64)).wr (F.scaleLast_found.at b) (scaleTag x.fp16 x.word)).wr (F.scaleLast_operand.at b) x.opnd
        (s.wr (F.scaleLast_valid.at b) 1).wr2 (F.scaleBlkLo_block.at b) (F.scaleBlkHi_block.at b) (x.b % 2 ^ 48)
      else s.inc (F.qntStat_invalid.at b) 1) s, e.code, e.b)

/-! ### The products of a tile -/

/-- A panel row's element codes up to the valid K extent. -/
def panelRow (b : Bole) (a pitch f kv r : Nat) : List Nat :=
  let d := b.bytes (a + r * pitch) pitch
  (List.range kv).map (elemAt f d)

/-- An integer element. -/
def elemInt (f c : Nat) : Int := if f = 1 then (c % 256 : Nat) else sgn (fmtBits f) c

/-- Integer sum of products, modulo 2^32 (R80, R81). -/
def dotInt (l : List (Int × Int)) : Word := BitVec.ofInt 32 (l.foldl (fun n e => n + e.1 * e.2) 0)

/-- Float sum of products from zero in increasing k, rounded at each addition (R80, R131, R132). -/
def dotFlt (l : List (FV × FV)) : Word := l.foldl (fun (acc : Word) e => ((FV.dec 7 acc.toNat).add (e.1.mul e.2)).to32) 0

/-- Elements of a row that slice p of T5 takes (R240). -/
def kSlice {α : Type} (p : Nat) (l : List α) : List α := (l.zipIdx.filter fun e => e.2 / 32 % 4 == p).map (·.1)

/-- The part of a row that an array takes: a slice of T5, or all of it. -/
def kPart {α : Type} (slice : Option Nat) (l : List α) : List α := match slice with
  | some p => kSlice p l
  | none => l

/-- Sum of two accumulator words. -/
def accAdd (flt : Bool) (a b : Word) : Word := if flt then fadd a b else a + b

/-- An element's value as the array multiplies it: scaled by the exponent of its block (R80, R148). -/
def scaledElem (f : Nat) (es : List ScaleRead) (r k c : Nat) : FV :=
  match es.find? fun e => e.row == r && e.j == k / 32 with
  | some e => (FV.dec f c).scale2 ((bits e.word 0 8 : Nat) - 127)
  | none => FV.dec f c

/-- The operands that enter with the feed steps: rows of A and columns of B, `none` for an operand that is invalid (R85). -/
inductive Operands where
  | int (a b : List (List (Option Int)))
  | flt (a b : List (List (Option FV)))
  deriving DecidableEq, Repr

/-- The products of a row and a column of which both operands are valid, in increasing k (R80, R85). -/
def products {α : Type} (a b : List (Option α)) : List (α × α) := (a.zip b).filterMap fun e => match e with
  | (some x, some y) => some (x, y)
  | _ => none

/-- Sum that the PE forms which row i and column j meet in, over the K elements of its slice (R80, R240). -/
def Operands.sum (o : Operands) (slice : Option Nat) (i j : Nat) : Word := match o with
  | .int a b => dotInt (kPart slice (products (a.getD i []) (b.getD j [])))
  | .flt a b => dotFlt (kPart slice (products (a.getD i []) (b.getD j [])))

/-- Row of A and column of B that meet in PE w of array n (R239 to R241, R260); none outside a T6 tile's own quarter `q`. -/
def tileElem (shape bw q n w : Nat) : Option (Nat × Nat) := match shape with
  | 5 => some (32 * (n % 4 / 2) + w / 32, 32 * (n % 4 % 2) + w % 32)
  | 6 => if w / 32 / 16 = q / 2 && w % 32 / 16 = q % 2 then some (16 * (n / 4) + w / 32 % 16, 16 * (n % 4) + w % 32 % 16) else none
  | 7 => let s := 8 * 2 ^ bw; let d := 32 / s * n + w % 32 / s; some (32 * d + w / 32, s * d + w % s)
  | s => let g := (tileGeom s 0).2.2.2; some (32 * (n / g) + w / 32, 32 * (n % g) + w % 32)

/-- Element (i, j) lies in the tile's valid extents (R212); a diagonal tile's are those of each block. -/
def tileValid (shape bw mv nv : Nat) (e : Nat × Nat) : Bool :=
  if shape = 7 then e.1 % 32 < mv && e.2 % (8 * 2 ^ bw) < nv else e.1 < mv && e.2 < nv

/-- The slice of K that array n of a tile takes. -/
def tileSlice (shape n : Nat) : Option Nat := if shape = 5 then some (n / 4) else none

/-- A value that is not finite. -/
def FV.nonfinite : FV → Bool
  | .fin .. => false
  | _ => true

/-! ### Checks (R91, R92, R101) -/

/-- Row sums of the checksum feeder, k by k, exact for integers (R91). -/
def rowSumsInt (rows : List (List (Option Int))) (k : Nat) : List Int :=
  rows.foldl (fun acc r => (acc.zip r).map fun e => e.1 + e.2.getD 0) (List.replicate k 0)

/-- Row sums of the checksum feeder in FP32 in increasing row: s_k, or m_k over magnitudes (R91). -/
def rowSumsFlt (mag : Bool) (rows : List (List (Option FV))) (k : Nat) : List Word :=
  rows.foldl (fun acc r => (acc.zip r).map fun e => match e.2 with
    | some v => ((FV.dec 7 e.1.toNat).add (if mag then v.abs else v)).to32
    | none => e.1) (List.replicate k 0)

/-- c_j and g_j of a column over the rows whose operands its array part receives (R91, R92, R109). -/
def Operands.column (o : Operands) (slice : Option Nat) (rows : List Nat) (j : Nat) : Word × Word := match o with
  | .int a b =>
    let y := b.getD j []
    (dotInt (kPart slice (products ((rowSumsInt (rows.map fun i => a.getD i []) y.length).map some) y)), 0)
  | .flt a b =>
    let y := b.getD j []
    let r := rows.map fun i => a.getD i []
    let sum (mag : Bool) (y : List (Option FV)) : Word :=
      dotFlt (kPart slice (products ((rowSumsFlt mag r y.length).map fun w => some (FV.dec 7 w.toNat)) y))
    (sum false y, sum true (y.map fun e => e.map FV.abs))

/-- One product enters a PE's residue and wrap count beside its accumulator (R101). -/
def residueStep (st : Int × Nat × Nat) (e : Int × Int) : Int × Nat × Nat :=
  let (acc, r, w) := st
  let v := acc + e.1 * e.2
  let r := (r + (e.1 % 3).toNat * (e.2 % 3).toNat) % 3
  if 2147483647 < v then (v - 2 ^ 32, r, (w + 1) % 3) else if v < -2147483648 then (v + 2 ^ 32, r, (w + 2) % 3) else (v, r, w)

/-- Residue and wrap count of a PE (R101); for float formats the residue covers each significand product by itself and leaves nothing here. -/
def Operands.residue (o : Operands) (slice : Option Nat) (i j : Nat) : Nat × Nat := match o with
  | .int a b => ((kPart slice (products (a.getD i []) (b.getD j []))).foldl residueStep (0, 0, 0)).2
  | .flt _ _ => (0, 0)

/-! ### Banks (R86, R241) -/

/-- Key of a bank of an array, or of a quarter of it. -/
def bankKey (array bank quarter : Nat) : Nat := array * 8 + bank * 4 + quarter

/-- The banks a tile drains into are free for it (R82, R86, R241). -/
def Bole.bankFree (b : Bole) (t : Tile) (slot x : Nat) : Bool := (List.range 16).all fun n =>
  (b.bankEnts n t.bank).all fun e =>
    let mine := e.2.slot == slot && e.2.ctx == x
    if t.shape = 6 then e.2.shape == 6 && (!(e.1 % 4 == x) || e.2.invalid || (mine && t.acc)) else mine && t.acc && e.2.shape != 6

/-- Writes the words of a bank of some arrays. -/
def Bole.setBank (b : Bole) (bank : Nat) (arrays : List Nat) (f : Nat → Nat → Word) : Bole :=
  let new := arrays.flatMap fun n => (List.range 1024).filterMap fun w =>
    let v := f n w; if v = 0 then none else some (n * 2048 + bank * 1024 + w, v)
  let old := b.acc.filter fun e => !(arrays.contains (e.1 / 2048) && e.1 / 1024 % 2 == bank)
  { b with acc := tmerge (new.length + old.length) new old }

/-- A word of a bank. -/
def Bole.word (b : Bole) (bank n w : Nat) : Word := tgetD b.acc (n * 2048 + bank * 1024 + w) 0

/-- Reserves the banks of a tile (R86) and marks them live (R284). -/
def Bole.reserve (b : Bole) (t : Tile) (slot x : Nat) : Bole :=
  let q := if t.shape = 6 then x else 0
  { b with
    accBanks := (List.range 16).foldl (fun m n => tput m (bankKey n t.bank q) ⟨slot, x, t.shape + t.bw, false, false⟩) b.accBanks
    accLive := b.accLive ++ ((List.range 16).map fun n => n * 2 + t.bank).filter fun k => !b.accLive.contains k }

/-! ### TILE -/

/-- The operands of a tile with its valid extents (R85, R212, R238, R260): what lies beyond them enters as invalid. -/
def State.tileOperands (s : State) (u : UnitOp) (t : Tile) (mv nv kv : Nat) (ea eb : List ScaleRead) : Operands :=
  let b := s.bole u.p
  let a := (u.r.aop 36).addr
  let c := (u.r.aop 60).addr
  if t.shape = 7 then
    let (d, w) := t.blocks
    let da := b.bytes a t.panels.1
    let db := b.bytes c t.panels.2
    let row (i : Nat) : List (Option Nat) := (List.range t.kblk).map fun n => if i % 32 < mv && n < kv then some (elemAt t.fa da (t.diagA (i / 32) (i % 32) n)) else none
    let col (j : Nat) : List (Option Nat) := (List.range t.kblk).map fun n => if j % w < nv && n < kv then (t.diagB (j / w) (j % w) n).map (elemAt t.fb db) else none
    let ra := (List.range (32 * d)).map row
    let rb := (List.range (w * d)).map col
    if t.flt then .flt (ra.zipIdx.map fun (l, i) => l.zipIdx.map fun (e, k) => e.map (scaledElem t.fa ea i k))
        (rb.zipIdx.map fun (l, i) => l.zipIdx.map fun (e, k) => e.map (scaledElem t.fb eb i k))
    else .int (ra.map fun l => l.map fun e => e.map (elemInt t.fa)) (rb.map fun l => l.map fun e => e.map (elemInt t.fb))
  else
    let ra := (List.range mv).map (panelRow b a (t.pitch t.fa) t.fa kv)
    let rb := (List.range nv).map (panelRow b c (t.pitch t.fb) t.fb kv)
    if t.flt then .flt (ra.zipIdx.map fun (l, i) => l.zipIdx.map fun (e, k) => some (scaledElem t.fa ea i k e))
        (rb.zipIdx.map fun (l, i) => l.zipIdx.map fun (e, k) => some (scaledElem t.fb eb i k e))
    else .int (ra.map fun l => l.map fun e => some (elemInt t.fa e)) (rb.map fun l => l.map fun e => some (elemInt t.fb e))

/-- The rows of the scale tensors of a tile that hold a valid element (R149, R153, R216): of T7 those of every block, 32 rows of A and `s` columns of B
each. -/
def Tile.scaleRows (t : Tile) (mv nv : Nat) : List Nat × List Nat :=
  if t.shape = 7 then
    let (d, w) := t.blocks
    ((List.range (32 * d)).filter fun i => i % 32 < mv, (List.range (w * d)).filter fun j => j % w < nv)
  else (List.range mv, List.range nv)

/-- Multiply-accumulates of a tile: the products of which both operands are valid. -/
def Tile.macs (t : Tile) (mv nv kv : Nat) : Nat :=
  if t.shape = 7 then
    let (d, w) := t.blocks
    (List.range (w * d)).foldl (fun c j => if j % w < nv then c + mv * ((List.range (min kv t.kblk)).filter fun n => (t.diagB (j / w) (j % w) n).isSome).length else c) 0
  else mv * nv * kv

/-- What array n of a tile forms beside its sums (R91, R92, R101, R106, R109): in quartered mode, or where its understory row is no checksum row, the
residues of its PEs, else the pairs of its columns. -/
def Tile.checks (t : Tile) (o : Operands) (residue : Bool) (q mv nv n : Nat) : ArrCheck :=
  let elem (w : Nat) : Nat × Nat := (tileElem t.shape t.bw q n w).getD (0, 0)
  if residue || t.shape = 6 then
    .residues ((List.range 1024).map fun w => match tileElem t.shape t.bw q n w with
      | some e => if tileValid t.shape t.bw mv nv e then o.residue (tileSlice t.shape n) e.1 e.2 else (0, 0)
      | none => (0, 0))
  else .sums ((List.range 32).map fun j =>
    let rows := ((List.range 32).map fun r => (elem (32 * r + j)).1).filter fun i => if t.shape = 7 then i % 32 < mv else i < mv
    o.column (tileSlice t.shape n) rows (elem j).2)

/-- The work of a TILE (R78 to R82, R85 to R92, R101, R103, R106, R108 to R110, R147 to R153, R212, R236 to R241, R260): it waits for its banks and for an
array that diagnosis has fenced; what its arrays form is drained and checked after it. -/
def tileRun (u : UnitOp) (s : State) : Except Bad State := do
  let t := Tile.of u.w
  let b := s.bole u.p
  let (m, n, k, _) := tileGeom t.shape t.bw
  if !b.bankFree t u.slot u.x || b.arrays.any (fun e => e.2.fenced) then .error .wait
  let mv := validExt u.r (bits u.w 100 3) (bits u.w 103 5) m
  let nv := validExt u.r (bits u.w 108 3) (bits u.w 111 5) n
  let kv := validExt u.r (bits u.w 116 3) (bits u.w 119 5) (t.kblk * k)
  let get (slot f : Nat) (rows : List Nat) : Except Bad (List ScaleRead) := match u.r.scales.getD slot none with
    | some sb => if !(f == 3 || f == 4) then .ok [] else s.readScales u.part u.p slot sb rows (cdiv kv 32)
    | none => .ok []
  let ea ← get 0 t.fa (t.scaleRows mv nv).1
  let eb ← get 1 t.fb (t.scaleRows mv nv).2
  match s.scaleFaults u.p (ea ++ eb) with
  | some (s', code, blk) => .ok (s'.failInstr u.p u.x u.r.pc u.slot (.data code blk))
  | none =>
    let o := s.tileOperands u t mv nv kv ea eb
    let job : TileJob :=
      { slot := u.slot, ctx := u.x, bank := t.bank, shape := t.shape, bw := t.bw, acc := t.acc, mv := mv, nv := nv, k := t.kblk * k, flt := t.flt
        sums := (List.range 16).map fun n => (List.range 1024).map fun w => match tileElem t.shape t.bw u.x n w with
          | some e => if tileValid t.shape t.bw mv nv e then o.sum (tileSlice t.shape n) e.1 e.2 else 0
          | none => 0
        checks := (List.range 16).map fun n => t.checks o (s.arrayResidue u.p n) u.x mv nv n }
    let b' := b.reserve t u.slot u.x
    .ok ((s.setBole u.p { b' with tiles := b'.tiles ++ [job] }).act u.slot (64 + 16 * t.fa + t.fb) (t.macs mv nv kv))

/-- What a TILE does. -/
def tileSpec : UnitSpec := ⟨tileCheck, tileRun⟩

/-- TILE (R212). -/
def execTile (p : Fin 68) (x : Fin 4) (e : UnitErr) (s : State) : Host.Outcome State Fault Refusal :=
  finish (s.unitIssue p.val x.val (isOp 0x10) e tileSpec)

/-! ### Checks -/

/-- What the drain brings for word w of array n. -/
def TileJob.drained (t : TileJob) (ups : List Upset) (n w : Nat) : Word :=
  (ups.findSome? fun u => match u with
    | .drained a x v => if a.val = n && x.val = w then some v else none
    | _ => none).getD ((t.sums.getD n []).getD w 0)

/-- c_j, g_j and t_j of a column of array n (R92). -/
def TileJob.column (t : TileJob) (ups : List Upset) (n j : Nat) : Word × Word × Word :=
  let c := match t.checks.getD n (.sums []) with
    | .sums l => l.getD j (0, 0)
    | .residues _ => (0, 0)
  let c := (ups.findSome? fun u => match u with
    | .checksum a x v g => if a.val = n && x.val = j then some (v, g) else none
    | _ => none).getD c
  (c.1, c.2, (List.range 32).foldl (fun (acc : Word) i => accAdd t.flt acc (t.drained ups n (32 * i + j))) 0)

/-- The check of a float column is skipped (R93): an output, c_j or g_j is NaN or infinite. -/
def TileJob.skips (t : TileJob) (ups : List Upset) (n j : Nat) : Bool :=
  let (c, g, _) := t.column ups n j
  t.flt && ((FV.dec 7 c.toNat).nonfinite || (FV.dec 7 g.toNat).nonfinite ||
    (List.range 32).any fun i => (FV.dec 7 (t.drained ups n (32 * i + j)).toNat).nonfinite)

/-- The band of R92 that |c_j − t_j| may fill. [DESIGN CHOICE, log entry 93] -/
def checkBand (g : Word) (k slack : Nat) : FV :=
  ((FV.dec 7 g.toNat).mul (.fin false (k + 64) ((slack : Int) - 23))).add (.fin false (k + 64) (-126))

/-- A column of array n passes its check (R92), which is exact for integers. -/
def TileJob.columnOk (t : TileJob) (ups : List Upset) (slack n j : Nat) : Bool :=
  let (c, g, tj) := t.column ups n j
  if t.flt then t.skips ups n j || !((checkBand g t.k slack).lt ((FV.dec 7 c.toNat).add (FV.dec 7 tj.toNat).neg).abs) else c == tj

/-- A PE of array n passes its residue check (R101). -/
def TileJob.peOk (t : TileJob) (ups : List Upset) (n w : Nat) : Bool :=
  if t.flt then !(ups.any fun u => match u with | .significand a x => a.val == n && x.val == w | _ => false)
  else
    let rw := match t.checks.getD n (.sums []) with
      | .residues l => l.getD w (0, 0)
      | .sums _ => (0, 0)
    let rw := (ups.findSome? fun u => match u with
      | .residue a x r c => if a.val = n && x.val = w then some (r.val, c.val) else none
      | _ => none).getD rw
    (((t.drained ups n w).toInt % 3).toNat + rw.2) % 3 == rw.1

/-- Array n of a tile is checked by residue. -/
def TileJob.byResidue (t : TileJob) (n : Nat) : Bool := match t.checks.getD n (.sums []) with
  | .residues _ => true
  | .sums _ => false

/-- A fault in what the quarters of array n share (R107). -/
def TileJob.sharedFault (t : TileJob) (ups : List Upset) (n : Nat) : Bool :=
  t.shape = 6 && ups.any fun u => match u with | .shared a => a.val == n | _ => false

/-- Array n passes every check of the tile; a T6 tile's are those of its own quarter. -/
def TileJob.arrayOk (t : TileJob) (ups : List Upset) (slack n : Nat) : Bool :=
  !t.sharedFault ups n &&
    (if t.byResidue n then (List.range 1024).all fun w => (tileElem t.shape t.bw t.ctx n w).isNone || t.peOk ups n w
    else (List.range 32).all fun j => t.columnOk ups slack n j)

/-- Columns of a tile whose check is skipped (R93). -/
def TileJob.skipped (t : TileJob) (ups : List Upset) : Nat :=
  (List.range 16).foldl (fun c n => if t.byResidue n then c else c + ((List.range 32).filter fun j => t.skips ups n j).length) 0

/-- What element w of array n brings to its bank: T5's combiner adds the slices in order (R240). -/
def TileJob.result (t : TileJob) (ups : List Upset) (n w : Nat) : Word :=
  if t.shape = 5 then
    accAdd t.flt (accAdd t.flt (accAdd t.flt (t.drained ups n w) (t.drained ups (4 + n) w)) (t.drained ups (8 + n) w)) (t.drained ups (12 + n) w)
  else t.drained ups n w

/-- A tile drains into its bank (R82, R86, R87, R105, R212, R240, R242): the value of the bank is the first operand where it accumulates; words outside its
valid extents are 0 or stay; those outside a T6 tile's own quarter stay. T5's combiner fills the banks of arrays 0 to 3 and releases those of 4 to 15. -/
def Bole.drain (b : Bole) (t : TileJob) (ups : List Upset) : Bole :=
  let word (n w : Nat) : Word :=
    let old := b.word t.bank n w
    match tileElem t.shape t.bw t.ctx n w with
    | none => old
    | some e =>
      if tileValid t.shape t.bw t.mv t.nv e then (if t.acc then accAdd t.flt old (t.result ups n w) else t.result ups n w)
      else if t.acc then old else 0
  let c := b.setBank t.bank (List.range (if t.shape = 5 then 4 else 16)) word
  if t.shape = 5 then
    { c with accBanks := c.accBanks.filter fun e => !(e.1 / 4 % 2 == t.bank && 4 ≤ e.1 / 8)
             accLive := c.accLive.filter fun k => !(k % 2 == t.bank && 4 ≤ k / 2) }
  else c

/-- A tile's banks become readable where no other tile of its context is on its way into them (R88, R105). -/
def Bole.makeReadable (b : Bole) (t : TileJob) (rest : List TileJob) : Bole :=
  { b with accBanks := b.accBanks.map fun e => (e.1,
      if e.2.slot == t.slot && e.2.ctx == t.ctx && e.1 / 4 % 2 == t.bank &&
        !(rest.any fun r => r.slot == t.slot && r.ctx == t.ctx && r.bank == t.bank) then { e.2 with readable := true } else e.2) }

/-- The region of a quarter that failed in array n is marked invalid (R107): what it holds is free. [DEDUCED, log entry 116] -/
def State.markInvalid (s : State) (p n : Nat) (t : TileJob) : State :=
  let d := s.fresh
  let s := { s with fresh := d + 1024 }
  let b := s.bole p
  let word (m w : Nat) : Word := if (tileElem 6 0 t.ctx m w).isSome then Config.freeWord (d + w) else b.word t.bank m w
  s.setBole p { b.setBank t.bank [n] word with accBanks := tput b.accBanks (bankKey n t.bank t.ctx) ⟨t.slot, t.ctx, 6, true, true⟩ }

/-- The lowest fenced array goes into its pattern test, once no tile is in the arrays any more (R94, R96, R107). [DESIGN CHOICE, log entry 93] -/
def State.startDiag (s : State) (p : Nat) : State :=
  let b := s.bole p
  if b.diag.isSome || !b.tiles.isEmpty then s
  else match b.arrays.find? fun e => e.2.fenced with
    | some (a, _) => (s.setBole p { b with diag := some (a, false) }).wr (F.arrDiag_busy.at (blBase p)) 1
    | none => s

/-- Failed arrays of a tile (R94, R96, R97, R101, R107, R285): each is counted, logged and fenced; every command with an unchecked tile in them is killed, in
quartered mode with the faults inside quarters only that of the tile. The record's detail0 is the array; of QUARTER_FAULT, detail1 is the scope, 0 quarter or
1 shared. [DESIGN CHOICE, log entry 93] -/
def State.checksFailed (s : State) (p : Nat) (t : TileJob) (code : Nat → Nat) (shared : Bool) (bad : List Nat) : State :=
  let slots := if t.shape ≠ 6 || shared then ((s.bole p).tiles.map (·.slot)).eraseDups else [t.slot]
  let s := bad.foldl (fun (s : State) a =>
    let s := s.inc (F.chkFail_mismatch.at (blBase p)) 1
    let s := s.logFault { mkFault (code a) .bole p a (if t.shape = 6 && shared then 1 else 0) with slot := some t.slot, cls := .contained, flags := 1 }
    let b := s.bole p
    s.setBole p { b with arrays := tput b.arrays a { tgetD b.arrays a ⟨false, 0, 0⟩ with fenced := true, lastFail := s.now } }) s
  let s := slots.foldl (fun (s : State) k =>
    (if (tget s.cmds k).any (·.phase == .saving) then s.logCmd 0x306 k else s).killCmd k .contained) s
  let s := if t.shape = 6 && !shared then bad.foldl (fun (s : State) a => s.markInvalid p a t) s else s
  (s.wr F.ftStat_recovering 1).startDiag p

/-- Accumulator errors that an accumulating drain meets (R123): answers whether an uncorrected one has killed the command. -/
def State.drainErrors (s : State) (p : Nat) (t : TileJob) (ups : List Upset) : State × Bool :=
  ups.foldl (fun (r : State × Bool) u => match u with
    | .accError _ _ false => if t.acc then ((r.1.inc (F.accEcc_count.at (blBase p)) 1).log 0x406 .bole p, r.2) else r
    | .accError _ _ true =>
      if t.acc && !r.2 then ((r.1.inc (F.accEcc_count2.at (blBase p)) 1).containedKill t.slot 0x407 .bole p, true) else r
    | _ => r) (s, false)

/-- The drain and the checks of the oldest tile of a bole complete (R82, R88, R91 to R94, R96, R101, R105 to R107, R109, R123, R240): with every check passed
it stands in its banks, which become readable. [DESIGN CHOICE, log entry 93] -/
def execTileCheckComplete (p : Fin 68) (ups : List Upset) (s : State) : Host.Outcome State Fault Refusal :=
  let p := p.val
  finish <| if s.pow.paused then s else match (s.bole p).tiles with
    | [] => s.startDiag p
    | t :: rest =>
      let slack := s.rd (F.arrCfg_fpSlack.at (blBase p))
      let bad := (List.range 16).filter fun n => !t.arrayOk ups slack n
      let skip := t.skipped ups
      let s := if skip = 0 then s else (s.inc (F.chkSkip_columns.at (blBase p)) skip).sayOnce t.slot 0x408 .bole p
      let combiner := t.shape == 5 && !t.flt && ups.any fun u => match u with | .combiner => true | _ => false
      let sets := if t.shape = 6 && (bad != [] || rest.any fun r => r.shape == 6 && r.bank == t.bank) then 0 else 16 - bad.length
      let s := s.inc2 (F.chkTilesLo_tiles.at (blBase p)) (F.chkTilesHi_tiles.at (blBase p)) sets
      if bad != [] then
        s.checksFailed p t (fun a => if t.shape = 6 then 0x402 else if t.byResidue a then 0x403 else 0x401) (bad.any (t.sharedFault ups)) bad
      else if combiner then s.checksFailed p t (fun _ => 0x403) true [0]
      else
        match s.drainErrors p t ups with
        | (s, true) => s.startDiag p
        | (s, false) =>
          let b := { s.bole p with tiles := rest }
          ((s.setBole p ((b.drain t ups).makeReadable t rest)).startDiag p).heldFault t.slot

/-! ### Diagnosis (R94 to R102) -/

/-- An array is retired and its bole fails (R95). -/
def State.retireArray (s : State) (p a : Nat) : State :=
  ((s.setSpareByte p a (s.spareByte p a ||| 0x80)).log 0x40A .bole p a).failBole p

/-- What the pattern test decides (table Diagnosis outcomes). The record of SPARE_ROW_ACTIVATED holds the array in detail0 and the row in detail1. [DESIGN CHOICE, log entry 93] -/
def State.diagnosed (s : State) (p a : Nat) (d : Diagnosis) : State :=
  let used := (s.spareByte p a).testBit 5
  match d with
  | .clean => (s.inc (F.chkFail_transient.at (blBase p)) 1).log 0x40B .bole p a
  | .row r => if used then s.retireArray p a else ((s.setSpareByte p a (r.val + 0x20)).retime).log 0x409 .bole p a r.val
  | .understory => if used then s.retireArray p a else ((s.setSpareByte p a 0x60).retime).log 0x409 .bole p a 32
  | .other => s.retireArray p a

/-- The 4,096-cycle test of an array ends (R94, R96, R125): a driver's test only reports; the module's own decides the array's next state. -/
def execDiagnosisComplete (p : Fin 68) (d : Diagnosis) (s : State) : Host.Outcome State Fault Refusal :=
  let p := p.val
  finish <| match (s.bole p).diag with
    | none => s
    | some (a, driver) =>
      if !driver && !(s.bole p).tiles.isEmpty then s
      else
        let f := blBase p
        let s := ((s.wr (F.arrDiag_busy.at f) 0).wr (F.arrDiag_done.at f) 1).wrB (F.arrDiag_fail.at f) (d != .clean)
        let s := match d with
          | .row r => (s.wr (F.arrDiag_row.at f) r.val).wr (F.arrDiag_rowValid.at f) 1
          | _ => (s.wr (F.arrDiag_row.at f) 0).wr (F.arrDiag_rowValid.at f) 0
        let b := s.bole p
        if driver then s.setBole p { b with diag := none }
        else
          let arr := tgetD b.arrays a ⟨false, 0, 0⟩
          let arr := { arr with fenced := false, transients := arr.transients + (if d == .clean then 1 else 0) }
          let s := s.setBole p { b with diag := none, arrays := tput b.arrays a arr }
          ((s.diagnosed p a d).startDiag p).recheckRecovering

/-- A write of BL_ARR_DIAG (R125): it starts the test on a bole that is offline or fenced and not under test. -/
def execBlArrDiagStart (p : Fin 68) (v : Word) (s : State) : Host.Outcome State Fault Refusal :=
  let p := p.val
  let f := blBase p
  let n := v.toNat
  let busy := s.rdB (F.arrDiag_busy.at f)
  let s := if busy then s else s.wr (F.arrDiag_array.at f) (bits n 0 4)
  let s := if n.testBit 6 then s.wr (F.arrDiag_done.at f) 0 else s
  let s := if n.testBit 14 then s.wr (F.arrDiag_refused.at f) 0 else s
  finish <|
    if !n.testBit 4 then s
    else
      let st := s.rd (F.status_state.at f)
      if busy || !(st == 0 || st == 5) then s.wr (F.arrDiag_refused.at f) 1
      else (s.setBole p { s.bole p with diag := some (bits n 0 4, true) }).wr (F.arrDiag_busy.at f) 1

/-! ### Scrubs (R172) -/

/-- A scrub of a bole ends its read-back (R23, R27, R172, R567, R568): it completes what it was for, or the bole fails. -/
def execBoleScrubComplete (p : Fin 68) (ok : Bool) (s : State) : Host.Outcome State Fault Refusal :=
  let p := p.val
  let b := s.bole p
  finish <|
    if b.scrubFor = 0 then s
    else
      let f := blBase p
      let s := (((s.setBole p b.zeroed).wr (F.scrub_busy.at f) 0).inc (F.scrub_count.at f) 1).scrubEnergy 14336
      if !ok then s.scrubFail p
      else
        let s := s.wr (F.scrub_fail.at f) 0
        match b.scrubFor, b.standFor, s.logOf p with
        | 1, some n, _ =>
          let old := s.physOf n
          let s := s.standIn n
          if (s.bole old).draining then s.serviceDone old 0 else s.recheckRecovering
        | 2, _, some n => (s.setBole p { s.bole p with scrubFor := 0 }).handOverDone n
        | 3, _, _ =>
          let s := s.setBole p { s.bole p with scrubFor := 0 }
          if (s.bole p).testing then s else s.returnBole p
        | _, _, _ => s.setBole p { s.bole p with scrubFor := 0 }

end Sys2Proof.Machine
end

