-- ==== Sys2Proof/Machine/Scalar.lean ====
section
/-! DEFINITION. Shares and their ends, loops, skips, the change-map test, scale bindings, windows, waits, signals, statistics slots and tickets (05, 06, 07). -/

namespace Sys2Proof.Machine

/-! ### Shares -/

/-- A context number of a bole that a share of this command may take: one held for it (R560), otherwise a free one that is held for none. -/
def Bole.takeCtx (b : Bole) (slot : Nat) : Option Nat :=
  match b.held.find? fun h => h.2 == slot with
  | some h => some h.1
  | none => (List.range 4).find? fun x => (tget b.ctxs x).isNone && !(b.held.any fun h => h.1 == x)

/-- The command comes first in its compartment's port (R273). -/
def State.firstInPort (s : State) (slot : Nat) (c : Cmd) : Bool :=
  !(s.cmds.any fun e => e.1 != slot && e.2.phase == .running && e.2.desc.cls == 1 && !e.2.ready && compOf e.2.desc.target == compOf c.desc.target &&
    e.2.reported.isEmpty && !(s.boles.any fun b => b.2.ctxs.any fun x => x.2.slot == e.1) && decide (e.2.port < c.port))

/-- The registers and counters of a share as it starts (R197, R223, R229). -/
def IssueCtx.start (s : State) (slot n : Nat) (c : Cmd) (l : CutList) (pc : Nat) : IssueCtx :=
  let t : Option TicketSrc := match tget c.sets n, tget c.divCtr n with
    | some (a, st, cnt, fixed), some (ctr, total) => some ⟨fixed, a, st, cnt, 0, total, ctr⟩
    | _, _ => none
  let r : IssueCtx :=
    { slot := slot, pc := pc, ireg := List.replicate 32 0
      areg := (List.range 8).map (fun i => BitVec.ofNat 64 (c.aregs.getD i 0)) ++ l.aConst.map fun v => BitVec.ofNat 64 v
      sreg := c.desc.shapes.map fun v => BitVec.ofNat 32 v
      loops := [], flight := [], sems := List.replicate 16 0, scales := [none, none, none, none], tickets := t
      fetchedTo := min 1024 l.code.length, blocked := false, reported := false, startAt := s.now, ranNs := 0, gatedAt := s.pow.gatedNs, ranGated := 0, stopped := false, refreshed := false }
  (tgetD c.ranks n []).foldl (fun r (d, v) => r.setI d v) r

/-- Adds to a semaphore, saturating (R223). -/
def IssueCtx.signal (c : IssueCtx) (k n : Nat) : IssueCtx := { c with sems := setAt c.sems k (min (c.sems.getD k 0 + n) (2 ^ 32 - 1)) }

/-- A share runs with refresh forced: counted once (R266). -/
def State.countForced (s : State) (p x : Nat) : State :=
  let b := s.bole p
  match tget b.ctxs x with
  | some r => if r.refreshed then s else (s.setBole p { b with ctxs := tput b.ctxs x { r with refreshed := true } }).inc (F.dltLoads_forced.at (blBase p)) 1
  | none => s

/-- A share starts on its bole (R197, R203, R223, R224, R273): at the command's first, every member must have an issue context free, and those of
the other members are kept for it. [DEDUCED, log entry 79] -/
def execShareStart (slot : Fin 4096) (n : Fin 64) (s : State) : Host.Outcome State Fault Refusal :=
  finish <| if s.pow.paused then s else
    let slot := slot.val
    let n := n.val
    match tget s.cmds slot with
    | none => s
    | some c => match tget s.lists c.desc.op with
      | none => s
      | some l =>
        if c.phase != .running || c.ready || !c.unstarted.contains n || !s.boleOnline n then s
        else
          let room := c.shares.all fun m => ((s.bole (s.physOf m)).takeCtx slot).isSome
          if !s.started slot c && (!s.firstInPort slot c || !room) then s
          else
            let s := if s.started slot c then s else c.shares.foldl (fun (s : State) m =>
              let b := s.bole (s.physOf m)
              match b.takeCtx slot with
              | some x => s.setBole (s.physOf m) { b with held := b.held.filter (fun h => h != (x, slot)) ++ [(x, slot)] }
              | none => s) s
            let p := s.physOf n
            let b := s.bole p
            match b.takeCtx slot with
            | none => s
            | some x =>
              let ctx := IssueCtx.start s slot n c l (sectionStart l l.level)
              let ctx := (b.pendSig.filter fun e => e.1 == slot).foldl (fun r (_, k, v) => r.signal k v) ctx
              let s := s.setBole p { b with
                ctxs := tput b.ctxs x ctx
                held := b.held.filter fun h => h != (x, slot)
                pendSig := b.pendSig.filter fun e => e.1 != slot }
              let s := s.setCmd slot { c with unstarted := c.unstarted.filter (· != n) }
              if c.forced then s.countForced p x else s

/-- A block of 64 instructions arrives in a context's buffer (R207). -/
def execInstrBlockFetched (p : Fin 68) (x : Fin 4) (s : State) : Host.Outcome State Fault Refusal :=
  finish <| if s.pow.paused then s else match tget (s.bole p.val).ctxs x.val with
    | none => s
    | some c => match (tget s.cmds c.slot).bind fun m => tget s.lists m.desc.op with
      | none => s
      | some l => s.setCtx p.val x.val { c with fetchedTo := min (c.fetchedTo + 64) l.code.length }

/-- A share reaches its cycle budget before its COMMIT completes (R208). -/
def execCmdBudgetExceeded (p : Fin 68) (x : Fin 4) (s : State) : Host.Outcome State Fault Refusal :=
  finish <| match tget (s.bole p.val).ctxs x.val with
    | none => s
    | some c => match (tget s.cmds c.slot).bind fun m => tget s.lists m.desc.op with
      | none => s
      | some l => if c.reported || s.ctxCycles c < l.budget then s else s.failInstr p.val x.val c.pc c.slot (.data 0x60A 0)

/-- COMMIT (R230): once everything issued has completed, the member reports and its share ends. -/
def execCommit (p : Fin 68) (x : Fin 4) (s : State) : Host.Outcome State Fault Refusal :=
  let p := p.val
  let x := x.val
  finish <| s.issue p x (isOp 0x70) fun i s =>
    if !i.c.flight.isEmpty then .error .wait
    else match s.logOf p with
      | none => .error .wait
      | some n =>
        let b := s.bole p
        let s := s.setBole p { b with ctxs := tdel b.ctxs x, stats := b.stats.filter fun e => e.2.slot != i.c.slot || e.2.ctx != x }
        .ok (s.modCmd i.c.slot fun c => { c with
          reported := c.reported ++ [n], cycles := max c.cycles (s.ctxCycles i.c), usedBoles := c.usedBoles ||| 2 ^ p
          ns := c.ns + s.ctxNs i.c })

/-! ### LOOP and ENDL (R210) -/

/-- Index of the ENDL that closes the loop open at `depth`, looking from instruction `pc`. -/
def findEndl (code : List Nat) : Nat → Nat → Nat → Nat
  | 0, pc, _ => pc
  | n + 1, pc, depth => match opOf (code.getD pc 0) with
    | 0x01 => findEndl code n (pc + 1) (depth + 1)
    | 0x02 => if depth = 0 then pc else findEndl code n (pc + 1) (depth - 1)
    | _ => findEndl code n (pc + 1) depth

/-- The ENDL of the loop whose LOOP is instruction `start`. -/
def endlOf (code : List Nat) (start : Nat) : Nat := findEndl code code.length (start + 1) 0

/-- Leaves the innermost loop as at its final ENDL (R210, R211). -/
def IssueCtx.leave (c : IssueCtx) (code : List Nat) : IssueCtx := match c.loops with
  | e :: rest =>
    let w := code.getD e.start 0
    let c := { c with loops := rest, pc := endlOf code e.start + 1 }
    { c with areg := setAt (setAt c.areg (bits w 76 4) e.pa1) (bits w 100 4) e.pa2 }
  | [] => c.next

/-- LOOP (R210). -/
def execLoop (p : Fin 68) (x : Fin 4) (s : State) : Host.Outcome State Fault Refusal :=
  finish <| s.scalar p.val x.val (isOp 0x01) fun i =>
    let r := i.c.regs i.w
    let div := bits i.w 48 16
    match bits i.w 20 3 with
    | 0 => .ok (go i (bits i.w 32 32))
    | 1 => if div = 0 then .error (.data 0x601 0) else .ok (go i (cdiv (r.sr (bits i.w 32 3)) div))
    | 2 => .ok (go i (r.ir (bits i.w 32 5)))
    | _ => .error (.data 0x601 0)
where
  /-- The loop with its count. -/
  go (i : Iss) (n : Nat) : IssueCtx :=
    if n = 0 then { i.c with pc := endlOf i.code.code i.c.pc + 1 }
    else
      let e : LoopEnt := ⟨i.c.pc, n, 0, i.c.areg.getD (bits i.w 76 4) 0, i.c.areg.getD (bits i.w 100 4) 0⟩
      ({ i.c with loops := e :: i.c.loops }.setI (bits i.w 23 5) 0).next

/-- ENDL (R210). -/
def execEndl (p : Fin 68) (x : Fin 4) (s : State) : Host.Outcome State Fault Refusal :=
  finish <| s.scalar p.val x.val (isOp 0x02) fun i => match i.c.loops with
    | [] => .ok i.c.next
    | e :: rest =>
      let w := i.code.code.getD e.start 0
      if e.iter + 1 < e.n then
        let c := { i.c with loops := { e with iter := e.iter + 1 } :: rest, pc := e.start + 1 }
        let d := bits w 23 5
        let c := c.setI d ((c.regs w).ir d + bits w 64 12)
        let a1 := bits w 76 4
        let c := c.setA a1 (addrAdd ((c.regs w).ar a1) (64 * sgn 20 (bits w 80 20)))
        let a2 := bits w 100 4
        .ok (c.setA a2 (addrAdd ((c.regs w).ar a2) (64 * sgn 20 (bits w 104 20))))
      else .ok (i.c.leave i.code.code)

/-! ### SKIP (R211) -/

/-- The target of a SKIP whose result is true. -/
def IssueCtx.skipTo (c : IssueCtx) (code : List Nat) (w : Nat) : Except Bad IssueCtx := match bits w 25 2 with
  | 0 => if bits w 40 16 = 0 then .error (.data 0x601 0) else .ok { c with pc := c.pc + 1 + bits w 40 16 }
  | 1 => match c.loops with
    | e :: _ => .ok { c with pc := endlOf code e.start }
    | [] => .error (.data 0x601 0)
  | 2 => .ok (c.leave code)
  | _ => .error (.data 0x601 0)

/-- A SKIP once its test has a result. -/
def IssueCtx.skip (c : IssueCtx) (code : List Nat) (w : Nat) (t : Bool) : Except Bad IssueCtx :=
  match c.skipTo code w with
  | .error e => .error e
  | .ok c' => .ok (if t != w.testBit 24 then c' else c.next)

/-- SKIP with a test other than the change map's (R200, R211). [DEDUCED, log entry 76] -/
def execSkip (p : Fin 68) (x : Fin 4) (s : State) : Host.Outcome State Fault Refusal :=
  finish <| s.scalar p.val x.val (fun w => opOf w == 0x40 && bits w 20 4 != 4) fun i =>
    let r := i.c.regs i.w
    let a := r.ir (bits i.w 27 5)
    match bits i.w 20 4 with
    | 0 => i.c.skip i.code.code i.w true
    | 1 => i.c.skip i.code.code i.w (decide (r.sr (bits i.w 37 3) ≤ a * bits i.w 56 16))
    | 2 => i.c.skip i.code.code i.w (decide (r.ir (bits i.w 32 5) ≤ a))
    | 3 => i.c.skip i.code.code i.w (a == 0)
    | _ => .error (.data 0x601 0)

/-- A change map's header (R247). -/
structure MapHdr where
  pic : Nat
  prev : Nat
  wb : Nat
  hb : Nat
  pitch : Nat
  flags : Nat
  ctx : Nat
  resOk : Bool
  deriving DecidableEq, Repr

/-- The header from its 64 bytes. -/
def MapHdr.of (h : List Byte) : MapHdr :=
  ⟨field h 0 4, field h 4 4, field h 16 2, field h 18 2, field h 20 2, field h 22 1, field h 24 4 % 2 ^ 14,
    field h 22 1 < 16 && field h 23 1 == 0 && field h 24 4 < 2 ^ 14 && field h 32 32 == 0⟩

/-- The map can be used by a command of a stream context (R251). -/
def MapHdr.usable (m : MapHdr) (ctx : Option Nat) : Bool := m.resOk && m.wb ≤ 256 && m.hb ≤ 160 && (ctx.isNone || ctx == some m.ctx)

/-- Refresh is forced for a command and a map (R250). -/
def State.refreshForced (s : State) (c : Cmd) (l : CutList) (m : MapHdr) : Bool :=
  match s.streamCtx c with
  | none => true
  | some (id, _) => c.recordForces l || m.flags % 16 != 0 || field c.delta 0 4 != m.prev || !m.usable (some id)

/-- Loads the change plane (R251). -/
def State.loadPlane (s : State) (i : Iss) (a : Nat) : Except Bad State :=
  match s.locRead i.part i.p ⟨0, a⟩ 64 with
  | .error e => .error e
  | .ok h =>
    let m := MapHdr.of h
    let ok := m.usable ((s.streamCtx i.cmd).map (·.1))
    let forced := s.refreshForced i.cmd i.code m
    let t := if (s.streamCtx i.cmd).isSome then field i.cmd.delta 20 1 % 32 else 0
    let body := if ok then s.locRead i.part i.p ⟨0, a + 64⟩ (m.pitch * m.hb) else .ok []
    match body with
    | .error e => .error e
    | .ok d =>
      let hit (y x : Nat) : Bool := let v := (d.getD (y * m.pitch + x) 0).toNat; decide (t < v % 32) || v.testBit 5 || v.testBit 6
      let ch := if ok then (List.range m.hb).flatMap fun y => ((List.range m.wb).filter (hit y)).map fun x => y * 256 + x else []
      let b := blBase i.p
      let s := s.setBole i.p { s.bole i.p with plane := some ⟨i.c.slot, i.x, a, m.wb, m.hb, forced, ch⟩ }
      let s := ((s.wr (F.dltPlane_wb.at b) m.wb).wr (F.dltPlane_hb.at b) m.hb).wrB (F.dltPlane_forced.at b) forced
      let s := (s.wr (F.dltPlane_valid.at b) 1).inc (F.dltLoads_loads.at b) 1
      let s := s.modCmd i.c.slot fun c => { c with mapPic := some m.pic }
      let s := if forced then (s.countForced i.p i.x).modCmd i.c.slot fun c => { c with forced := true } else s
      .ok (if ok then s else s.sayOnce i.c.slot 0x60F .bole i.p a)

/-- SKIP with test 4 (R250 to R252). -/
def execSkipChangeMap (p : Fin 68) (x : Fin 4) (s : State) : Host.Outcome State Fault Refusal :=
  finish <| s.issue p.val x.val (fun w => opOf w == 0x40 && bits w 20 4 == 4) fun i s =>
    let r := i.c.regs i.w
    let cm := r.aop 72
    let w := bits i.w 106 8
    let h := bits i.w 114 8
    let halo := bits i.w 122 6
    if w = 0 || h = 0 then .error (.data 0x601 0)
    else match s.need i.part i.p [0] cm 64 with
      | .error e => .error e
      | .ok () =>
        let have? : Bool := match (s.bole i.p).plane with
          | some q => q.slot == i.c.slot && q.ctx == i.x && q.addr == cm.addr
          | none => false
        match if have? then .ok s else s.loadPlane i cm.addr with
        | .error e => .error e
        | .ok s => match (s.bole i.p).plane with
          | none => .ok s
          | some q =>
            let x0 := r.ir (bits i.w 96 5)
            let y0 := r.ir (bits i.w 101 5)
            let inside (v : Nat) : Bool := let vx := v % 256; let vy := v / 256
              decide (x0 ≤ vx + halo) && decide (vx < x0 + w + halo) && decide (y0 ≤ vy + halo) && decide (vy < y0 + h + halo)
            let t := !q.forced && !(q.changed.any inside)
            match i.c.skip i.code.code i.w t with
            | .error e => .error e
            | .ok c =>
              let b := blBase i.p
              let s := s.inc (F.dltTests_count.at b) 1
              let s := if t then s.inc (F.dltUnchanged_count.at b) 1 else s
              .ok (s.setCtx i.p i.x { c with blocked := false, refreshed := i.c.refreshed || q.forced })

/-! ### SCALE (R147, R149, R216) -/

/-- SCALE that binds a slot. -/
def execScaleBind (p : Fin 68) (x : Fin 4) (s : State) : Host.Outcome State Fault Refusal :=
  finish <| s.scalar p.val x.val (fun w => opOf w == 0x38 && !w.testBit 23) fun i =>
    let r := i.c.regs i.w
    let slot := bits i.w 20 2
    let fp16 := i.w.testBit 22
    let l := r.aop 32
    if (fp16 && slot < 2) || bits i.w 56 24 = 0 || l.addr % 64 ≠ 0 then .error (.data 0x601 l.addr)
    else if l.space = 3 then .error (.data 0x606 l.addr)
    else .ok { i.c.next with scales := setAt i.c.scales slot (some ⟨fp16, l.space, l.addr, bits i.w 56 24,
      bits i.w 101 27 + r.ir (bits i.w 80 5) * bits i.w 85 16⟩) }

/-- SCALE that unbinds a slot. -/
def execScaleUnbind (p : Fin 68) (x : Fin 4) (s : State) : Host.Outcome State Fault Refusal :=
  finish <| s.scalar p.val x.val (fun w => opOf w == 0x38 && w.testBit 23) fun i =>
    .ok { i.c.next with scales := setAt i.c.scales (bits i.w 20 2) none }

/-! ### Windows (R174 to R179, R222) -/

/-- An error that a scalar instruction's own read of a word meets (R191): the address is that of the word read. Answers whether the instruction goes on. -/
def State.narrowErr (s : State) (p x pc slot space addr : Nat) : UnitErr → State × Bool
  | .sramCorrected _ _ => (s.sramCorrected p space addr, true)
  | .sramUncorrected _ _ => (s.sramUncorrected p x pc slot space addr, false)
  | _ => (s, true)

/-- A window's state at a moment: an open window past its expiry is expired (R177). -/
def Win.at (w : Win) (now : Nat) : Nat := if w.state = 1 && w.expiry != noStamp && !stLt now w.expiry then 3 else w.state

/-- A window counts as open, exhausted or expired. -/
def Win.live (w : Win) : Bool := w.state == 1 || w.state == 2 || w.state == 3

/-- The windows of a target: a bole's scratchpad, or its grove's slice. -/
def State.winTab (s : State) (p : Nat) (landing : Bool) : Tab Win := if landing then (s.land (p / 17)).wins else (s.bole p).wins

/-- Replaces them. -/
def State.setWinTab (s : State) (p : Nat) (landing : Bool) (t : Tab Win) : State :=
  if landing then s.setLand (p / 17) { s.land (p / 17) with wins := t } else s.setBole p { s.bole p with wins := t }

/-- The checks of an open in their order (R175): the code of the first that holds, or 0. -/
def State.winCheck (s : State) (part p w : Nat) (landing : Bool) (base limit : Nat) : Nat :=
  let t := s.winTab p landing
  let g := p / 17
  let n := limit - base
  if limit ≤ base || base % 64 ≠ 0 || limit % 64 ≠ 0 || (if landing then 2 ^ 23 < limit || !landRangeOk (g * 2 ^ 23 + base) n else spadSize < limit) then 0x501
  else if landing && (segsOf (g * 2 ^ 23 + base) n).any fun (g, k) => !s.segOk part g k then 0x506
  else if (match tget t w with | some x => x.live | none => false) then 0x505
  else if t.any fun e => e.2.live && e.2.base < limit && base < e.2.limit then 0x504
  else if (if landing then (segsOf (g * 2 ^ 23 + base) n).any fun (g, k) => s.segGated g k
      else (banksOf base n).any (s.gated p)) then 0x503
  else 0

/-- WIN open (R175, R191, R222). -/
def execWinOpen (p : Fin 68) (x : CtxRead) (s : State) : Host.Outcome State Fault Refusal :=
  finish <| s.issue p.val x.ctx.val (fun w => opOf w == 0x50 && !w.testBit 20) fun i s =>
    let rec' := (i.c.regs i.w).aop 32
    match s.need i.part i.p [2] rec' 32 8 with
    | .error e => .error e
    | .ok () => match s.narrowErr i.p i.x i.c.pc i.c.slot 2 rec'.addr x.err with
      | (s, false) => .ok s
      | (s, true) =>
      let d := (s.bole i.p).bytes rec'.addr 32
      let landing := i.w.testBit 21
      let w := bits i.w 22 4
      let base := field d 0 4
      let limit := field d 4 4
      match s.winCheck i.part i.p w landing base limit with
      | 0 =>
        let win : Win :=
          { base := base, limit := limit, src := field d 8 8, modMask := field d 16 1, modPart := field d 17 1 % 16
            expiry := if i.w.testBit 26 then i.cmd.desc.deadline else field d 20 8, wlim := field d 28 4, wcnt := 0, bytes := 0, state := 1
            rejects := 0, part := i.part, slot := i.c.slot, opener := i.cmd.order, ids := [] }
        .ok ((s.setWinTab i.p landing (tput (s.winTab i.p landing) w win)).setCtx i.p i.x i.c.next)
      | c => .error (.data c base)

/-- WIN close (R176, R180, R222): the last window that a save waits for stops its command's issue. -/
def execWinClose (p : Fin 68) (x : Fin 4) (s : State) : Host.Outcome State Fault Refusal :=
  finish <| s.issue p.val x.val (fun w => opOf w == 0x50 && w.testBit 20) fun i s =>
    let landing := i.w.testBit 21
    let t := s.winTab i.p landing
    match tget t (bits i.w 22 4) with
    | none => .error (.data 0x601 0)
    | some w =>
      if w.slot ≠ i.c.slot || w.opener ≠ i.cmd.order then .error (.data 0x601 0)
      else
        let s := (s.setWinTab i.p landing (tput t (bits i.w 22 4) { w with state := 0, ids := [] })).setCtx i.p i.x i.c.next
        .ok (if i.cmd.phase == .saving && !s.windowOpen i.c.slot then s.stopIssue i.c.slot else s)

/-- An open window reaches its expiry (R177); target: logical bole 0 to 63, or 64 + grove. -/
def execWindowExpiry (dst : Fin 68) (w : Fin 16) (s : State) : Host.Outcome State Fault Refusal :=
  finish <|
    let landing := 64 ≤ dst.val
    let p := if landing then 17 * (dst.val - 64) else s.physOf dst.val
    let t := s.winTab p landing
    match tget t w.val with
    | none => s
    | some e => if e.state == 1 && e.at s.now == 3 then s.setWinTab p landing (tput t w.val { e with state := 3 }) else s

/-! ### WAIT and SIG (R223, R224) -/

/-- WAIT for a semaphore. [DEDUCED, log entry 76] -/
def execWaitSemaphore (p : Fin 68) (x : Fin 4) (s : State) : Host.Outcome State Fault Refusal :=
  finish <| s.scalar p.val x.val (fun w => opOf w == 0x58 && (bits w 20 3 == 0 || 2 < bits w 20 3)) fun i =>
    if bits i.w 20 3 ≠ 0 then .error (.data 0x601 0)
    else
      let n := bits i.w 24 4
      let v := bits i.w 32 32
      let cur := i.c.sems.getD n 0
      if cur < v then .error .wait
      else .ok (if i.w.testBit 23 then { i.c.next with sems := setAt i.c.sems n (cur - v) } else i.c.next)

/-- WAIT for a window to be exhausted (R179, R223). -/
def execWaitWindow (p : Fin 68) (x : Fin 4) (s : State) : Host.Outcome State Fault Refusal :=
  finish <| s.issue p.val x.val (fun w => opOf w == 0x58 && bits w 20 3 == 1) fun i s =>
    match tget (s.winTab i.p (i.w.testBit 28)) (bits i.w 24 4) with
    | none => .error .wait
    | some e =>
      if e.at s.now = 3 then .error (.data 0x60C 0)
      else if e.state = 2 then .ok (s.setCtx i.p i.x i.c.next)
      else .error .wait

/-- WAIT for tokens only (R205). -/
def execWaitTokens (p : Fin 68) (x : Fin 4) (s : State) : Host.Outcome State Fault Refusal :=
  finish <| s.scalar p.val x.val (fun w => opOf w == 0x58 && bits w 20 3 == 2) fun i => .ok i.c.next

/-- A SIG with release waits for the context's FETCHes and store PUTs. -/
def sigHeld (i : Iss) : Bool := i.w.testBit 21 && i.c.flight.any fun f => f.dmaMove

/-- SIG to the context's own semaphore. -/
def execSigLocal (p : Fin 68) (x : Fin 4) (s : State) : Host.Outcome State Fault Refusal :=
  finish <| s.scalar p.val x.val (fun w => opOf w == 0x59 && !w.testBit 20) fun i =>
    if bits i.w 32 16 = 0 then .error (.data 0x601 0)
    else if sigHeld i then .error .wait
    else .ok (i.c.next.signal (bits i.w 28 4) (bits i.w 32 16))

/-- SIG to a semaphore on another bole (R224). [DEDUCED, log entry 79] -/
def execSigRemote (p : Fin 68) (x : Fin 4) (s : State) : Host.Outcome State Fault Refusal :=
  finish <| s.issue p.val x.val (fun w => opOf w == 0x59 && w.testBit 20) fun i s =>
    let n := bits i.w 22 6
    let k := bits i.w 28 4
    let v := bits i.w 32 16
    if v = 0 then .error (.data 0x601 0)
    else if sigHeld i then .error .wait
    else if !(compBoles (compOf i.cmd.desc.target)).contains n || !i.cmd.shares.contains n then .error (.data 0x60B n)
    else
      let s := s.setCtx i.p i.x i.c.next
      let q := s.physOf n
      let b := s.bole q
      match b.ctxs.find? fun e => e.2.slot == i.c.slot with
      | some (y, c) => .ok (s.setCtx q y ((if y == i.x && q == i.p then i.c.next else c).signal k v))
      | none =>
        if i.cmd.reported.contains n then .ok s
        else if 64 ≤ b.pendSig.length then .error .wait
        else .ok (s.setBole q { b with pendSig := b.pendSig ++ [(i.c.slot, k, v)] })

/-! ### STAT (R156 to R158, R225) -/

/-- STAT open. -/
def execStatOpen (p : Fin 68) (x : Fin 4) (s : State) : Host.Outcome State Fault Refusal :=
  finish <| s.issue p.val x.val (fun w => opOf w == 0x60 && !w.testBit 20) fun i s =>
    let b := s.bole i.p
    match tfree b.stats 4 with
    | none => .error (.data 0x601 0)
    | some k =>
      if !fmtOk (bits i.w 96 4) then .error (.data 0x601 0)
      else
        let s := s.setBole i.p { b with stats := tput b.stats k ⟨i.x, i.c.slot, bits i.w 64 32, bits i.w 96 4, 0, 0, 0, 0, false⟩ }
        .ok (s.setCtx i.p i.x (i.c.next.setI (bits i.w 21 5) k))

/-- The argument whose private region holds a range of DRAM, with its offset in the region (R218, R219). -/
def State.regionOf (s : State) (c : Cmd) (l : CutList) (arg a n : Nat) : Option Nat :=
  let base := c.aregs.getD arg 0 % 2 ^ 48
  let w := c.desc.arg arg
  if !l.outMask.testBit arg then none
  else match argKind w with
    | 2 => match tget c.fresh arg with
      | some b => if base ≤ a && a + n ≤ base + s.bufSize b.deck then some (a - base) else none
      | none => none
    | 3 =>
      let h := s.dramBytes (argAddr w) 64
      if base ≤ a && a + n ≤ field h 0 6 + field h 8 8 then some (a - base) else none
    | 4 => match tget s.mrings (bits w 0 10) with
      | some r =>
        let size := 64 * 2 ^ r.log2
        let o := (a + size - base) % size
        if r.place.base ≤ a && a + n ≤ r.place.base + size && o + n ≤ 64 * bits w 16 16 then some o else none
      | none => none
    | 5 => match s.bufAt base with
      | some b => if s.bufAddr b ≤ a && a + n ≤ s.bufAddr b + s.bufSize b.deck then some (a - base) else none
      | none => if base ≤ a then some (a - base) else none
    | _ => none

/-- Notes that a command wrote bytes of an output up to `o` from its region's start (R230). -/
def Cmd.wrote (c : Cmd) (arg o : Nat) : Cmd := { c with extents := tput c.extents arg (max (tgetD c.extents arg 0) o) }

/-- Adds with saturation at `w` bits; says whether it saturated. -/
def satAdd (w a b : Nat) : Nat × Bool := (min (a + b) (2 ^ w - 1), decide (2 ^ w ≤ a + b))

/-- The statistics record after a close (R157, R158). [DEDUCED, log entry 80] -/
def StatSlot.add (t : StatSlot) (step : Nat) (r : List Byte) : List Byte × Bool :=
  let (a, s1) := satAdd 64 (field r 8 8) t.total
  let (b, s2) := satAdd 32 (field r 16 4) t.hi
  let (c, s3) := satAdd 32 (field r 20 4) t.lo
  let (d, s4) := satAdd 32 (field r 24 4) t.nan
  let sat := t.sat || s1 || s2 || s3 || s4
  (leBytes 4 t.tid ++ leBytes 1 t.fmt ++ leBytes 1 (if sat then field r 5 1 ||| 1 else field r 5 1) ++ [0, 0] ++ leBytes 8 a ++ leBytes 4 b ++
    leBytes 4 c ++ leBytes 4 d ++ leBytes 4 step, sat)

/-- STAT close. -/
def execStatClose (p : Fin 68) (x : Fin 4) (s : State) : Host.Outcome State Fault Refusal :=
  finish <| s.issue p.val x.val (fun w => opOf w == 0x60 && w.testBit 20) fun i s =>
    let r := i.c.regs i.w
    let b := s.bole i.p
    let l := r.aop 32
    match tget b.stats (r.ir (bits i.w 21 5)) with
    | none => .error (.data 0x601 0)
    | some t =>
      if t.slot ≠ i.c.slot || t.ctx ≠ i.x then .error (.data 0x601 0)
      else match s.need i.part i.p [0] l 32 with
        | .error e => .error e
        | .ok () => match (List.range 8).findSome? fun k => (s.regionOf i.cmd i.code k l.addr 32).map fun o => (k, o) with
          | none => .error (.data 0x607 l.addr)
          | some (arg, o) => match s.locRead i.part i.p l 32 with
            | .error e => .error e
            | .ok old =>
              let (data, sat) := t.add i.cmd.desc.step old
              match s.locWrite i.part i.p l data with
              | .error e => .error e
              | .ok s =>
                let s := s.setBole i.p { s.bole i.p with stats := tdel b.stats (r.ir (bits i.w 21 5)) }
                let s := if sat then s.sayOnce i.c.slot 0x703 .bole i.p else s
                let s := s.modCmd i.c.slot fun c =>
                  { c.wrote arg (o + 32) with dramRd := c.dramRd + 32, dramWr := c.dramWr + 32 }
                .ok (s.setCtx i.p i.x i.c.next)

/-! ### TALLY (R188, R226, R229) -/

/-- The address updates of a take: A[d] = A[b] + I × 64 × stride. -/
def IssueCtx.step (c : IssueCtx) (en : Bool) (d b v st : Nat) : IssueCtx :=
  if en then c.setA d (addrAdd (c.areg.getD b 0).toNat (v * 64 * sgn 24 st)) else c

/-- The context after a take that answers `v` (R226). -/
def IssueCtx.took (c : IssueCtx) (w v : Nat) : IssueCtx :=
  let c := c.next.setI (bits w 22 5) (v % 2 ^ 32)
  let i := if bits w 22 5 = 0 then 0 else v % 2 ^ 32
  (c.step (w.testBit 27) (bits w 48 4) (bits w 52 4) i (bits w 80 24)).step (w.testBit 28) (bits w 56 4) (bits w 60 4) i (bits w 104 24)

/-- TALLY take: from the share a controller handed out, or from the Landing counter. -/
def execTallyTake (p : Fin 68) (x : Fin 4) (e : UnitErr) (s : State) : Host.Outcome State Fault Refusal :=
  let p := p.val
  let x := x.val
  finish <| s.issue p x (fun w => opOf w == 0x48 && bits w 20 2 == 1) fun i s => match e with
   | .sramUncorrected _ a => .ok (s.sramUncorrected p x i.c.pc i.c.slot 1 a)
   | e =>
    let g := bits i.w 45 2
    let n := bits i.w 32 13
    let key := g * 8192 + n
    let st := bits i.w 64 16
    let count (s : State) (v : Nat) (total : Option Nat) : State :=
      if (match total with | some t => decide (t ≤ v) | none => false) then s
      else (s.inc (F.bkTickets_count.at (blBase p)) 1).modCmd i.c.slot fun c => { c with drawn := c.drawn ++ [v] }
    if st = 0 then .error (.data 0x601 0)
    else match i.c.tickets with
      | some t =>
        if t.fixed && t.ctr == key then
          if t.taken < t.count then
            let v := t.start + t.step * t.taken
            let c := { i.c with tickets := some { t with taken := t.taken + 1 } }
            .ok ((count s v none).setCtx p x (c.took i.w v))
          else .ok (s.setCtx p x (i.c.took i.w t.total))
        else land i s e g n key st (if t.ctr == key then some t.total else none) count
      | none => land i s e g n key st none count
where
  /-- A take that reaches the Landing. -/
  land (i : Iss) (s : State) (e : UnitErr) (g n _key st : Nat) (total : Option Nat) (count : State → Nat → Option Nat → State) :
      Except Bad State :=
    let a := g * 2 ^ 23 + 0x7F0000 + 8 * n
    if !s.tallyOk i.part g (n / 512) then .error (.data 0x506 a true)
    else if s.segGated g 15 then .error (.data 0x503 a true)
    else match s.narrowErr i.p i.x i.c.pc i.c.slot 1 a e with
      | (s, false) => .ok s
      | (s, true) =>
        let l := s.land g
        let (v, own) := tgetD l.tally n (0, none)
        if 2 ^ 32 ≤ v then .error (.data 0x608 a true)
        else
          let s := s.setLand g { l with tally := tput l.tally n ((v + st) % 2 ^ 64, own) }
          .ok ((count s v total).setCtx i.p i.x (i.c.took i.w v))

/-- TALLY read (R226); as the row of op 3 it is the illegal one. [DEDUCED, log entry 76] -/
def execTallyRead (p : Fin 68) (x : CtxRead) (s : State) : Host.Outcome State Fault Refusal :=
  finish <| s.issue p.val x.ctx.val (fun w => opOf w == 0x48 && 2 ≤ bits w 20 2) fun i s =>
    let g := bits i.w 45 2
    let n := bits i.w 32 13
    let a := g * 2 ^ 23 + 0x7F0000 + 8 * n
    if bits i.w 20 2 = 3 then .error (.data 0x601 0)
    else if !s.tallyOk i.part g (n / 512) then .error (.data 0x506 a true)
    else if s.segGated g 15 then .error (.data 0x503 a true)
    else match s.narrowErr i.p i.x i.c.pc i.c.slot 1 a x.err with
      | (s, false) => .ok s
      | (s, true) => .ok (s.setCtx i.p i.x (i.c.next.setI (bits i.w 22 5) ((tgetD (s.land g).tally n (0, none)).1 % 2 ^ 32)))

end Sys2Proof.Machine
end

