-- ==== Sys2Proof/Machine/Dma.lean ====
section
/-! DEFINITION. The DMA engine: FETCH with and without boom, zero compression, store and reduction PUTs, boom staging, and writes that arrive at windows (05, 06, 07, 16). -/

namespace Sys2Proof.Machine

/-! ### Zero compression (R257 to R259) -/

/-- One block of a slot: its size in units of 8 bytes, and its bytes. -/
def zcBlock (b : List Byte) : Nat × List Byte :=
  let nz := b.filter (· != 0)
  let size := 1 + cdiv nz.length 8
  let map := listMask ((List.range 64).filter fun i => b.getD i 0 != 0)
  (size, leBytes 8 map ++ nz ++ List.replicate (8 * (size - 1) - nz.length) 0)

/-- The header of a slot from its blocks' sizes. -/
def zcHeader (sizes : List Nat) : List Byte := leBytes 8 (sizes.zipIdx.foldl (fun n (x, j) => n + x * 16 ^ j) 0) ++ List.replicate 56 0

/-- The bytes of the slot that holds these lines: up to 16 blocks, the rest absent. -/
def zcSlot (lines : List (List Byte)) : List Byte :=
  let bs := lines.map zcBlock
  zcHeader (bs.map (·.1)) ++ bs.flatMap (·.2)

/-- A block from its compressed bytes; none where the form is broken (R258). -/
def zcExpand (size : Nat) (b : List Byte) : Option (List Byte) :=
  if size = 0 then some (List.replicate 64 0)
  else
    let map := field b 0 8
    let n := (maskList 64 map).length
    if size ≠ 1 + cdiv n 8 || ((b.drop (8 + n)).take (8 * size - 8 - n)).any (· != 0) then none
    else some ((List.range 64).map fun i => if map.testBit i then b.getD (8 + (maskList i map).length) 0 else 0)

/-- How reading zero-compressed data ends: the lines and the bytes moved, a broken form, or a fault of the read. -/
inductive ZcRes where
  | ok (data : List Byte) (moved : Nat)
  | broken (addr : Nat)
  | bad (b : Bad)

/-- Reads `lines` lines from chunk slots: each slot's header, then the bytes its sizes name, each read with the checks of its range (R182, R184, R187). [DEDUCED, log entry 83] -/
def State.zcRead (s : State) (part p : Nat) (l : Loc) : Nat → Nat → ZcRes
  | 0, _ => .ok [] 0
  | fuel + 1, lines =>
    if lines = 0 then .ok [] 0
    else match (s.need part p [0, 1] l 64).bind fun _ => s.locRead part p l 64 with
      | .error e => .bad e
      | .ok h =>
        let sizes := (List.range 16).map fun j => bits (field h 0 8) (4 * j) 4
        if sizes.any (9 < ·) || (h.drop 8).any (· != 0) then .broken l.addr
        else
          let n := 8 * sizes.foldl (· + ·) 0
          match (if n = 0 then .ok () else s.need part p [0, 1] ⟨l.space, l.addr + 64⟩ n).bind fun _ => s.locRead part p ⟨l.space, l.addr + 64⟩ n with
          | .error e => .bad e
          | .ok d =>
            let blocks := (sizes.foldl (fun (acc : Option (List Byte) × Nat) sz =>
              (acc.1.bind fun o => (zcExpand sz ((d.drop acc.2).take (8 * sz))).map (o ++ ·), acc.2 + 8 * sz)) (some [], 0)).1
            match blocks with
            | none => .broken l.addr
            | some out => match s.zcRead part p ⟨l.space, l.addr + 1216⟩ fuel (lines - 16) with
              | .ok rest moved => .ok (out.take (64 * lines) ++ rest) (64 + n + moved)
              | r => r

/-! ### FETCH (R217, R245) -/

/-- Logical boles a boom names. -/
def Fetch.dsts (f : Fetch) : List Nat :=
  if f.grove then (maskList 16 f.bmask).map (16 * f.bg + ·) else (maskList 4 f.bmask).map (16 * f.bg + 4 * f.bq + ·)

/-- The destination subtree a boom names. -/
def Fetch.subtree (f : Fetch) : Nat := if f.grove then 80 + f.bg else 64 + 4 * f.bg + f.bq

/-- Bytes a FETCH reads at least from its source: its lines, or the header of its first slot. -/
def Fetch.srcBytes (f : Fetch) : Nat := if f.zc then 64 else 64 * f.lines

/-- The checks at issue of a FETCH (R202, R217, R232, R245); the subtree of a boom must lie inside the compartment whole, and its mask inside the subtree. [DEDUCED, log entry 117] -/
def fetchSpecCheck (u : UnitOp) (s : State) : Except Bad Unit := do
  let f := Fetch.of u.w
  need (f.lines != 0) 0x601
  if f.boom then
    need ((f.grove || f.bmask < 16) && (compBoles f.subtree).all (compBoles (compOf u.cmd.desc.target)).contains) 0x601
  s.need u.part u.p [0, 1] (u.r.aop 32) f.srcBytes
  if !f.boom then s.need u.part u.p [2, 1] (u.r.aop 56) (64 * f.lines)

/-- The data of a FETCH, with its counters (R258, R297). -/
def State.fetchData (s : State) (u : UnitOp) (f : Fetch) : Except (Bad × Bool) (List Byte × State) :=
  let l := u.r.aop 32
  let b := blBase u.p
  let charge (s : State) (n : Nat) : State := if l.space = 0 then s.modCmd u.slot fun c => { c with dramRd := c.dramRd + n } else s
  if f.zc then match s.zcRead u.part u.p l (cdiv f.lines 16) f.lines with
    | .ok d moved => .ok (d, charge (s.inc2 (F.zcRdLo_bytes.at b) (F.zcRdHi_bytes.at b) moved) moved)
    | .broken a => .error (.data 0x60E a, true)
    | .bad e => .error (e, false)
  else match s.locRead u.part u.p l (64 * f.lines) with
    | .ok d => .ok (d, charge s (64 * f.lines))
    | .error e => .error (e, false)

/-- Cuts data into writes of at most 1 KiB with their offsets. -/
def cutWrites : Nat → Nat → List Byte → List (Nat × List Byte)
  | 0, _, _ => []
  | n + 1, off, d => if d.isEmpty then [] else (off, d.take 1024) :: cutWrites n (off + 1024) (d.drop 1024)

/-- The work of a FETCH: without boom the lines are written; with boom each 1 KiB goes on its way to every online destination, by way of the
staging area where it comes from DRAM (R189, R217, R245). -/
def fetchRun (u : UnitOp) (s : State) : Except Bad State :=
  let f := Fetch.of u.w
  match s.fetchData u f with
  | .error (e, zc) => if zc then .ok ((s.inc (F.zcErr_count.at (blBase u.p)) 1).failInstr u.p u.x u.r.pc u.slot e) else .error e
  | .ok (d, s) =>
    if !f.boom then s.locWrite u.part u.p (u.r.aop 56) d
    else
      let dsts := f.dsts.filter s.boleOnline
      let src := (s.logOf u.p).getD 0
      let parts := cutWrites (cdiv d.length 1024) (u.r.aop 56).addr d
      if dsts.isEmpty then .ok s
      else if (u.r.aop 32).space = 0 then
        .ok { s with fills := s.fills ++ parts.map fun (o, x) => ⟨u.slot, u.p, u.x, src, dsts, f.win, o, x⟩ }
      else .ok { s with remote := s.remote ++ parts.flatMap fun (o, x) => dsts.map fun n =>
        { src := src, part := u.part, slot := u.slot, p := u.p, ctx := u.x, dst := n, win := f.win, off := o, data := x, stage := none
          stamp := 0, tag := 0 } }

/-- What a FETCH does. -/
def fetchSpec : UnitSpec := ⟨fetchSpecCheck, fetchRun⟩

/-- FETCH without boom. -/
def execFetch (p : Fin 68) (x : Fin 4) (e : UnitErr) (s : State) : Host.Outcome State Fault Refusal :=
  finish (s.unitIssue p.val x.val (fun w => opOf w == 0x30 && !w.testBit 20) e fetchSpec)

/-- FETCH with boom. [DESIGN CHOICE, log entry 78] -/
def execFetchBoom (p : Fin 68) (x : Fin 4) (e : UnitErr) (s : State) : Host.Outcome State Fault Refusal :=
  finish (s.unitIssue p.val x.val (fun w => opOf w == 0x30 && w.testBit 20) e fetchSpec)

/-- Lines of a grove's staging area (R189). -/
def stageLines : Nat := 192

/-- A 1 KiB line of a boom fetch from DRAM fills a free staging line of the issuing bole's grove and goes on its way to every destination
(R189); a gated staging segment drops it (R182), and one that is out of service refuses it (R190). -/
def execBoomStagingLineFilled (g : Fin 4) (s : State) : Host.Outcome State Fault Refusal :=
  let g := g.val
  finish <| match s.fills.find? fun f => f.p / 17 == g with
    | none => s
    | some f =>
      let used := s.remote.filterMap fun r => r.stage.bind fun t => if t.1 = g then some t.2 else none
      match (List.range stageLines).find? fun k => !used.contains k with
      | none => s
      | some k =>
        let part := match tget s.cmds f.slot with | some c => c.desc.part | none => 0
        let s := { s with fills := s.fills.erase f }
        if (s.rd (F.lndFailed_count.at (cgBase g))).testBit 15 then s.failInstr f.p f.ctx 0 f.slot (.data 0x506 (g * 2 ^ 23 + 0x7C0000 + 1024 * k) true)
        else if s.segGated g 15 then s.failInstr f.p f.ctx 0 f.slot (.data 0x503 (g * 2 ^ 23 + 0x7C0000 + 1024 * k) true)
        else
          let s := s.landWrite (g * 2 ^ 23 + 0x7C0000 + 1024 * k) f.data
          { s with remote := s.remote ++ f.dsts.map fun n =>
              { src := f.src, part := part, slot := f.slot, p := f.p, ctx := f.ctx, dst := n, win := f.win, off := f.off, data := f.data
                stage := some (g, k), stamp := 0, tag := 0 } }

/-! ### Writes that arrive at a window (R177, R178, R499) -/

/-- How a write ends at its target. -/
inductive WriteRes where
  | accept
  | reject (cause : Nat)
  | gated (addr : Nat)
  deriving DecidableEq, Repr

/-- Whether a target number is a Landing slice, and the bole or the grove's first bole that it names. -/
def State.winTarget (s : State) (dst : Nat) : Bool × Nat := if 64 ≤ dst then (true, 17 * (dst - 64)) else (false, s.physOf dst)

/-- The partition a write must carry: that of the owner tag, for another module's write that of the module mask. -/
def Win.partFor (w : Win) (src : Nat) : Nat := if 64 ≤ src then w.modPart else w.part

/-- The source may write to the window. -/
def State.srcAllowed (s : State) (w : Win) (src : Nat) : Bool :=
  if 64 ≤ src then w.modMask.testBit (src - 64) && src - 64 != s.rd F.swCfg_modId else w.src.testBit src

/-- The test of R177, in its order, with the window's state after it; a transfer that the window already holds is answered as accepted and changes
nothing (R497). [DEDUCED, log entry 84] -/
def State.winTest (s : State) (r : RemoteW) (stamp : Nat) : WriteRes × Option Win :=
  let (landing, p) := s.winTarget r.dst
  match if r.win < 16 then tget (s.winTab p landing) r.win else none with
  | none => (.reject 1, none)
  | some w =>
    let late := w.expiry != noStamp && !stLt stamp w.expiry
    let n := r.data.length
    let a := w.base + r.off
    if w.state = 0 then (.reject 1, some w)
    else if w.state = 4 then (.reject 6, some w)
    else if 64 ≤ r.src && w.ids.contains r.tag then (.accept, none)
    else if !s.srcAllowed w r.src then (.reject 2, some w)
    else if r.part ≠ w.partFor r.src then (.reject 3, some w)
    else if w.state = 3 then (.reject 4, some w)
    else if late then (.reject 4, some { w with state := 3 })
    else if w.state = 2 then (.reject 5, some w)
    else if r.off % 8 ≠ 0 || n % 8 ≠ 0 || w.limit < a + n then (.reject 7, some w)
    else if (if landing then (segsOf (p / 17 * 2 ^ 23 + a) n).any fun (g, k) => s.segGated g k else (banksOf a n).any (s.gated p)) then (.gated a, some w)
    else
      let c := (w.wcnt + 1) % 2 ^ 32
      (.accept, some { w with wcnt := c, bytes := (w.bytes + n) % 2 ^ 32, state := if w.wlim != 0 && c == w.wlim then 2 else w.state
                              ids := if 64 ≤ r.src then w.ids ++ [r.tag] else w.ids })

/-- Base of the block whose window registers a target has. [DEDUCED, log entry 84] -/
def State.winBlock (s : State) (dst : Nat) : Nat := if 64 ≤ dst then cgBase (dst - 64) else blBase (s.physOf dst)

/-- A window that nothing has opened. -/
def Win.closed : Win :=
  { base := 0, limit := 0, src := 0, modMask := 0, modPart := 0, expiry := 0, wlim := 0, wcnt := 0, bytes := 0, state := 0, rejects := 0, part := 0
    slot := 0, opener := 2 ^ 64, ids := [] }

/-- A write is tested and written whole, or rejected and counted (R177, R178, R182, R192); one dropped at a gated Landing segment counts at the bole that
sent it. -/
def State.deliver (s : State) (r : RemoteW) (stamp : Nat) : WriteRes × State :=
  let (landing, p) := s.winTarget r.dst
  let (res, w) := s.winTest r stamp
  let put (s : State) (w : Win) : State := s.setWinTab p landing (tput (s.winTab p landing) r.win w)
  match res, w with
  | .accept, some w =>
    let s := put s w
    (res, if landing then s.landWrite (p / 17 * 2 ^ 23 + w.base + r.off) r.data else s.spadWrite p (w.base + r.off) r.data)
  | .reject c, w =>
    let s := match w with
      | some w => put s { w with rejects := (w.rejects + 1) % 65536 }
      | none => if r.win < 16 then put s { Win.closed with rejects := 1 } else s
    let b := s.winBlock r.dst
    (res, (s.inc (F.winRej_rejects.at b) 1).wr (F.winRej_lastCause.at b) c)
  | .gated a, _ =>
    if landing then (res, if r.src < 64 then s.inc (F.spadDrop_count.at (blBase r.p)) 1 else s)
    else
      let b := blBase p
      let s := ((s.wr (F.spadLast_addr.at b) a).wr (F.spadLast_cause.at b) 3).wr (F.spadLast_valid.at b) 1
      (res, s.inc (F.spadDrop_count.at b) 1)
  | _, none => (res, s)

/-- The unit that a target number names, as the source of a fault record (R554): a bole by its physical index, or a grove. -/
def State.targetSource (s : State) (dst : Nat) : SrcKind × Nat := if 64 ≤ dst then (.grove, dst - 64) else (.bole, s.physOf dst)

/-- What a sender of this module makes of an answer (R178, R182): by cause 6 its command is killed for a re-run, otherwise it ends; the offset is
in detail0 and the window cause in detail1 (R554). -/
def State.senderResult (s : State) (slot : Nat) (src : SrcKind × Nat) (off : Nat) : WriteRes → State
  | .accept => s
  | .reject 6 => s.containedKill slot 0x502 src.1 src.2 off 6
  | .reject c => s.dataFault slot 0x502 src.1 src.2 off c
  | .gated a => s.dataFault slot 0x503 src.1 src.2 a

/-- The number a DONE carries (R496, R499): 0 accepted, 1 to 7 the cause; a gated target answers as the spec leaves open, here with cause 7. -/
def WriteRes.done : WriteRes → Nat
  | .accept => 0
  | .reject c => c
  | .gated _ => 7

end Sys2Proof.Machine
end

