-- ==== Sys2Proof/Machine/Put.lean ====
section
/-! DEFINITION. PUT: staged stores into the private regions of outputs, reduction entries in the staging deck, and which of the bytes lie in send windows (06 R218 to R221, 07 R259, 13 R406, 16 R494, R495). -/

namespace Sys2Proof.Machine

/-! ### Send windows (R494) -/

/-- A send window in effect for a partition: number, base, limit. -/
def State.sendWin (s : State) (part n : Nat) : Option (Nat × Nat × Nat) :=
  let o := 0x81000 + 0x20 * n
  if s.rdB (F.txwCtl_en.at o) && s.rd (F.txwCtl_partition.at o) == part then
    some (n, s.rd2 (F.txwBaseLo_base.at o) (F.txwBaseHi_base.at o), s.rd2 (F.txwLimitLo_limit.at o) (F.txwLimitHi_limit.at o))
  else none

/-- The send windows of a partition, lowest number first. -/
def State.sendWins (s : State) (part : Nat) : List (Nat × Nat × Nat) := (List.range 16).filterMap (s.sendWin part)

/-- Cuts a range of bytes at the ends of the send windows and at every 1 KiB of target offset: window, data address, bytes (R494, R496). -/
def sendCuts (ws : List (Nat × Nat × Nat)) : Nat → Nat → Nat → List (Nat × Nat × Nat)
  | 0, _, _ => []
  | fuel + 1, a, n =>
    if n = 0 then []
    else
      let next := (ws.filterMap fun w => if a < w.2.1 then some (w.2.1 - a) else none).foldl min n
      match ws.find? fun w => w.2.1 ≤ a && a < w.2.2 with
      | none => sendCuts ws fuel (a + next) (n - next)
      | some (k, b, l) =>
        let m := min (min next (l - a)) (1024 - (a - b) % 1024)
        (k, a, m) :: sendCuts ws fuel (a + m) (n - m)

/-- Pieces of a range that lie in send windows. -/
def State.sendPieces (s : State) (part a n : Nat) : List (Nat × Nat × Nat) := sendCuts (s.sendWins part) (n / 512 + 100) a n

/-- The ranges of bytes that stores have covered, each byte once, in rising order. [DEDUCED, log entry 119] -/
def mergeRanges (l : List (Nat × Nat)) : List (Nat × Nat) :=
  ((l.foldl (fun (t : Tab Nat) e => tput t e.1 (max e.2 (tgetD t e.1 0))) []).foldl (fun acc e => match acc with
    | (a, n) :: r => if e.1 ≤ a + n then (a, max n (e.1 + e.2 - a)) :: r else e :: acc
    | [] => [e]) []).reverse

/-- Bytes of pieces. -/
def pieceBytes (l : List (Nat × Nat × Nat)) : Nat := l.foldl (fun n e => n + e.2.2) 0

/-! ### Stores -/

/-- The fields of a PUT (table PUT). -/
structure Put where
  zc : Bool
  acc : Bool
  red : Nat
  arg : Nat
  lines : Nat
  tk : Nat
  deriving DecidableEq, Repr

/-- The fields of a PUT word. -/
def Put.of (w : Nat) : Put := ⟨w.testBit 20, w.testBit 21, bits w 22 2, bits w 24 4, bits w 80 16, bits w 96 5⟩

/-- The checks at issue of a PUT (R202, R232, R259). -/
def putCheck (u : UnitOp) (s : State) : Except Bad Unit := do
  let f := Put.of u.w
  need (f.lines != 0 && !(f.zc && f.red != 0) && (!f.acc || (AccSrc.of u.w 32).array + cdiv (16 * f.lines) 1024 ≤ 16)) 0x601
  if !f.acc then s.need u.part u.p [2] (u.r.aop 32) (64 * f.lines)
  s.need u.part u.p [0] (u.r.aop 56) 1

/-- The data of a PUT; an accumulator source that is not readable is waited for (R124). -/
def State.putData (s : State) (u : UnitOp) (f : Put) : Except Bad (List Byte) :=
  let b := s.bole u.p
  if f.acc then
    let a := AccSrc.of u.w 32
    if b.accReadable a (16 * f.lines) then .ok (packElems 8 ((b.accWords a (16 * f.lines)).map (·.toNat))) else .error .wait
  else .ok (b.bytes (u.r.aop 32).addr (64 * f.lines))

/-- The accumulator banks that a PUT names for release. -/
def State.putRelease (s : State) (u : UnitOp) (f : Put) : State :=
  if f.acc then s.setBole u.p ((s.bole u.p).accRelease u.slot u.x (AccSrc.of u.w 32) (16 * f.lines)) else s

/-- Chunk slots of a store with their addresses. -/
def putSlots : Nat → Nat → List Byte → List (Nat × List Byte)
  | 0, _, _ => []
  | n + 1, a, d =>
    if d.isEmpty then []
    else (a, zcSlot ((List.range (cdiv (min d.length 1024) 64)).map fun i => (d.drop (64 * i)).take 64)) :: putSlots n (a + 1216) (d.drop 1024)

/-- The offset in the private region of an argument that pieces of bytes end at; none where one lies outside it (R218). -/
def State.regionEnd (s : State) (u : UnitOp) (arg : Nat) (ps : List (Nat × List Byte)) : Option Nat :=
  ps.foldl (fun (acc : Option Nat) (a, d) => acc.bind fun n => (s.regionOf u.cmd u.code arg a d.length).map fun o => max n (o + d.length)) (some 0)

/-- A ring argument whose records are not stored (R471). -/
def Cmd.unstored (c : Cmd) (arg : Nat) : Bool :=
  argKind (c.desc.arg arg) == 4 && c.rings.any fun r => r.ring == bits (c.desc.arg arg) 0 10 && !r.stored

/-- The work of a store PUT (R218, R219, R259, R495). -/
def putStoreRun (u : UnitOp) (s : State) : Except Bad State := do
  let f := Put.of u.w
  let a := (u.r.aop 56).addr
  let data ← s.putData u f
  let ps := if f.zc then putSlots (cdiv f.lines 16) a data else [(a, data)]
  match s.regionEnd u f.arg ps with
  | none => .error (.data 0x607 a)
  | some top =>
    let sent (l : List (Nat × Nat)) : Nat := (mergeRanges l).foldl (fun n e => n + pieceBytes (s.sendPieces u.part e.1 e.2)) 0
    let now := match tget s.cmds u.slot with | some c => c.stored | none => []
    let new := ps.map fun e => (e.1, e.2.length)
    if 512 * 1024 < sent (now ++ new) then .error (.data 0xE09 a)
    else
      let s' : Option State := if u.cmd.unstored f.arg then some s else
        ps.foldl (fun (acc : Option State) (b, d) => acc.bind fun x => x.dramWrite u.part b d) (some s)
      match s' with
      | none => .error (.data 0xB07 a)
      | some s =>
        let n := new.foldl (fun n e => n + e.2) 0
        let b := blBase u.p
        let s := if f.zc then s.inc2 (F.zcWrLo_bytes.at b) (F.zcWrHi_bytes.at b) n else s
        let s := s.modCmd u.slot fun c => { c.wrote f.arg top with stored := c.stored ++ new, dramWr := c.dramWr + n }
        .ok (s.putRelease u f)

/-- What a store PUT does. -/
def putStoreSpec : UnitSpec := ⟨putCheck, putStoreRun⟩

/-! ### Reductions (R220, R406) -/

/-- Staging deck of a partition (R406). -/
def State.stageDeck (s : State) (p : Nat) : Nat := bits (s.reg (0x40010 + 4 * (p / 4))).toNat (8 * (p % 4)) 6

/-- How taking staging buffers ends. -/
inductive StageRes where
  | got (bufs : List BufRef) (s : State)
  | wait
  | disabled
  | empty

/-- Takes `n` buffers of a deck for a command. [DEDUCED, log entry 83] -/
def State.takeStage (s : State) (slot : Nat) (c : Cmd) (live : Bool) (d : Nat) : Nat → StageRes
  | 0 => .got [] s
  | n + 1 => match s.takeStage slot c live d n with
    | .got l s =>
      let o : Owner := ⟨c.desc.part, 1, slot, [.cmd slot]⟩
      match if c.rerun then s.allocRecovery d o else s.alloc d live o with
      | .got b s => .got (l ++ [b]) s
      | .wait _ => .wait
      | .disabled => .disabled
      | .empty => .empty
    | r => r

/-- The work of a reduction PUT: the entry waits in the staging deck, tagged with its ticket (R218, R220, R406, R495). -/
def putReduceRun (u : UnitOp) (s : State) : Except Bad State := do
  let f := Put.of u.w
  let a := (u.r.aop 56).addr
  let data ← s.putData u f
  match s.regionEnd u f.arg [(a, data)] with
  | none => .error (.data 0x607 a)
  | some top =>
    if 0 < pieceBytes (s.sendPieces u.part a data.length) then .error (.data 0xE0B a)
    else
      let d := s.stageDeck u.part
      match s.takeStage u.slot u.cmd (s.clsOf u.cmd == 0) d (cdiv data.length (s.bufSize d)) with
      | .wait => .error .wait
      | .disabled => .error (.data 0xC0E a)
      | .empty => .ok (s.partitionFatal u.part 0x361 .deck d)
      | .got bufs s =>
        let s := bufs.zipIdx.foldl (fun (s : State) (b, i) =>
          s.dramPut (s.bufAddr b) ((data.drop (i * s.bufSize b.deck)).take (s.bufSize b.deck))) s
        let e : RedEntry := { arg := f.arg, ticket := u.r.ir f.tk, red := f.red, dst := a, data := data, bufs := bufs }
        let s := s.modCmd u.slot fun c => { c.wrote f.arg top with reds := c.reds ++ [e], dramWr := c.dramWr + data.length }
        .ok (s.putRelease u f)

/-- What a reduction PUT does. -/
def putReduceSpec : UnitSpec := ⟨putCheck, putReduceRun⟩

/-- PUT that stores. -/
def execPutStore (p : Fin 68) (x : Fin 4) (e : UnitErr) (s : State) : Host.Outcome State Fault Refusal :=
  finish (s.unitIssue p.val x.val (fun w => opOf w == 0x34 && bits w 22 2 == 0) e putStoreSpec)

/-- PUT that reduces. -/
def execPutReduce (p : Fin 68) (x : Fin 4) (e : UnitErr) (s : State) : Host.Outcome State Fault Refusal :=
  finish (s.unitIssue p.val x.val (fun w => opOf w == 0x34 && bits w 22 2 != 0) e putReduceSpec)

end Sys2Proof.Machine
end

