-- ==== Sys2Proof/Machine/Vector.lean ====
section
/-! DEFINITION. The matrix-vector path and the vector unit: MV in both modes, and every VEC operation with its formats, draws, scales and clipping statistics (03, 04, 06). -/

namespace Sys2Proof.Machine

/-! ### MV (R111 to R115, R132, R213) -/

/-- A binding that MV or VEC may use for data of a format (R147). [DEDUCED, log entry 81; DEDUCED, log entry 91] -/
def scaleLegal (b : Option ScaleBind) (f : Nat) : Bool := match b with
  | none => true
  | some b => if b.fp16 then f == 2 else !fmtInt f

/-- The binding that scales data of a format: FP16 for INT4, E8M0 for FP8; other data is taken at scale 1 (R147). -/
def scaleUsed (b : Option ScaleBind) (f : Nat) : Option ScaleBind := b.filter fun b => if b.fp16 then f == 2 else f == 3 || f == 4

/-- The slot-3 binding of a VEC suits the data it reads and writes (R147): FP16 scales only where INT4 is read or written, E8M0 scales nowhere on integers. -/
def vecScaleOk (u : UnitOp) (fi fo : Nat) : Bool := match u.r.scales.getD 3 none with
  | none => true
  | some b => if b.fp16 then fi == 2 || fo == 2 else !fmtInt fi

/-- The checks at issue of an MV (R147, R202, R213, R232). [DEDUCED, log entry 83] -/
def mvCheck (u : UnitOp) (s : State) : Except Bad Unit := do
  let m := Mv.of u.w
  need ((mvPair m.fs m.fv).isSome && m.rows != 0 && m.kb != 0 && m.kb ≤ 256 && elemBytes m.fv m.vecLen ≤ 8192) 0x601
  need (scaleLegal (u.r.scales.getD 2 none) m.fs && scaleLegal (u.r.scales.getD 3 none) m.fv) 0x601
  s.need u.part u.p [0, 1] (u.r.aop 32) m.streamBytes 1
  s.need u.part u.p [2] (u.r.aop 56) (elemBytes m.fv m.vecLen)
  s.need u.part u.p [2] (u.r.aop 101) (4 * m.outLen)

/-- The scale an entry list holds for a row and block, exact; 1 where nothing is bound. -/
def scaleOf (es : List ScaleRead) (row j : Nat) : FV := match es.find? fun e => e.row == row && e.j == j with
  | some e => scaleVal e.fp16 e.word
  | none => .fin false 1 0

/-- FP32 sum of exact values by the fixed tree of 32 leaves (R113, R131). -/
def treeSum (l : List FV) : FV := ((pairTree (fun a b => FV.dec 7 (a.add b).to32.toNat) 5 l).head?).getD (.fin false 0 0)

/-- Adds an exact value to an FP32 word (R131). -/
def faddV (a : Word) (v : FV) : Word := ((FV.dec 7 a.toNat).add v).to32

/-- Blocks of 32. -/
def blocks32 {α : Type} (l : List α) : List (List α) := (List.range (cdiv l.length 32)).map fun j => (l.drop (32 * j)).take 32

/-- One row of dot mode over exact values (R113): block sums in FP32, each times its scale, added in block order. -/
def mvDotFlt (row x : List FV) (sc : Nat → FV) : Word :=
  (blocks32 (row.zip x)).zipIdx.foldl (fun (acc : Word) (b, j) => faddV acc ((treeSum (b.map fun e => e.1.mul e.2)).mul (sc j))) 0

/-- One row of dot mode over integers whose blocks are scaled. -/
def mvDotScaled (row x : List Int) (sc : Nat → FV) : Word :=
  (blocks32 (row.zip x)).zipIdx.foldl (fun (acc : Word) (b, j) =>
    faddV acc ((FV.ofInt (b.foldl (fun n e => n + e.1 * e.2) 0)).mul (sc j))) 0

/-- The outputs of an MV before they are added into y. -/
def Mv.outputs (m : Mv) (rows : List (List Nat)) (vec : List Nat) (es ev : List ScaleRead) (scaled : Bool) : List Word :=
  let flt := (mvPair m.fs m.fv).getD false
  if m.axpy then
    (List.range (m.kb * 32)).map fun l =>
      let terms := rows.zipIdx.zip vec
      if !flt && !scaled then dotInt (terms.map fun ((r, _), v) => (elemInt m.fs (r.getD l 0), elemInt m.fv v))
      else terms.foldl (fun (acc : Word) ((r, k), v) =>
        faddV acc (((scaleOf es k (l / 32)).mul (FV.dec m.fs (r.getD l 0))).mul ((scaleOf ev 0 (k / 32)).mul (FV.dec m.fv v)))) 0
  else
    rows.zipIdx.map fun (r, n) =>
      let sc (j : Nat) : FV := (scaleOf es n j).mul (scaleOf ev 0 j)
      if flt then mvDotFlt (r.map (FV.dec m.fs)) (vec.map (FV.dec m.fv)) sc
      else if scaled then mvDotScaled (r.map (elemInt m.fs)) (vec.map (elemInt m.fv)) sc
      else dotInt ((r.map (elemInt m.fs)).zip (vec.map (elemInt m.fv)))

/-- The work of an MV (R111 to R115, R213). -/
def mvRun (stall : Nat) (u : UnitOp) (s : State) : Except Bad State := do
  let m := Mv.of u.w
  let so := u.r.aop 32
  let yo := (u.r.aop 101).addr
  let b := s.bole u.p
  let vec := (List.range m.vecLen).map (elemAt m.fv (b.bytes (u.r.aop 56).addr (elemBytes m.fv m.vecLen)))
  let get (slot f rows blk : Nat) : Except Bad (List ScaleRead) := match scaleUsed (u.r.scales.getD slot none) f with
    | some sb => s.readScales u.part u.p (if slot = 2 then 1 else 0) sb (List.range rows) blk
    | none => .ok []
  let ev ← get 3 m.fv 1 (cdiv m.vecLen 32)
  let es ← get 2 m.fs m.rows m.kb
  let data ← s.locRead u.part u.p so m.streamBytes
  match s.scaleFaults u.p ((ev.map fun e => { e with j := 0, row := e.j }) ++ es.map fun e => { e with j := 1 + e.row * m.kb + e.j }) with
  | some (s', code, blk) => .ok (s'.failInstr u.p u.x u.r.pc u.slot (.data code blk))
  | none =>
    let rows := (List.range m.rows).map fun n => (List.range (m.kb * 32)).map (elemAt m.fs (data.drop (n * m.pitch)))
    let scaled := !(es.isEmpty && ev.isEmpty)
    let out := m.outputs rows vec es ev scaled
    let flt := (mvPair m.fs m.fv).getD false || scaled
    let old := b.bytes yo (4 * m.outLen)
    let res := out.zipIdx.map fun (v, i) => if m.acc then accAdd flt (BitVec.ofNat 32 (elemAt 8 old i)) v else v
    let f := blBase u.p
    let s := (s.inc2 (F.mvpStallLo_cycles.at f) (F.mvpStallHi_cycles.at f) stall).wr (F.mvpStat_mode.at f) (bits u.w 20 1)
    let s := if so.space = 0 then s.modCmd u.slot fun c => { c with dramRd := c.dramRd + m.streamBytes } else s
    let s := s.act u.slot (64 + 16 * m.fs + m.fv) (m.rows * m.kb * 32)
    .ok (s.spadWrite u.p yo (packElems 8 (res.map (·.toNat))))

/-- What an MV does; `stall` is how many cycles its stream port had no data. -/
def mvSpec (stall : Nat) : UnitSpec := ⟨mvCheck, mvRun stall⟩

/-- MV in dot mode (R112, R113, R213). -/
def execMvDot (p : Fin 68) (x : Fin 4) (e : UnitErr) (stall : Nat) (s : State) : Host.Outcome State Fault Refusal :=
  finish (s.unitIssue p.val x.val (fun w => opOf w == 0x18 && !w.testBit 20) e (mvSpec stall))

/-- MV in axpy mode (R112, R114, R213). -/
def execMvAxpy (p : Fin 68) (x : Fin 4) (e : UnitErr) (stall : Nat) (s : State) : Host.Outcome State Fault Refusal :=
  finish (s.unitIssue p.val x.val (fun w => opOf w == 0x18 && w.testBit 20) e (mvSpec stall))

/-! ### VEC: fields, sources, draws (R117, R214, R215) -/

/-- The fields of a VEC (table VEC). -/
structure Vec where
  vop : Nat
  fo : Nat
  cnt : Nat
  fi : Nat
  rnd : Bool
  acc : Bool
  deriving DecidableEq, Repr

/-- The fields of a VEC word. -/
def Vec.of (w : Nat) : Vec := ⟨bits w 20 8, bits w 28 4, bits w 104 16, bits w 120 4, w.testBit 124, w.testBit 125⟩

/-- Elements of a VEC. -/
def Vec.len (v : Vec) : Nat := 128 * v.cnt

/-- A first source that is an accumulator bank lies in the 16 arrays (R214). -/
def Vec.srcOk (v : Vec) (w : Nat) : Bool := v.cnt != 0 && (!v.acc || (AccSrc.of w 32).array + (cdiv v.len 1024) ≤ 16)

/-- What every VEC is refused for: a reserved format code, or a slot-3 binding that does not suit its data (R126, R147); of a reduction fmt_o is no
format. -/
def Vec.fmtsOk (v : Vec) (u : UnitOp) (fi fo : Nat) : Bool :=
  fmtOk v.fi && (fmtOk v.fo || (0x40 ≤ v.vop && v.vop ≤ 0x42)) && vecScaleOk u fi fo

/-- The check of formats and the range check of the first source. -/
def vecSrcCheck (u : UnitOp) (v : Vec) (f fo : Nat) (s : State) : Except Bad Unit := do
  need (v.srcOk u.w && v.fmtsOk u f fo && (!v.acc || fmtBits f == 32)) 0x601
  if v.acc then pure () else s.need u.part u.p [2] (u.r.aop 32) (elemBytes f v.len)

/-- Element codes of the first source; a bank that is not readable is waited for (R124, R214). -/
def State.vecSrc (s : State) (u : UnitOp) (v : Vec) (f : Nat) : Except Bad (List Nat) :=
  let b := s.bole u.p
  if v.acc then
    let a := AccSrc.of u.w 32
    if b.accReadable a v.len then .ok ((b.accWords a v.len).map (·.toNat)) else .error .wait
  else
    let d := b.bytes (u.r.aop 32).addr (elemBytes f v.len)
    .ok ((List.range v.len).map (elemAt f d))

/-- FP32 or INT32 words at an operand of a VEC. -/
def State.vecWords (s : State) (u : UnitOp) (f n : Nat) : List Nat :=
  let d := (s.bole u.p).bytes (u.r.aop f).addr (4 * n)
  (List.range n).map (elemAt 8 d)

/-- The end of a VEC: its result goes to d, and an accumulator source is released where it says so (R86). -/
def State.vecDone (s : State) (u : UnitOp) (v : Vec) (data : List Byte) : State :=
  let s := if v.acc then s.setBole u.p ((s.bole u.p).accRelease u.slot u.x (AccSrc.of u.w 32) v.len) else s
  if data.isEmpty then s else s.spadWrite u.p (u.r.aop 80).addr data

/-- The element-index record that A15 points to (R164, R182, R215). [DEDUCED, log entry 80] -/
def State.elemRec (s : State) (u : UnitOp) : Except Bad ElemRec :=
  let a := u.r.ar 15
  let l : Loc := ⟨bits a 48 2, bits a 0 48⟩
  if l.space ≠ 2 then .error (.data 0x601 l.addr)
  else match s.need u.part u.p [2] l 16 with
    | .error e => .error e
    | .ok () => match ElemRec.of ((s.bole u.p).bytes l.addr 16) with
      | some r => .ok r
      | none => .error (.data 0x601 l.addr)

/-- The draw of element k (R143, R144, R215); a cut list with uses_random = 0 draws nothing and its command ignores the seed index (R313): what an
instruction of it that asks for a draw takes instead is free. -/
def UnitOp.drawAt (u : UnitOp) (r : ElemRec) (k : Nat) : Nat :=
  if u.code.usesRandom then drawOf u.cmd.seed u.cmd.desc.step r.tid (r.idx k) else (Config.undrawn r.tid (r.idx k)).toNat

/-- The record where the operation draws. -/
def State.elemRecIf (s : State) (u : UnitOp) (on : Bool) : Except Bad (Option ElemRec) :=
  if on then (s.elemRec u).map some else .ok none

/-- Counts narrowed elements in the statistics slots of the issuing context (R156, R158). -/
def State.countNarrow (s : State) (u : UnitOp) (fo : Nat) (tid : Option Nat) (l : List Narrow) : State :=
  let b := s.bole u.p
  let n (f : Narrow → Bool) : Nat := (l.filter f).length
  let hit (t : StatSlot) : Bool := t.slot == u.slot && t.ctx == u.x && t.fmt == fo && (tid.isNone || tid == some t.tid)
  let step (t : StatSlot) : StatSlot × Bool :=
    let (a, s1) := satAdd 64 t.total l.length
    let (h, s2) := satAdd 32 t.hi (n (·.hi))
    let (o, s3) := satAdd 32 t.lo (n (·.lo))
    let (m, s4) := satAdd 32 t.nan (n (·.nan))
    let sat := s1 || s2 || s3 || s4
    ({ t with total := a, hi := h, lo := o, nan := m, sat := t.sat || sat }, sat)
  let any := b.stats.any fun e => hit e.2 && (step e.2).2
  let s := s.setBole u.p { b with stats := tmap b.stats fun t => if hit t then (step t).1 else t }
  if any then s.sayOnce u.slot 0x703 .bole u.p else s

/-- Counts elements narrowed in mode 1 (R146). -/
def State.countSr (s : State) (p n : Nat) : State := s.inc2 (F.qntSrLo_elements.at (blBase p)) (F.qntSrHi_elements.at (blBase p)) n

/-- One more SCALE_INVALID or REQUANT_PARAM_INVALID of a bole, which ends the operation without a write (R139, R154, R161). -/
def State.vecInvalid (s : State) (u : UnitOp) (code addr : Nat) : State :=
  (s.inc (F.qntStat_invalid.at (blBase u.p)) 1).failInstr u.p u.x u.r.pc u.slot (.data code addr)

/-! ### Arithmetic (R117, R119, R130, R131, R133) -/

/-- Minimum or maximum of two FP32 words; of zeros of opposite sign the sign is free. [DESIGN CHOICE, log entry 82] -/
def fminmax (vop : Nat) (mx : Bool) (a b : Word) : Word :=
  let x := FV.vu a
  let y := FV.vu b
  match x, y with
  | .nan, _ => 0x7FC00000
  | _, .nan => 0x7FC00000
  | x, y =>
    if x.isZero && y.isZero && x != y then FV.to32 (.fin (Config.zeroSign vop a b) 0 0)
    else if mx then (if x.lt y then y else x).to32 else (if y.lt x then y else x).to32

/-- The FP32 operations 0x00 to 0x08; `d` is the third source. [DEDUCED, log entry 81] -/
def vecFp (vop : Nat) (a b d : Word) : Word :=
  let x := FV.vu a
  let y := FV.vu b
  match vop with
  | 0 => (x.add y).to32
  | 1 => (x.add y.neg).to32
  | 2 => (x.mul y).to32
  | 3 => ((x.mul y).add (FV.vu d)).to32
  | 4 => fminmax 4 false a b
  | 5 => fminmax 5 true a b
  | 6 => x.abs.to32
  | 7 => x.neg.to32
  | _ => if x.lt y then 1 else 0

/-- The INT32 operations 0x10 to 0x1B; a shift by 32 or more is free. [DESIGN CHOICE, log entry 82] -/
def vecInt (vop : Nat) (a b d : Word) : Word := match vop with
  | 0x10 => a + b
  | 0x11 => a - b
  | 0x12 => a * b
  | 0x13 => if b.toNat < 32 then a <<< b.toNat else Config.wideShift vop a b
  | 0x14 => if b.toNat < 32 then a.sshiftRight b.toNat else Config.wideShift vop a b
  | 0x15 => a &&& b
  | 0x16 => a ||| b
  | 0x17 => a ^^^ b
  | 0x18 => if a.toInt ≤ b.toInt then a else b
  | 0x19 => if a.toInt ≤ b.toInt then b else a
  | 0x1A => if a.toInt < b.toInt then 1 else 0
  | _ => if a ≠ 0 then b else d

/-- The FP32 and INT32 arithmetic operations. -/
def vecArithOps (vop : Nat) : Bool := vop ≤ 8 || (0x10 ≤ vop && vop ≤ 0x1B)

/-- Does the operation read its second source? -/
def vecTwo (vop : Nat) : Bool := vop != 6 && vop != 7

/-- All the listed operations (table Vector operations). -/
def vecOps (vop : Nat) : Bool :=
  vecArithOps vop || [0x20, 0x28, 0x29, 0x2A, 0x30, 0x31, 0x32, 0x33, 0x40, 0x41, 0x42, 0x48, 0x50, 0x51].contains vop

/-- Checks at issue of an arithmetic operation; an operation that is not listed is illegal (R214). -/
def vecArithCheck (u : UnitOp) (s : State) : Except Bad Unit := do
  let v := Vec.of u.w
  need (vecOps v.vop) 0x601
  vecSrcCheck u v (if v.vop < 0x10 then 7 else 8) (if v.vop < 0x10 then 7 else 8) s
  if vecTwo v.vop then s.need u.part u.p [2] (u.r.aop 56) (4 * v.len)
  s.need u.part u.p [2] (u.r.aop 80) (4 * v.len)

/-- The work of an arithmetic operation. -/
def vecArithRun (u : UnitOp) (s : State) : Except Bad State := do
  let v := Vec.of u.w
  let a ← s.vecSrc u v 8
  let b := if vecTwo v.vop then s.vecWords u 56 v.len else []
  let d := if v.vop = 3 ∨ v.vop = 0x1B then s.vecWords u 80 v.len else []
  let f := if v.vop < 0x10 then vecFp else vecInt
  let res := a.zipIdx.map fun (x, i) => (f v.vop (BitVec.ofNat 32 x) (BitVec.ofNat 32 (b.getD i 0)) (BitVec.ofNat 32 (d.getD i 0))).toNat
  .ok (s.vecDone u v (packElems 8 res))

/-! ### Conversion (R127, R136, R137, R147, R148) -/

/-- Formats a conversion reads and writes: those of the array operand pairs, FP32 and INT32. [DEDUCED, log entry 81] -/
def convFmt (f : Nat) : Bool := f < 9

/-- Checks at issue of a conversion. -/
def vecConvertCheck (u : UnitOp) (s : State) : Except Bad Unit := do
  let v := Vec.of u.w
  need (convFmt v.fi && convFmt v.fo) 0x601
  vecSrcCheck u v v.fi v.fo s
  s.need u.part u.p [2] (u.r.aop 80) (elemBytes v.fo v.len)

/-- A value as the VU takes it: FP32 and BF16 subnormals are zero (R130). -/
def vecValue (f c : Nat) : FV := if f = 5 ∨ f = 7 then (FV.dec f c).flush else FV.dec f c

/-- The work of a conversion; where every value fits the output format it is no narrowing step and counts nowhere (R146, R156). -/
def vecConvertRun (u : UnitOp) (s : State) : Except Bad State := do
  let v := Vec.of u.w
  let src ← s.vecSrc u v v.fi
  let rec' ← s.elemRecIf u v.rnd
  let es ← (match scaleUsed (u.r.scales.getD 3 none) v.fi with
    | some sb => s.readScales u.part u.p 0 sb [0] (cdiv v.len 32)
    | none => .ok [])
  match s.scaleFaults u.p es with
  | some (s', code, blk) => .ok (s'.failInstr u.p u.x u.r.pc u.slot (.data code blk))
  | none =>
    let res := src.zipIdx.map fun (c, k) => narrow v.fo v.rnd (match rec' with | some r => u.drawAt r k | none => 0)
      ((scaleOf es 0 (k / 32)).mul (vecValue v.fi c))
    let narrows := v.fo != 7 && (!fmtHolds v.fo v.fi || !es.isEmpty)
    let s := if v.rnd && narrows then s.countSr u.p v.len else s
    let s := if narrows then s.countNarrow u v.fo (rec'.map (·.tid)) res else s
    .ok (s.vecDone u v (packElems v.fo (res.map (·.code))))

/-! ### Requantization (R138 to R141) -/

/-- Output columns of a tile by the shape its bank holds; a diagonal tile's are its channels (R236, R260). -/
def shapeCols (sh : Nat) : Nat := if sh < 7 then (tileGeom sh 0).2.1 else 512 / (8 * 2 ^ (sh - 7))

/-- Channel of word w of array n of a tile (R236, R239 to R241, R260). [DEDUCED, log entry 80] -/
def shapeChan (sh n w : Nat) : Nat :=
  if sh < 7 then ((tileElem sh 0 (2 * (w / 32 / 16) + w % 32 / 16) n w).map (·.2)).getD 0
  else 32 / (8 * 2 ^ (sh - 7)) * n + w % 32 / (8 * 2 ^ (sh - 7))

/-- Shape in the bank a VEC reads; a bank that holds none is taken as T0's. -/
def State.srcShape (s : State) (u : UnitOp) : Nat :=
  let a := AccSrc.of u.w 32
  ((((s.bole u.p).bankEnts a.array a.bank).head?).map (·.2.shape)).getD 0

/-- How many parameter records a requantization has, and the channel of element k. [DEDUCED, log entry 80] -/
def State.channels (s : State) (u : UnitOp) (v : Vec) : Nat × (Nat → Nat) :=
  if v.acc then
    let sh := s.srcShape u
    (shapeCols sh, fun k => shapeChan sh ((AccSrc.of u.w 32).array + k / 1024) (k % 1024))
  else (128, fun k => k % 128)

/-- Checks at issue of a requantization. -/
def vecRequantCheck (u : UnitOp) (s : State) : Except Bad Unit := do
  let v := Vec.of u.w
  need (v.fi == 8 && v.fo < 3) 0x601
  vecSrcCheck u v 8 v.fo s
  s.need u.part u.p [2] (u.r.aop 56) (16 * (s.channels u v).1)
  s.need u.part u.p [2] (u.r.aop 80) (elemBytes v.fo v.len)

/-- The work of a requantization. -/
def vecRequantRun (u : UnitOp) (s : State) : Except Bad State := do
  let v := Vec.of u.w
  let src ← s.vecSrc u v 8
  let (n, chan) := s.channels u v
  let d := (s.bole u.p).bytes (u.r.aop 56).addr (16 * n)
  let used := ((List.range v.len).map chan).eraseDups
  match used.find? fun c => (Requant.of v.fo (d.drop (16 * c))).isNone with
  | some c => .ok (s.vecInvalid u 0x704 ((u.r.aop 56).addr + 16 * c))
  | none =>
    let rq (c : Nat) : Requant := (Requant.of v.fo (d.drop (16 * c))).getD ⟨0, 0, 0, false, 0, 0, 0⟩
    let rec' ← s.elemRecIf u (v.rnd || used.any fun c => (rq c).mode)
    let res := src.zipIdx.map fun (x, k) => requant v.fo (rq (chan k)) (match rec' with | some r => u.drawAt r k | none => 0) (BitVec.ofNat 32 x)
    let s := s.countSr u.p ((List.range v.len).filter fun k => (rq (chan k)).mode).length
    let s := s.countNarrow u v.fo (rec'.map (·.tid)) res
    .ok (s.vecDone u v (packElems v.fo (res.map (·.code))))

/-- Checks at issue of a float requantization. -/
def vecFloatRequantCheck (u : UnitOp) (s : State) : Except Bad Unit := do
  let v := Vec.of u.w
  need (v.fi == 7 && 3 ≤ v.fo && v.fo ≤ 7) 0x601
  vecSrcCheck u v 7 v.fo s
  s.need u.part u.p [2] (u.r.aop 56) (8 * (s.channels u v).1)
  s.need u.part u.p [2] (u.r.aop 80) (elemBytes v.fo v.len)

/-- The work of a float requantization (R141). -/
def vecFloatRequantRun (u : UnitOp) (s : State) : Except Bad State := do
  let v := Vec.of u.w
  let src ← s.vecSrc u v 7
  let (n, chan) := s.channels u v
  let d := (s.bole u.p).bytes (u.r.aop 56).addr (8 * n)
  let rec' ← s.elemRecIf u v.rnd
  if v.fo = 7 then .ok (s.vecDone u v (packElems 7 src))
  else
    let word (o : Nat) : FV := FV.vu (BitVec.ofNat 32 (field d o 4))
    let res := src.zipIdx.map fun (x, k) => narrow v.fo v.rnd (match rec' with | some r => u.drawAt r k | none => 0)
      (((FV.vu (BitVec.ofNat 32 x)).mul (word (8 * chan k))).add (word (8 * chan k + 4)))
    let s := if v.rnd then s.countSr u.p v.len else s
    let s := s.countNarrow u v.fo (rec'.map (·.tid)) res
    .ok (s.vecDone u v (packElems v.fo (res.map (·.code))))

/-! ### Block-quantize (R150, R154) -/

/-- Checks at issue of a block-quantize. -/
def vecBlockCheck (u : UnitOp) (s : State) : Except Bad Unit := do
  let v := Vec.of u.w
  need (v.fi == 7 && (v.fo == 2 || v.fo == 3 || v.fo == 4) && scaleLegal (u.r.scales.getD 3 none) v.fo) 0x601
  vecSrcCheck u v 7 v.fo s
  s.need u.part u.p [2] (u.r.aop 56) (v.len / 32 * scaleSize (v.fo == 2))
  s.need u.part u.p [2] (u.r.aop 80) (elemBytes v.fo v.len)

/-- The work of a block-quantize. -/
def vecBlockRun (u : UnitOp) (s : State) : Except Bad State := do
  let v := Vec.of u.w
  let src ← s.vecSrc u v 7
  let rec' ← s.elemRecIf u v.rnd
  let xs := src.zipIdx.map fun (x, k) => (FV.vu (BitVec.ofNat 32 x), match rec' with | some r => u.drawAt r k | none => 0)
  match (blocks32 xs).mapM (blockQuant v.fo v.rnd) with
  | none => .ok (s.vecInvalid u 0x702 (u.r.aop 56).addr)
  | some bs =>
    let b0 := match u.r.scales.getD 3 none with | some sb => sb.blk | none => 0
    let fp16 := v.fo == 2
    let entries := bs.zipIdx.flatMap fun (e, j) => leBytes (scaleSize fp16) (scaleEntry fp16 e.2 (b0 + j))
    let res := bs.flatMap (·.1)
    let s := if v.rnd then s.countSr u.p v.len else s
    let s := s.countNarrow u v.fo (rec'.map (·.tid)) res
    .ok ((s.vecDone u v (packElems v.fo (res.map (·.code)))).spadWrite u.p (u.r.aop 56).addr entries)

/-! ### Functions, reductions, dropout, draws (R119 to R121, R143 to R145) -/

/-- Is a finite value below the rational −num/den? -/
def belowNeg (num den : Nat) : FV → Bool
  | .fin true m e => decide (num * 2 ^ (-e).toNat < m * 2 ^ e.toNat * den)
  | .inf n => n
  | _ => false

/-- Is a value above num/den? -/
def aboveRat (num den : Nat) : FV → Bool
  | .fin false m e => decide (num * 2 ^ (-e).toNat < m * 2 ^ e.toNat * den)
  | .inf n => !n
  | _ => false

/-- A function operation (R120, R130): the results the table fixes, and inside the range one within its error bound. -/
def vecFuncOp (vop : Nat) (a : Word) : Word :=
  match FV.vu a with
  | .nan => 0x7FC00000
  | .inf n => match vop with
    | 0x30 => if n then 0 else 0x7F800000
    | 0x31 => FV.to32 (.fin n 0 0)
    | 0x32 => if n then 0x7FC00000 else 0
    | _ => if n then 0 else 0x3F800000
  | .fin n m e =>
    let x := FV.fin n m e
    let inside := funcResult vop n m e x.to32
    match vop with
    | 0x30 => if belowNeg 873365 10000 x then 0 else if aboveRat 887228 10000 x then 0x7F800000 else inside
    | 0x31 => if m = 0 then FV.to32 (.inf n) else if aboveRat (2 ^ 126) 1 (.fin false m e) then FV.to32 (.fin n 0 0) else inside
    | 0x32 => if m = 0 then FV.to32 (.inf n) else if n then 0x7FC00000 else inside
    | _ => if belowNeg 873365 10000 x then 0 else inside

/-- Checks at issue of a function operation. -/
def vecFuncCheck (u : UnitOp) (s : State) : Except Bad Unit := do
  let v := Vec.of u.w
  vecSrcCheck u v 7 7 s
  s.need u.part u.p [2] (u.r.aop 80) (4 * v.len)

/-- The work of a function operation. -/
def vecFuncRun (u : UnitOp) (s : State) : Except Bad State := do
  let v := Vec.of u.w
  let src ← s.vecSrc u v 7
  .ok (s.vecDone u v (packElems 7 (src.map fun x => (vecFuncOp v.vop (BitVec.ofNat 32 x)).toNat)))

/-- The operation of a reduction on two words. -/
def redOp (vop : Nat) (a b : Word) : Word :=
  if vop = 0x40 then ((FV.vu a).add (FV.vu b)).to32 else fminmax vop (vop == 0x41) a b

/-- Checks at issue of a reduction: no vector may go beyond lane 127. -/
def vecReduceCheck (u : UnitOp) (s : State) : Except Bad Unit := do
  let v := Vec.of u.w
  need ((v.cnt - 1) / 2 ^ v.fo < 128) 0x601
  vecSrcCheck u v 7 7 s

/-- The work of a reduction: each vector through the tree of seven levels, then into its lane, in order. -/
def vecReduceRun (u : UnitOp) (s : State) : Except Bad State := do
  let v := Vec.of u.w
  let src ← s.vecSrc u v 7
  let acc := (List.range v.cnt).foldl (fun (t : Tab Word) i =>
    let lanes := ((src.drop (128 * i)).take 128).map (BitVec.ofNat 32)
    let r := ((pairTree (redOp v.vop) 7 lanes).head?).getD 0
    wput t (i / 2 ^ v.fo) (redOp v.vop (tgetD t (i / 2 ^ v.fo) 0) r)) (s.bole u.p).redAcc
  let s := s.vecDone u v []
  .ok (s.setBole u.p { s.bole u.p with redAcc := acc })

/-- Checks at issue of a reduction store. -/
def vecStoreCheck (u : UnitOp) (s : State) : Except Bad Unit := do
  need ((Vec.of u.w).cnt != 0 && (Vec.of u.w).fmtsOk u 7 7) 0x601
  s.need u.part u.p [2] (u.r.aop 80) 512

/-- The work of a reduction store. -/
def vecStoreRun (u : UnitOp) (s : State) : Except Bad State :=
  let b := s.bole u.p
  let data := (List.range 128).map fun i => (tgetD b.redAcc i 0).toNat
  .ok ((s.setBole u.p { b with redAcc := [] }).spadWrite u.p (u.r.aop 80).addr (packElems 8 data))

/-- Checks at issue of a dropout. -/
def vecDropCheck (u : UnitOp) (s : State) : Except Bad Unit := do
  let v := Vec.of u.w
  vecSrcCheck u v 7 7 s
  s.need u.part u.p [2] (u.r.aop 56) 8
  s.need u.part u.p [2] (u.r.aop 80) (4 * v.len)

/-- The work of a dropout (R145). -/
def vecDropRun (u : UnitOp) (s : State) : Except Bad State := do
  let v := Vec.of u.w
  let src ← s.vecSrc u v 7
  let r ← s.elemRec u
  let d := (s.bole u.p).bytes (u.r.aop 56).addr 8
  let k : Word := BitVec.ofNat 32 (field d 4 4)
  let res := src.zipIdx.map fun (x, i) => if field d 0 4 ≤ u.drawAt r i then (vecFp 2 (BitVec.ofNat 32 x) k 0).toNat else 0
  .ok (s.vecDone u v (packElems 7 res))

/-- Checks at issue of a draw. -/
def vecDrawCheck (u : UnitOp) (s : State) : Except Bad Unit := do
  let v := Vec.of u.w
  need (v.cnt != 0 && v.fmtsOk u 7 7) 0x601
  s.need u.part u.p [2] (u.r.aop 80) (4 * v.len)

/-- The work of a draw. -/
def vecDrawRun (u : UnitOp) (s : State) : Except Bad State := do
  let v := Vec.of u.w
  let r ← s.elemRec u
  .ok (s.spadWrite u.p (u.r.aop 80).addr (packElems 8 ((List.range v.len).map (u.drawAt r))))

/-- What each kind of VEC does. -/
def vecSpec (w : Nat) : UnitSpec := match bits w 20 8 with
  | 0x20 => ⟨vecConvertCheck, vecConvertRun⟩
  | 0x28 => ⟨vecRequantCheck, vecRequantRun⟩
  | 0x29 => ⟨vecFloatRequantCheck, vecFloatRequantRun⟩
  | 0x2A => ⟨vecBlockCheck, vecBlockRun⟩
  | 0x30 => ⟨vecFuncCheck, vecFuncRun⟩
  | 0x31 => ⟨vecFuncCheck, vecFuncRun⟩
  | 0x32 => ⟨vecFuncCheck, vecFuncRun⟩
  | 0x33 => ⟨vecFuncCheck, vecFuncRun⟩
  | 0x40 => ⟨vecReduceCheck, vecReduceRun⟩
  | 0x41 => ⟨vecReduceCheck, vecReduceRun⟩
  | 0x42 => ⟨vecReduceCheck, vecReduceRun⟩
  | 0x48 => ⟨vecStoreCheck, vecStoreRun⟩
  | 0x50 => ⟨vecDropCheck, vecDropRun⟩
  | 0x51 => ⟨vecDrawCheck, vecDrawRun⟩
  | _ => ⟨vecArithCheck, vecArithRun⟩

/-- Does the row of a vop stand for this word? -/
def isVec (n : Nat) (w : Nat) : Bool := opOf w == 0x20 && bits w 20 8 == n

/-- VEC FP32 and INT32 arithmetic (R117, R131); also the row of a vop that is not listed (R214). [DEDUCED, log entry 76] -/
def execVecArith (p : Fin 68) (x : Fin 4) (e : UnitErr) (s : State) : Host.Outcome State Fault Refusal :=
  finish (s.unitIssue p.val x.val (fun w => opOf w == 0x20 && (vecArithOps (bits w 20 8) || !vecOps (bits w 20 8))) e
    ⟨vecArithCheck, vecArithRun⟩)

/-- VEC convert (R136, R137). -/
def execVecConvert (p : Fin 68) (x : Fin 4) (e : UnitErr) (s : State) : Host.Outcome State Fault Refusal :=
  finish (s.unitIssue p.val x.val (isVec 0x20) e ⟨vecConvertCheck, vecConvertRun⟩)

/-- VEC requantize (R138 to R140). -/
def execVecRequantize (p : Fin 68) (x : Fin 4) (e : UnitErr) (s : State) : Host.Outcome State Fault Refusal :=
  finish (s.unitIssue p.val x.val (isVec 0x28) e ⟨vecRequantCheck, vecRequantRun⟩)

/-- VEC float requantize (R141). -/
def execVecFloatRequantize (p : Fin 68) (x : Fin 4) (e : UnitErr) (s : State) : Host.Outcome State Fault Refusal :=
  finish (s.unitIssue p.val x.val (isVec 0x29) e ⟨vecFloatRequantCheck, vecFloatRequantRun⟩)

/-- VEC block-quantize (R154). -/
def execVecBlockQuantize (p : Fin 68) (x : Fin 4) (e : UnitErr) (s : State) : Host.Outcome State Fault Refusal :=
  finish (s.unitIssue p.val x.val (isVec 0x2A) e ⟨vecBlockCheck, vecBlockRun⟩)

/-- VEC functions (R120). -/
def execVecFunction (p : Fin 68) (x : Fin 4) (e : UnitErr) (s : State) : Host.Outcome State Fault Refusal :=
  finish (s.unitIssue p.val x.val (fun w => opOf w == 0x20 && bits w 22 6 == 0xC) e ⟨vecFuncCheck, vecFuncRun⟩)

/-- VEC reductions (R119, R214). -/
def execVecReduce (p : Fin 68) (x : Fin 4) (e : UnitErr) (s : State) : Host.Outcome State Fault Refusal :=
  finish (s.unitIssue p.val x.val (fun w => opOf w == 0x20 && 0x40 ≤ bits w 20 8 && bits w 20 8 ≤ 0x42) e ⟨vecReduceCheck, vecReduceRun⟩)

/-- VEC store of the reduction accumulator. -/
def execVecReduceStore (p : Fin 68) (x : Fin 4) (e : UnitErr) (s : State) : Host.Outcome State Fault Refusal :=
  finish (s.unitIssue p.val x.val (isVec 0x48) e ⟨vecStoreCheck, vecStoreRun⟩)

/-- VEC dropout (R145). -/
def execVecDropout (p : Fin 68) (x : Fin 4) (e : UnitErr) (s : State) : Host.Outcome State Fault Refusal :=
  finish (s.unitIssue p.val x.val (isVec 0x50) e ⟨vecDropCheck, vecDropRun⟩)

/-- VEC draw (R143, R215). -/
def execVecDraw (p : Fin 68) (x : Fin 4) (e : UnitErr) (s : State) : Host.Outcome State Fault Refusal :=
  finish (s.unitIssue p.val x.val (isVec 0x51) e ⟨vecDrawCheck, vecDrawRun⟩)

end Sys2Proof.Machine
end

