-- ==== Sys2Proof/Machine/Commit.lean ====
section
/-! DEFINITION. The commit step: reductions, publication, rings, completion, delta record, template instances, and commits that find their tickets already published (06 R230, R231, 07 R254, 15 R473 to R476, 18 R544). -/

namespace Sys2Proof.Machine

/-! ### Reductions (R220, R230) -/

/-- Combination of two words under a reduction: the earlier one is the first operand. -/
def redWord (red : Nat) (a b : Word) : Word := match red with
  | 1 => a + b
  | 2 => fadd a b
  | _ => fminmax 0x41 true a b

/-- Adds an entry's words to the combined words by address: the first for an address stores. -/
def redAdd (t : Tab Word) (e : RedEntry) : Tab Word := (List.range (e.data.length / 4)).foldl (fun t i =>
  let w : Word := BitVec.ofNat 32 (elemAt 8 e.data i)
  let a := e.dst + 4 * i
  tput t a (match tget t a with | some v => redWord e.red v w | none => w)) t

/-- The combined words of a command's entries, in increasing ticket order and within a ticket in issue order (R230 step 1). -/
def combineReds (l : List RedEntry) : Tab Word := (l.mergeSort fun a b => a.ticket ≤ b.ticket).foldl redAdd []

/-- Writes the combined words into the outputs; entries of a ring whose records are not stored go. -/
def State.applyReds (s : State) (c : Cmd) : State :=
  (combineReds (c.reds.filter fun e => !c.unstored e.arg)).foldl (fun (s : State) e => (s.dramWrite c.desc.part e.1 (leBytes 4 e.2.toNat)).getD s) s

/-! ### Publication (R230 step 2, R400, R465) -/

/-- The output passes to the host at publication. -/
def argHostBit (w : Nat) : Bool := w.testBit 59

/-- The command that follows in the queue, where it is fetched and a link of it names output `arg` (R465): how many of its arguments do. [DEDUCED, log entry 88] -/
def State.linkers (s : State) (c : Cmd) (arg : Nat) : List (Nat × Nat) := (s.cmds.filter fun e =>
  e.2.sq == c.sq && e.2.seq == (c.seq + 1) % 2 ^ 32).filterMap fun e =>
    let n := (e.2.desc.args.filter fun a => argKind a == 7 && argAddr a == arg).length
    if n = 0 then none else some (e.1, n)

/-- Publishes the fresh output of an argument: its hold passes to the host and to the links that already name it; with no holder it returns. [DEDUCED, log entry 88] -/
def State.publishFresh (s : State) (slot : Nat) (c : Cmd) (arg : Nat) (b : BufRef) : State :=
  let ls := s.linkers c arg
  let hs := (if argHostBit (c.desc.arg arg) then [Holder.host] else []) ++ ls.flatMap fun e => List.replicate e.2 (Holder.cmd e.1)
  let s := s.publishBuf b slot hs
  ls.foldl (fun (s : State) e => s.modCmd e.1 fun x => { x with holds := x.holds ++ List.replicate e.2 b }) s

/-- The extent of an append output advances to the end of the highest byte written (R230 step 2). -/
def State.advanceExtent (s : State) (c : Cmd) (arg : Nat) : State :=
  let h := argAddr (c.desc.arg arg)
  let old := field (s.dramBytes (h + 16) 8) 0 8
  match tget c.extents arg with
  | some n => (s.dramWrite c.desc.part (h + 16) (leBytes 8 (old + n))).getD s
  | none => s

/-- What the command's successor can link to: argument, data address, buffer. [DEDUCED, log entry 24] -/
def State.outsOf (s : State) (c : Cmd) : List (Nat × Nat × Nat × Option BufRef) := (List.range 8).filterMap fun i =>
  match argKind (c.desc.arg i) with
  | 2 => (tget c.fresh i).bind fun b => if (s.ownerOf b).isSome then some (c.seq, i, s.bufAddr b, some b) else none
  | 3 => some (c.seq, i, c.aregs.getD i 0, none)
  | 5 => some (c.seq, i, c.aregs.getD i 0, none)
  | _ => none

/-- Publishes every output of a command. [DEDUCED, log entry 24] -/
def State.publishOuts (s : State) (slot : Nat) (c : Cmd) : State :=
  let s := ((List.range 8).filter fun i => argKind (c.desc.arg i) == 3).foldl (fun (s : State) i => s.advanceExtent c i) s
  let s := c.fresh.foldl (fun (s : State) e => s.publishFresh slot c e.1 e.2) s
  let s := (c.reds.flatMap (·.bufs)).foldl (fun (s : State) b => s.release b (.cmd slot)) s
  { s with sqs := tmod s.sqs c.sq fun q => { q with outs := s.outsOf c } }

/-- Records that a command placed in a ring: those its engine counted, or those its PUTs reach. [DEDUCED, log entry 89] -/
def Cmd.ringCount (c : Cmd) (r : RingOut) : Nat := if c.desc.cls = 1 then
    ((List.range 8).filter fun i => argKind (c.desc.arg i) == 4 && bits (c.desc.arg i) 0 10 == r.ring).foldl
      (fun n i => max n (cdiv (tgetD c.extents i 0) 64)) 0
  else r.count

/-- Each ring's producer index advances past its records and is written to its pointer block (R473 step 2); records of a discarding command are
counted instead (R471). Answers the vectors due (R474). -/
def State.advanceRings (s : State) (c : Cmd) : State × List (Nat × Nat) := c.rings.foldl (fun (acc : State × List (Nat × Nat)) r =>
  let s := acc.1
  match tget s.mrings r.ring with
  | none => acc
  | some g =>
    let n := c.ringCount r
    if !r.stored then ({ s with mrings := tput s.mrings r.ring { g with dropped := (g.dropped + n) % 2 ^ 32 } }, acc.2)
    else if n = 0 then acc
    else
      let p := (g.prod + n) % 2 ^ 32
      let s := { s with mrings := tput s.mrings r.ring { g with prod := p } }
      ((s.queueWrite g.part g.place.ptr g.place.ptrHost (ptrBytes p)).acctOut c.sq (outBytes g.place.ptrHost 8), if g.irqEn then acc.2 ++ [(g.part, g.vector)] else acc.2)) (s, [])

/-- The result field of a completion (R476). [DEDUCED, log entry 90] -/
def State.resultOf (s : State) (c : Cmd) : Nat :=
  if c.desc.cls = 1 ∨ c.desc.cls = 3 ∨ c.desc.cls = 4 ∨ c.desc.cls = 5 then
    match (List.range 8).find? fun i => argKind (c.desc.arg i) == 2 && argHostBit (c.desc.arg i) with
    | some i => match tget c.fresh i with
      | some b => s.bufAddr b % 2 ^ 39 + tgetD c.extents i 0 % 2 ^ 25 * 2 ^ 39
      | none => c.result
    | none => c.result
  else c.result

/-! ### Contexts, the delta record, template instances -/

/-- Contexts take the state that the command leaves them in (R563). [DEDUCED, log entry 23] -/
def State.applyCtxs (s : State) (c : Cmd) : State :=
  { s with ctxs := c.newCtx.foldl (fun t e => match e.2 with | some x => tput t e.1 x | none => tdel t e.1) s.ctxs }

/-- The delta record after a command with a cache argument (R254); it stays dirty where it was rewritten since that command's dispatch (R255). -/
def deltaAfter (d : List Byte) (pic key addr : Nat) (forced rewritten : Bool) : List Byte :=
  let since := if forced then 0 else (field d 18 2 + 1) % 2 ^ 16
  leBytes 4 pic ++ leBytes 4 key ++ leBytes 6 addr ++ (d.drop 14).take 4 ++ leBytes 2 since ++ (d.drop 20).take 1 ++
    leBytes 1 (field d 21 1 / 4 * 4 + 2 * b2n rewritten + 1) ++ d.drop 22

/-- The map whose pic_id the record takes: the one the command loaded, or the one its map argument names. [DEDUCED, log entry 89] -/
def Cmd.deltaPic (c : Cmd) : Option Nat := match c.mapPic with
  | some p => some p
  | none => (c.desc.args.find? fun a => argKind a == 6 && a.testBit 46).map fun a => bits a 0 32

/-- Updates the stream context's delta record (R254). -/
def State.updateDelta (s : State) (c : Cmd) : State :=
  match s.streamCtx c, tget s.lists c.desc.op with
  | some (id, x), some l =>
    if c.isDelta then
      let d := x.params.drop 32
      let d' := deltaAfter d (c.deltaPic.getD (field d 0 4)) (c.key l) c.cacheArg c.forced x.rewritten
      { s with ctxs := tput s.ctxs id { x with params := x.params.take 32 ++ d' } }
    else s
  | _, _ => s

/-- A stamp some lines after another. -/
def State.addLines (s : State) (st n : Nat) : Nat := s.stAdd st (n * 65536)

/-- Stage `k` of a template's instance for a picture (R544). -/
def State.stageDesc (s : State) (t : Template) (k : Nat) (pic stamp : Nat) : List Byte :=
  match t.stages[k]? with
  | none => []
  | some (proto, patch) =>
    let mask := field patch 4 1
    let b0 := if k = 0 then field proto 0 1 else field proto 0 1 ||| 16
    let args := (List.range 8).flatMap fun i =>
      let w := field proto (64 + 8 * i) 8
      leBytes 8 (if mask.testBit i then pic + t.ctx * 2 ^ 32 + bits w 46 1 * 2 ^ 46 + 6 * 2 ^ 50 else w)
    leBytes 1 b0 ++ (proto.drop 1).take 11 ++ (if (field patch 5 1).testBit 0 then leBytes 4 pic else (proto.drop 12).take 4) ++
      leBytes 8 (s.addLines stamp (field patch 0 2)) ++ leBytes 8 (s.addLines stamp (field patch 2 2)) ++ (proto.drop 32).take 32 ++ args

/-- Every preload a template names has completed (R545). -/
def State.templateActive (s : State) (t : Template) : Bool := t.preloads.all fun i => match s.boot.preloads[i]? with
  | some p => p.state == 1
  | none => false

/-- Enters one instance whole at the tail of the template's SQ, or counts it as dropped (R544). [DEDUCED, log entry 89] -/
def State.enterInstance (s : State) (t : Template) (pic stamp : Nat) : State :=
  match tget s.sqs t.sq with
  | none => s
  | some q =>
    let n := t.stages.length
    if 2 ^ q.log2 < (q.tail + 2 ^ 32 - q.head) % 2 ^ 32 + n then
      let s := s.inc F.glTplDrop_count 1
      let due := match s.boot.tplLogged with | some st => decide (10 ^ 9 ≤ s.nsSince st) | none => true
      if due then { s.logPart 0x347 q.part .scheduler 0 t.sq with boot := { s.boot with tplLogged := some s.now } } else s
    else
      let s := (List.range n).foldl (fun (s : State) k =>
        s.queueWrite q.part (q.place.base + ((q.tail + k) % 2 ^ q.log2) * 128) q.place.baseHost (s.stageDesc t k pic stamp)) s
      { s with sqs := tput s.sqs t.sq { q with tail := (q.tail + n) % 2 ^ 32 } }

/-- The instances of a commit that publishes pictures, in output order (R544). -/
def State.makeInstances (s : State) (c : Cmd) : State := c.instances.foldl (fun (s : State) e =>
  (s.boot.templates.filter fun t => t.ctx == e.1 && s.templateActive t).foldl (fun (s : State) t =>
    match (tget s.ctxs e.1).bind fun x => x.dpb.find? fun p => p.id == e.2 with
    | some p => s.enterInstance t e.2 p.stamp
    | none => s) s) s

/-! ### The commit step -/

/-- Every member has reported, or the engine is done (R230). -/
def Cmd.commitDue (c : Cmd) : Bool :=
  c.phase == .running && (c.ready || (c.desc.cls == 1 && !c.shares.isEmpty && c.shares.all c.reported.contains))

/-- Pieces of the bytes that the command has stored that lie in send windows now (R494, R496). -/
def State.toSend (s : State) (c : Cmd) : List (Nat × Nat × Nat) := (mergeRanges c.stored).flatMap fun e => s.sendPieces c.desc.part e.1 e.2

/-- Nothing is left to send (R496). -/
def State.sendDone (s : State) (c : Cmd) : Bool := c.sent == 2 || (c.sent == 0 && (s.toSend c).isEmpty)

/-- Closes the windows that a command opened (R176). -/
def closeWins (slot : Nat) (w : Tab Win) : Tab Win := tmap w fun e => if e.slot == slot && e.live then { e with state := 0, ids := [] } else e

/-- The bole and Landing state of a command that commits goes: its windows close, its slots and banks are free. -/
def State.endShares (s : State) (slot : Nat) : State :=
  { s with boles := tmap s.boles fun (b : Bole) => { b with wins := closeWins slot b.wins }.drop slot false
           lands := tmap s.lands fun (l : Landing) => { l with wins := closeWins slot l.wins } }

/-- The informational code of a completion and what is logged for it (R277, R471, R475): discarded records first, then the command's own, then
the missed deadline; SC_LATE_CNT counts the completions that carry it (R301). -/
def State.commitCode (s : State) (slot : Nat) (c : Cmd) : State × Nat :=
  let code := if c.discarded then 0x326 else if c.code ≠ 0 then c.code else if c.late s.now then 0x302 else 0
  let s := if c.discarded then (s.logCmd 0x326 slot).qErr c.desc.part 0x326 (match c.rings.find? fun r => !r.stored with | some r => r.ring | none => 0) else s
  let s := if c.late s.now then s.logCmd 0x302 slot else s
  (if code = 0x302 then s.inc F.scLateCnt_count 1 else s, code)

/-- Base of the commit unit's duplicate counter (R234). -/
def State.countDup (s : State) (c : Cmd) (n : Nat) : State :=
  let k := compOf c.desc.target
  if k < 64 then s.inc (F.bkDup_count.at (s.compBase k)) n else s.inc (F.commitDup_count.at (s.compBase k)) n

/-- A commit whose tickets have all been published already (R231): nothing is written, and the slot is free. [DESIGN CHOICE, log entry 87] -/
def State.commitAgain (s : State) (slot : Nat) (c : Cmd) : State :=
  let s := (s.countDup c c.drawn.length).logCmd 0x604 slot
  let s := s.charge slot c true
  ((s.discardAttempt slot false).releaseHolds slot).freeSlot slot

/-- The tickets of a commit that its command has not published yet (R231). -/
def Cmd.newTickets (c : Cmd) : List Nat := c.drawn.filter fun t => !c.published.contains t

/-- A commit with tickets that its command has published already (R231): their reduction entries go, and they are counted and reported. [DESIGN CHOICE, log entry 87] -/
def State.discardDup (s : State) (slot : Nat) (c : Cmd) : State × Cmd :=
  let n := c.drawn.length - c.newTickets.length
  if n = 0 then (s, c)
  else ((s.countDup c n).logCmd 0x604 slot, { c with reds := c.reds.filter fun e => !c.published.contains e.ticket, code := if c.code = 0 then 0x604 else c.code })

/-- After a commit on a compartment the LIVE commands at the head of a port that shares a bole with it take the slack test (R281). [DEDUCED, log entry 89] -/
def State.retest (s : State) (k : Nat) : State :=
  ((s.cmds.filter fun e => s.liveWaits e.1 e.2 && (compBoles (compOf e.2.desc.target)).any (compBoles k).contains).map (·.1)).foldl
    (fun (s : State) x => s.slackTest x) s

/-- The commit (R230, R231, R473, R474): one step from the reductions to the vectors; with `kill` a kill has arrived once step 1 had begun, and
the command is re-run although it has committed. [DEDUCED, log entry 23; DEDUCED, log entry 64; DESIGN CHOICE, log entry 87] -/
def State.commitStep (s : State) (slot : Nat) (c : Cmd) (kill : Bool) : State :=
  let (s, c) := s.discardDup slot c
  let out := s.cqOut c
  let s := s.applyReds c
  let s := s.publishOuts slot c
  let s := s.applyCtxs c
  let s := s.updateDelta c
  let (s, code) := s.commitCode slot c
  let (s, vecs) := s.advanceRings c
  let (s, v) := s.postCq c (if code = 0 then 0 else 1) code (s.resultOf c)
  let s := if v then s.cqVector c else s
  let s := vecs.foldl (fun (s : State) e => s.raiseVec e.1 e.2) s
  let s := s.makeInstances c
  let s := (s.charge slot { c with acts := c.acts ++ [(1, out)] } false).endShares slot
  if kill then
    (s.wr F.ftStat_recovering 1).setCmd slot { c.noCharge with
      phase := .killed, kills := c.kills + 1, killedAt := s.now, rerun := true, committed := true, published := c.published ++ c.newTickets
      shares := [], unstarted := [], reported := [], ctlPc := [], divided := [], sets := [], ranks := [], divCtr := [], fresh := []
      extents := [], rings := [], reds := [], stored := [], drawn := [], ready := false, newCtx := [], instances := [], pics := [], mapPic := none }
  else ((s.releaseHolds slot).freeSlot slot).retest (compOf c.desc.target)

/-- COMMAND_COMMIT: the commit step of a command whose members have all reported. [DESIGN CHOICE, log entry 87] -/
def execCommandCommit (slot : Fin 4096) (kill : Bool) (s : State) : Host.Outcome State Fault Refusal :=
  finish <| match tget s.cmds slot.val with
    | none => s
    | some c =>
      if !c.commitDue || s.pow.paused then s
      else if c.committed && c.newTickets.isEmpty then s.commitAgain slot.val c
      else if !s.sendDone c then s
      else s.commitStep slot.val c (kill && c.desc.cls == 1)

end Sys2Proof.Machine
end

