-- ==== Sys2Proof/Machine/Control.lean ====
section
/-! DEFINITION. The control operations: queue objects, contexts, cut lists and dictionaries made and removed (06 R194, R195, 10 R325, R326, R341, 11 R359, 15 R458 to R462). -/

namespace Sys2Proof.Machine

/-! ### Running a control operation -/

/-- Checks of dispatch that every class shares (R43, R566). -/
def State.commonCheck (s : State) (c : Cmd) : Nat :=
  let d := c.desc
  if (s.rd F.ftStat_pfail).testBit d.part then 0x362
  else if s.stampBad d.notBefore || s.stampBad d.deadline then 0x106
  else if d.notBefore != noStamp && d.deadline != noStamp && !stLt d.notBefore d.deadline then 0x107
  else 0

/-- The control operation `op` of a slot runs: control commands run one at a time, in queue order (R458). -/
def State.control (s : State) (slot op : Nat) (run : Cmd → State → State) : State :=
  match tget s.cmds slot with
  | none => s
  | some c =>
    if c.desc.cls != 0 || c.desc.op != op || !(c.phase == .waiting || c.phase == .running) || !s.canBeEligible c || s.epochWait c ||
        s.cmds.any fun e => e.2.sq == c.sq && e.2.order < c.order then s
    else
      let code := s.commonCheck c
      if code = 0 then run c (s.setCmd slot { c with phase := .running }) else s.refuseCmd slot code

/-- A control operation takes effect with its completion (R459); one that completes at its deadline or after it is late (R45, R277). -/
def State.controlDone (s : State) (slot result : Nat) : State :=
  match tget s.cmds slot with
  | some c =>
    if c.late s.now then (((s.logCmd 0x302 slot).inc F.scLateCnt_count 1).postCompletion c 1 0x302 result).freeSlot slot
    else (s.postCompletion c 0 0 result).freeSlot slot
  | none => s

/-- A control operation is refused with a code of its chapter (R198, R460). -/
def State.controlRefuse (s : State) (slot : Nat) (c : Cmd) (code number : Nat) : State :=
  let s := if 0x320 ≤ code ∧ code ≤ 0x32A then s.qErr c.desc.part code number else s
  s.refuseCmd slot code number

/-- Bytes that a command reads. -/
inductive Got where
  | data (b : List Byte)
  | wait (s : State)
  | fail (s : State) (code addr : Nat)

/-- Reads `len` bytes for a command from module DRAM (space 0) or host memory (space 3) under its partition (R375, R432, R464). -/
def State.inData (s : State) (slot : Nat) (c : Cmd) (buf word len : Nat) : Got :=
  if argSpace word = 3 then match s.needHost slot buf (argAddr word) len with
    | .ready b => .data b
    | .failed s code => .fail s code (argAddr word)
    | .waiting s => .wait s
  else match s.dramRead c.desc.part (argAddr word) len with
    | .ok b => .data b
    | .denied a => .fail s 0xB07 a
    | .bad a => .fail s 0xB02 a

/-- Goes on with the data once it is there. -/
def State.withData (s : State) (slot : Nat) (c : Cmd) (buf word len : Nat) (run : List Byte → State → State) : State :=
  match s.inData slot c buf word len with
  | .data b => run b s
  | .wait s => s
  | .fail s code a => s.dataFault slot code .scheduler 0 a

/-! ### Queue objects (R451, R460) -/

/-- log2 of a depth that is a power of two from 2^lo to 2^hi. -/
def depthLog (d lo hi : Nat) : Option Nat := (List.range (hi + 1)).find? fun k => lo ≤ k && d == 2 ^ k

/-- An address word of a create operation: address, host or not; none where it breaks R460 or R464. -/
def State.placeWord (s : State) (p w align : Nat) : Option (Nat × Bool) :=
  let a := argAddr w
  if 2 ^ 50 ≤ w || a % align != 0 then none
  else match argSpace w with
    | 0 => if a < dramSize && s.keyOf a == p then some (a, false) else none
    | 3 => some (a, true)
    | _ => none

/-- Base and pointer block of a new queue object. -/
def State.placeOf (s : State) (p : Nat) (d : Desc) : Option QPlace :=
  (s.placeWord p (d.arg 0) 4096).bind fun a => (s.placeWord p (d.arg 1) 64).map fun b => ⟨a.1, a.2, b.1, b.2⟩

/-- Words and shapes that a create operation does not name hold 0 (R464). -/
def Desc.onlyNames (d : Desc) (args shapes : List Nat) : Bool :=
  (List.range 8).all fun i => (args.contains i || d.arg i == 0) && (shapes.contains i || d.shape i == 0)

/-- A new SQ for a partition that is enabled, checked as R268 and R460 lay down: the code, or the queue. -/
def State.newSq (s : State) (p : Nat) (d : Desc) : Except Nat Sq :=
  let n := d.shape 0
  let f := d.shape 2
  if !s.rdB (F.ptCtrl_enabled.at (ptBase p)) then .error 0x320
  else if (tget s.sqs n).isSome && n < 16384 then .error 0x321
  else match s.placeOf p d, depthLog (d.shape 1) 1 16, tget s.cqs (bits f 0 12) with
    | some pl, some k, some q =>
      if 16384 ≤ n || 2 ^ 15 ≤ f || q.part != p || !d.onlyNames [0, 1] [0, 1, 2] then .error 0x320
      else .ok { part := p, place := pl, log2 := k, head := 0, tail := 0, cls := bits f 12 2, drop := f.testBit 14, cq := bits f 0 12, stopped := false
                 deleting := none, templated := false, fetching := false, plan := false, bad := [], outs := [], fetched := 0 }
    | _, _, _ => .error 0x320

/-- A new CQ; its vector is one that the function has (R435). -/
def State.newCq (s : State) (p : Nat) (d : Desc) : Except Nat Cq :=
  let n := d.shape 0
  let f := d.shape 2
  if !s.rdB (F.ptCtrl_enabled.at (ptBase p)) then .error 0x320
  else if (tget s.cqs n).isSome && n < 4096 then .error 0x321
  else match s.placeOf p d, depthLog (d.shape 1) 1 16 with
    | some pl, some k =>
      if 4096 ≤ n || 2 ^ 12 ≤ f || fnVectors p ≤ bits f 0 11 || !d.onlyNames [0, 1] [0, 1, 2] then .error 0x320
      else .ok { part := p, place := pl, log2 := k, prod := 0, cons := 0, vector := bits f 0 11, irqEn := f.testBit 11, reserved := 0, plan := false, written := 0 }
    | _, _ => .error 0x320

/-- A new metadata ring; its vector is one that the function has (R435). -/
def State.newRing (s : State) (p : Nat) (d : Desc) : Except Nat Ring :=
  let n := d.shape 0
  let f := d.shape 2
  let iv := d.shape 3
  if !s.rdB (F.ptCtrl_enabled.at (ptBase p)) then .error 0x320
  else if (tget s.mrings n).isSome && n < 1024 then .error 0x321
  else match s.placeOf p d, depthLog (d.shape 1) 6 20 with
    | some pl, some k =>
      if 1024 ≤ n || 2 ^ 15 ≤ f || fnVectors p ≤ bits f 3 11 || (f.testBit 2 && (iv == 0 || 65535 < iv)) || !d.onlyNames [0, 1] [0, 1, 2, 3] then .error 0x320
      else .ok { part := p, place := pl, log2 := k, prod := 0, cons := 0, discard := f.testBit 0, faultEn := f.testBit 1, loadEn := f.testBit 2
                 vector := bits f 3 11, irqEn := f.testBit 14, interval := if f.testBit 2 then iv else 0, plan := false, dropped := 0 }
    | _, _ => .error 0x320

/-- CREATE_SQ (R460). [DESIGN CHOICE, log entry 103] -/
def execCreateSq (slot : Fin 4096) (s : State) : Host.Outcome State Fault Refusal :=
  finish <| s.control slot.val 0x001 fun c s => match s.newSq c.desc.part c.desc with
    | .error code => s.controlRefuse slot.val c code (c.desc.shape 0 % 16384)
    | .ok q => ({ s with sqs := tput s.sqs (c.desc.shape 0) q }).controlDone slot.val 0

/-- CREATE_CQ (R460). -/
def execCreateCq (slot : Fin 4096) (s : State) : Host.Outcome State Fault Refusal :=
  finish <| s.control slot.val 0x003 fun c s => match s.newCq c.desc.part c.desc with
    | .error code => s.controlRefuse slot.val c code (c.desc.shape 0 % 16384)
    | .ok q => ({ s with cqs := tput s.cqs (c.desc.shape 0) q }).controlDone slot.val 0

/-- CREATE_RING (R460). -/
def execCreateRing (slot : Fin 4096) (s : State) : Host.Outcome State Fault Refusal :=
  finish <| s.control slot.val 0x005 fun c s => match s.newRing c.desc.part c.desc with
    | .error code => s.controlRefuse slot.val c code (c.desc.shape 0 % 16384)
    | .ok q => ({ s with mrings := tput s.mrings (c.desc.shape 0) q }).controlDone slot.val 0

/-- DELETE_SQ (R460): the queue stops; its commands run to their end, and the delete completes after the last of them. -/
def execDeleteSq (slot : Fin 4096) (s : State) : Host.Outcome State Fault Refusal :=
  finish <| s.control slot.val 0x002 fun c s =>
    let n := c.desc.shape 0
    match if n < 16384 then tget s.sqs n else none with
    | none => s.controlRefuse slot.val c 0x320 (n % 16384)
    | some q =>
      if q.part != c.desc.part then s.controlRefuse slot.val c 0x320 n
      else { s with sqs := tput s.sqs n { q with stopped := true, deleting := some slot.val } }

/-- DELETE_SQ_COMPLETE (R460): the last command of the queue has ended, a descriptor on its way included. -/
def execDeleteSqComplete (n : Fin 16384) (s : State) : Host.Outcome State Fault Refusal :=
  finish <| match tget s.sqs n.val with
    | none => s
    | some q => match q.deleting with
      | none => s
      | some slot => if q.fetching || s.cmds.any fun e => e.2.sq == n.val then s else ({ s with sqs := tdel s.sqs n.val }).controlDone slot 0

/-- DELETE_CQ (R460): refused while an SQ is bound to the queue. -/
def execDeleteCq (slot : Fin 4096) (s : State) : Host.Outcome State Fault Refusal :=
  finish <| s.control slot.val 0x004 fun c s =>
    let n := c.desc.shape 0
    match if n < 4096 then tget s.cqs n else none with
    | none => s.controlRefuse slot.val c 0x320 (n % 16384)
    | some q =>
      if q.part != c.desc.part then s.controlRefuse slot.val c 0x320 n
      else if s.sqs.any fun e => e.2.cq == n then s.controlRefuse slot.val c 0x321 n
      else ({ s with cqs := tdel s.cqs n }).controlDone slot.val 0

/-- DELETE_RING (R460): refused while a command in flight names the ring. -/
def execDeleteRing (slot : Fin 4096) (s : State) : Host.Outcome State Fault Refusal :=
  finish <| s.control slot.val 0x006 fun c s =>
    let n := c.desc.shape 0
    match if n < 1024 then tget s.mrings n else none with
    | none => s.controlRefuse slot.val c 0x320 (n % 16384)
    | some q =>
      if q.part != c.desc.part then s.controlRefuse slot.val c 0x320 n
      else if s.cmds.any fun e => (e.2.inFlight || e.2.phase == .killed) && (ringArgs e.2).any fun r => r.1 == n then s.controlRefuse slot.val c 0x321 n
      else ({ s with mrings := tdel s.mrings n }).controlDone slot.val 0

/-! ### Contexts (R325, R326, R341, R461) -/

/-- Size of a kind's parameter record (table Context kinds). -/
def ctxSize (kind : Nat) : Nat := [64, 32, 16, 16, 16].getD kind 0

/-- Every byte of a range of a record is 0. -/
def zeros (b : List Byte) (lo n : Nat) : Bool := ((b.drop lo).take n).all (· == 0)

/-- Rounds up to a multiple. -/
def alignUp (n m : Nat) : Nat := cdiv n m * m

/-- Pitches, chroma offset, chroma rows and size of an output frame (R330): luma pitch, chroma pitch, chroma offset, chroma rows. -/
def frameLayout (w h : Nat) (wide : Bool) (chroma : Nat) : Nat × Nat × Nat × Nat :=
  let e := if wide then 2 else 1
  let py := alignUp (w * e) 64
  match chroma with
  | 0 => (py, 0, py * h, 0)
  | 1 => (py, alignUp (2 * cdiv w 2 * e) 64, py * h, cdiv h 2)
  | _ => (py, alignUp (2 * cdiv w 2 * e) 64, py * h, h)

/-- Frame size (R330). -/
def frameSize (w h : Nat) (wide : Bool) (chroma : Nat) : Nat :=
  let (_, pc, off, rows) := frameLayout w h wide chroma
  off + pc * rows

/-- Size of a change map (R247). -/
def mapSize (w h : Nat) : Nat := 64 + alignUp (cdiv w 16) 16 * cdiv h 16

/-- The fields of a decode record lie in their values (table Decode context parameters, R320, R321, R325). [DEDUCED, log entry 104] -/
def decodeRecordOk (b : List Byte) : Bool :=
  let codec := field b 0 1; let depth := field b 2 1; let ch := field b 3 1; let w := field b 4 2; let h := field b 6 2; let q := field b 11 1
  codec ≤ 2 && field b 1 1 < 16 && (depth == 8 || depth == 10) && ch ≤ 2 && !(codec == 2 && ch == 2) && 64 ≤ w && w ≤ 8192 && 64 ≤ h && h ≤ 4352 &&
    w * h ≤ 35651584 && 100 ≤ field b 8 2 && field b 8 2 ≤ 24000 && 1 ≤ field b 10 1 && field b 10 1 ≤ 16 && (q == 0 || 16 ≤ q) &&
    (if codec = 2 then field b 12 1 ≤ 31 else field b 12 1 == 0) && field b 13 1 < 64 && field b 14 1 < 64 && zeros b 15 17

/-- The fields of an encode record lie in their values (table Encode context parameters). [DEDUCED, log entry 104] -/
def encodeRecordOk (b : List Byte) : Bool :=
  let codec := field b 0 1; let fl := field b 1 1; let lat := bits fl 2 2; let w := field b 2 2; let h := field b 4 2; let rc := field b 8 1
  let qmax := if codec = 1 then 51 else 255
  (codec == 1 || codec == 2) && fl < 32 && lat ≤ 2 && w % 8 == 0 && 64 ≤ w && w ≤ 4096 && h % 8 == 0 && 64 ≤ h && h ≤ 2304 && 100 ≤ field b 6 2 &&
    field b 6 2 ≤ 24000 && rc ≤ 2 && field b 10 1 ≤ field b 9 1 && field b 9 1 ≤ field b 11 1 && field b 11 1 ≤ qmax &&
    (rc == 0 || (100 ≤ field b 12 4 && field b 12 4 ≤ 400000)) && 10 ≤ field b 16 2 && field b 16 2 ≤ 10000 &&
    (lat != 2 || 2 ≤ field b 20 1) && (if lat = 0 then field b 21 1 ≤ 3 else field b 21 1 == 0) && 1 ≤ field b 22 1 && field b 22 1 ≤ 4 &&
    1 ≤ field b 23 1 && field b 23 1 ≤ 15 && field b 24 1 ≤ 68 && field b 25 1 < 64 && field b 26 1 < 64 && zeros b 27 5

/-- A deck serves a context: enabled, and not the recovery deck (R325, R396, R405). -/
def State.deckServes (s : State) (d : Nat) : Bool := s.deckOn d && !s.isRecDeck d

/-- An empty context. -/
def Ctx.new (kind part : Nat) (params : List Byte) : Ctx :=
  { kind := kind, part := part, params := params, plan := false, parent := none, closing := none, dpb := [], nextPic := 0, lastPub := none, carry := []
    lastByte := none, tokens := 0, tracks := [], nextTrack := if kind = 2 then field params 8 4 else 0, lastFrame := none, encHist := 0, encRefs := []
    winLeft := 0, motion := false, group := 0, recon := none, cycle := 0, cutSeen := false, sceneCut := false, decHist := 0, rewritten := false }

/-- The tests of an open that need no record, in their order (R271, R325, R341, R461): a code, or 0. -/
def State.openEarly (s : State) (p kind : Nat) : Nat :=
  if 5 ≤ kind then 0x329
  else if s.rd (F.ptQuota_contexts.at (ptBase p)) ≤ s.partContexts p || (tfree s.ctxs 16384).isNone then 0x307
  else if kind = 0 && 128 ≤ (s.ctxs.filter fun e => e.2.kind == 0).length then 0x806
  else if kind = 1 && 32 ≤ (s.ctxs.filter fun e => e.2.kind == 1).length then 0x901
  else 0

/-- The tests of an open's record (R320, R324, R325, R341, R461): a code, or 0. -/
def State.openRecord (s : State) (p kind : Nat) (b : List Byte) : Nat :=
  match kind with
  | 0 =>
    let w := field b 4 2; let h := field b 6 2
    let mapEn := (field b 1 1).testBit 1
    if !decodeRecordOk b then 0x80E
    else if !s.deckServes (field b 13 1) || s.bufSize (field b 13 1) < frameSize w h (field b 2 1 == 10) (field b 3 1) then 0x80E
    else if mapEn && (!s.deckServes (field b 14 1) || s.bufSize (field b 14 1) < mapSize w h) then 0x80E
    else if 2000000000 * 100 < w * h * field b 8 2 then 0x809
    else 0
  | 1 =>
    let w := field b 2 2; let h := field b 4 2
    if !encodeRecordOk b then 0x902
    else if !s.deckServes (field b 25 1) || s.bufSize (field b 25 1) < frameSize w h ((field b 1 1).testBit 1) 1 then 0x902
    else if !s.deckServes (field b 26 1) then 0x902
    else if 1000000000 * 100 < w * h * field b 6 2 then 0x902
    else 0
  | 2 => if field b 4 1 == 0 || !zeros b 5 3 || !zeros b 12 4 then 0x329 else 0
  | 3 =>
    let ok := match tget s.dicts (field b 0 1) with | some d => d.part.isNone || d.part == some p | none => false
    if !ok || !zeros b 1 15 then 0x329 else 0
  | _ => if zeros b 0 16 then 0 else 0x329

/-- The record of a decode context with its delta record's reserved bits 0 (R9, R249). -/
def deltaClean (b : List Byte) : List Byte :=
  b.take 46 ++ leBytes 2 0 ++ (b.drop 48).take 4 ++ leBytes 1 (field b 52 1 % 32) ++ leBytes 1 (field b 53 1 % 4) ++ List.replicate 10 (0 : Byte)

/-- Opens a context under the lowest free ID. -/
def State.openCtx (s : State) (p kind : Nat) (b : List Byte) : Option (Nat × State) :=
  (tfree s.ctxs 16384).map fun id => (id, { s with ctxs := tput s.ctxs id (Ctx.new kind p (if kind = 0 then deltaClean b else b)) })

/-- Records the last code of the decode or encode registers (R348). -/
def State.mdLast (s : State) (enc : Bool) (code ctx : Nat) : State :=
  if enc then ((s.wr F.enLast_code code).wr F.enLast_ctx ctx).wr F.enLast_valid 1
  else ((s.wr F.mdLast_code code).wr F.mdLast_ctx ctx).wr F.mdLast_valid 1

/-- OPEN_CONTEXT (R325, R341, R461): the context ID is the result. [DESIGN CHOICE, log entry 103] -/
def execOpenContext (slot : Fin 4096) (s : State) : Host.Outcome State Fault Refusal :=
  finish <| s.control slot.val 0x010 fun c s =>
    let p := c.desc.part
    let kind := c.desc.shape 0
    let refuse (s : State) (code : Nat) : State :=
      let s := if code / 256 = 8 then s.mdLast false code 0 else if code / 256 = 9 then s.mdLast true code 0 else s
      s.controlRefuse slot.val c code 0
    let early := s.openEarly p kind
    if early ≠ 0 then refuse s early
    else s.withData slot.val c 0 (c.desc.arg 0) (ctxSize kind) fun b s =>
      let code := s.openRecord p kind b
      if code ≠ 0 then refuse s code
      else match s.openCtx p kind b with
        | some (id, s) => s.controlDone slot.val id
        | none => refuse s 0x307

/-- The buffers that a context holds. -/
def Ctx.bufs (x : Ctx) : List BufRef := x.dpb.flatMap (fun p => p.frame :: p.map.toList) ++ x.encRefs ++ x.recon.toList

/-- A context closes: its holds and its track contexts go (R326, R408). [DEDUCED, log entry 104] -/
def State.dropCtx (s : State) (id : Nat) : State :=
  match tget s.ctxs id with
  | none => s
  | some x =>
    let s := x.bufs.foldl (fun (s : State) b => s.release b (.ctx id)) s
    { s with ctxs := s.ctxs.filter fun e => e.1 != id && e.2.parent != some id }

/-- Commands that name a context and were fetched before its close (R326). -/
def State.ctxCmds (s : State) (id order : Nat) : Bool := s.cmds.any fun e =>
  e.2.order < order && (e.2.desc.ctxValid && e.2.desc.ctx == id)

/-- CLOSE_CONTEXT (R326, R461): closing while commands of the context are in flight or queued, closed after the last of them. -/
def execCloseContext (slot : Fin 4096) (s : State) : Host.Outcome State Fault Refusal :=
  finish <| s.control slot.val 0x011 fun c s =>
    match tget s.ctxs c.desc.ctx with
    | none => s.controlRefuse slot.val c 0x329 0
    | some x =>
      if x.part != c.desc.part || x.parent.isSome then s.controlRefuse slot.val c 0x329 0
      else if s.ctxCmds c.desc.ctx c.order then { s with ctxs := tput s.ctxs c.desc.ctx { x with closing := some slot.val } }
      else (s.dropCtx c.desc.ctx).controlDone slot.val 0

/-- A write of the delta record reaches its thresh, period or cache key (R249, R255). -/
def deltaHit (off len : Nat) : Bool := [(4, 4), (16, 2), (20, 1)].any fun e => off < 32 + e.1 + e.2 && 32 + e.1 < off + len

/-- WRITE_CONTEXT (R249, R255, R461): only bytes 32 to 63 of a decode context; a write that reaches thresh, period or cache key sets dirty. -/
def execWriteContext (slot : Fin 4096) (s : State) : Host.Outcome State Fault Refusal :=
  finish <| s.control slot.val 0x012 fun c s =>
    let off := c.desc.shape 0
    let len := c.desc.shape 1
    match tget s.ctxs c.desc.ctx with
    | none => s.controlRefuse slot.val c 0x329 0
    | some x =>
      if x.part != c.desc.part || x.parent.isSome || x.kind != 0 || len == 0 || off < 32 || 64 < off + len then s.controlRefuse slot.val c 0x329 0
      else s.withData slot.val c 0 (c.desc.arg 0) len fun b s =>
        let params := deltaClean (x.params.take off ++ b ++ x.params.drop (off + len))
        let x' : Ctx := if deltaHit off len then { x with rewritten := true, params := params.take 53 ++ leBytes 1 (field params 53 1 ||| 2) ++ params.drop 54 }
          else { x with params := params }
        ({ s with ctxs := tput s.ctxs c.desc.ctx x' }).controlDone slot.val 0

/-- READ_CONTEXT (R461): every byte of the record. -/
def execReadContext (slot : Fin 4096) (s : State) : Host.Outcome State Fault Refusal :=
  finish <| s.control slot.val 0x013 fun c s =>
    let off := c.desc.shape 0
    let len := c.desc.shape 1
    match tget s.ctxs c.desc.ctx with
    | none => s.controlRefuse slot.val c 0x329 0
    | some x =>
      if x.part != c.desc.part || x.parent.isSome || len == 0 || ctxSize x.kind < off + len then s.controlRefuse slot.val c 0x329 0
      else
        let b := (x.params.drop off).take len
        let a := argAddr (c.desc.arg 0)
        if argSpace (c.desc.arg 0) = 3 then (s.hostWrite c.desc.part a b).controlDone slot.val 0
        else match s.dramWrite c.desc.part a b with
          | some s => s.controlDone slot.val 0
          | none => s.dataFault slot.val 0xB07 .scheduler 0 a

/-! ### Cut lists (R194, R195, R462) -/

/-- For each instruction the loop that encloses it, innermost, by its LOOP's index; none at the second place where the loops do not pair up or
nest deeper than 6 (checks 8 and 9). -/
def loopScan : List Nat → Nat → List Nat → Option (List (Option Nat))
  | [], _, st => if st.isEmpty then some [] else none
  | w :: ws, n, st =>
    if opOf w = 0x01 then
      if 6 ≤ st.length then none else (loopScan ws (n + 1) (n :: st)).map fun l => st.head? :: l
    else if opOf w = 0x02 then match st with
      | [] => none
      | k :: r => (loopScan ws (n + 1) r).map fun l => some k :: l
    else (loopScan ws (n + 1) st).map fun l => st.head? :: l

/-- Index of the last DIV plus 1: where the boles' part begins. -/
def bodyStart (code : List Nat) : Nat := code.zipIdx.foldl (fun m e => if opOf e.1 = 0x78 then e.2 + 1 else m) 0

/-- Check 6: as many DIVs as the level, `last` in the last one only, and mode 0 lasting once it is taken. -/
def divsOk (level : Nat) (code : List Nat) : Bool :=
  let ds := code.filter fun w => opOf w == 0x78
  ds.length == level && ((ds.zipIdx).all fun e => e.1.testBit 22 == (e.2 + 1 == level)) &&
    ((ds.zip (ds.drop 1)).all fun e => bits e.1 20 2 != 0 || bits e.2 20 2 == 0)

/-- Check 7: only NOP and TALLY with op 0 before and between DIVs, and no DIV in a loop. -/
def prologuesOk (code : List Nat) : Bool :=
  let top := bodyStart code
  (code.take top).all fun w => opOf w == 0x00 || opOf w == 0x78 || (opOf w == 0x48 && bits w 20 2 == 0)

/-- Check 9: where SKIPs land. -/
def skipsOk (code : List Nat) (encl : List (Option Nat)) : Bool :=
  code.zipIdx.all fun (w, n) =>
    if opOf w ≠ 0x40 then true
    else match bits w 25 2 with
      | 0 =>
        let t := n + 1 + bits w 40 16
        t < code.length && encl.getD t none == encl.getD n none
      | 1 => (encl.getD n none).isSome
      | 2 => (encl.getD n none).isSome
      | _ => true

/-- The words of a binary's instructions. -/
def codeWords (b : List Byte) : Nat → List Nat
  | 0 => []
  | n + 1 => field b 0 16 :: codeWords (b.drop 16) n

/-- The registration checks in their order (table Registration checks): the number of the first that fails, or the cut list. -/
def State.registerCheck (s : State) (p : Nat) (b : List Byte) (len : Nat) : Except Nat CutList :=
  let n := field b 8 4
  let code := codeWords (b.drop 192) n
  let level := field b 6 1 % 4
  if field b 0 4 ≠ 0x4C545543 ∨ field b 4 2 ≠ 1 then .error 1
  else if n = 0 ∨ 65536 < n ∨ len ≠ 192 + 16 * n then .error 2
  else if crc32 (b.take 28 ++ List.replicate 4 (0 : Byte) ++ b.drop 32) ≠ field b 28 4 then .error 3
  else if 4 ≤ field b 6 1 ∨ 2 ≤ field b 7 1 ∨ !zeros b 20 4 ∨ !zeros b 26 2 ∨ !zeros b 128 64 ∨ field b 16 4 = 0 ∨ 187500 < field b 16 4 then .error 4
  else if field b 12 4 ≠ 0 ∧ field b 12 4 ≠ s.rd F.idArithSig_sig then .error 5
  else if !divsOk level code then .error 6
  else if !prologuesOk code then .error 7
  else match loopScan code 0 [] with
    | none => .error 8
    | some encl =>
      if !skipsOk code encl then .error 9
      else if opOf (code.getLastD 0) ≠ 0x70 ∨ (code.dropLast.any fun w => opOf w == 0x70) then .error 10
      else if (tfree s.lists 4096).isNone then .error 11
      else .ok { part := p, level := level, usesRandom := (field b 7 1).testBit 0, budget := field b 16 4, zeroMask := field b 24 1, outMask := field b 25 1
                 maxS := (List.range 8).map fun i => field b (32 + 4 * i) 4, aConst := (List.range 8).map fun i => field b (64 + 8 * i) 8
                 check := field b 28 4, code := code, plan := false }

/-- LOAD_CUT_LIST (R194, R195): the handle is the result; the fault record of a refusal carries the number of the failing check. [DESIGN CHOICE, log entry 103; DEDUCED, log entry 104] -/
def execLoadCutList (slot : Fin 4096) (s : State) : Host.Outcome State Fault Refusal :=
  finish <| s.control slot.val 0x020 fun c s =>
    let a := c.desc.arg 0
    let len := c.desc.shape 0
    if argSpace a ≠ 0 ∨ argAddr a % 64 ≠ 0 then s.controlRefuse slot.val c 0x324 0
    else s.withData slot.val c 0 a (min len (192 + 16 * 65536 + 1)) fun b s =>
      match s.registerCheck c.desc.part b len with
      | .error k => s.refuseCmd slot.val 0x602 k
      | .ok l => match tfree s.lists 4096 with
        | some h => ({ s with lists := tput s.lists h l }).controlDone slot.val h
        | none => s.refuseCmd slot.val 0x602 11

/-- UNLOAD_CUT_LIST (R462): waits until no command that names the cut list is in flight. -/
def execUnloadCutList (slot : Fin 4096) (s : State) : Host.Outcome State Fault Refusal :=
  finish <| s.control slot.val 0x021 fun c s =>
    let h := c.desc.shape 0
    match tget s.lists h with
    | none => s.refuseCmd slot.val 0x609 h
    | some l =>
      if l.part != c.desc.part then s.refuseCmd slot.val 0x609 h
      else if s.cmds.any fun e => e.2.desc.cls == 1 && e.2.desc.op == h && (e.2.inFlight || e.2.phase == .killed) then s
      else ({ s with lists := tdel s.lists h }).controlDone slot.val 0

/-! ### Dictionaries (R359, R462) -/

/-- One dictionary entry: string offset, length, initial flag, token ID. -/
structure DictEnt where
  off : Nat
  len : Nat
  init : Bool
  id : Nat
  deriving DecidableEq, Repr

/-- Entry n of an image. -/
def dictEnt (b : List Byte) (n : Nat) : DictEnt :=
  let o := 64 + 16 * n
  ⟨field b o 4, field b (o + 4) 1, (field b (o + 5) 1).testBit 0, field b (o + 8) 4⟩

/-- String of an entry. -/
def dictStr (b : List Byte) (e : DictEnt) : List Byte := ((b.drop (64 + 16 * field b 8 4 + e.off)).take e.len)

/-- An image passes the checks of R359; the reserved parts of its header and entries are 0. [DEDUCED, log entry 104] -/
def dictOk (b : List Byte) : Bool :=
  let n := field b 8 4
  let size := field b 24 4
  let es := (List.range n).map (dictEnt b)
  field b 0 4 == 0x54444B54 && field b 4 2 == 1 && 1 ≤ field b 6 1 && field b 6 1 ≤ 64 && field b 7 1 == 0 && 1 ≤ n && n ≤ 262144 && zeros b 32 32 &&
    b.length == 64 + 16 * n + size && crc32c (b.take 28 ++ List.replicate 4 (0 : Byte) ++ b.drop 32) == field b 28 4 &&
    ((List.range n).all fun i => let o := 64 + 16 * i
      field b (o + 5) 1 < 2 && zeros b (o + 6) 2 && zeros b (o + 12) 4) &&
    (es.all fun e => 1 ≤ e.len && e.len ≤ field b 6 1 && e.off + e.len ≤ size) &&
    ((List.range n).all fun i => (List.range i).all fun j =>
      let x := dictEnt b i; let y := dictEnt b j
      !(x.init == y.init && dictStr b x == dictStr b y))

/-- Records the last code of the tokenizer registers (R367). -/
def State.tkLast (s : State) (code : Nat) : State := (s.wr F.tkLast_code code).wr F.tkLast_valid 1

/-- LOAD_DICTIONARY (R359): the handle is the result; the module holds at most 16. [DEDUCED, log entry 104] -/
def execLoadDictionary (slot : Fin 4096) (s : State) : Host.Outcome State Fault Refusal :=
  finish <| s.control slot.val 0x022 fun c s =>
    s.withData slot.val c 0 (c.desc.arg 0) (c.desc.shape 0) fun b s =>
      match tfree s.dicts 16 with
      | some h => if dictOk b then ({ s with dicts := tput s.dicts h ⟨some c.desc.part, b⟩ }).controlDone slot.val h
        else (s.tkLast 0xA04).refuseCmd slot.val 0xA04
      | none => (s.tkLast 0xA04).refuseCmd slot.val 0xA04

/-- UNLOAD_DICTIONARY (R462): a dictionary of the plan cannot be unloaded; the unload waits for the commands of its sessions. -/
def execUnloadDictionary (slot : Fin 4096) (s : State) : Host.Outcome State Fault Refusal :=
  finish <| s.control slot.val 0x023 fun c s =>
    let h := c.desc.shape 0
    match tget s.dicts h with
    | none => s.controlRefuse slot.val c 0x329 h
    | some d =>
      let names (e : Nat × Cmd) : Bool := e.2.desc.cls == 6 && (e.2.inFlight || e.2.phase == .killed) && match tget s.ctxs e.2.desc.ctx with
        | some x => field x.params 0 1 == h
        | none => false
      if d.part != some c.desc.part then s.controlRefuse slot.val c 0x329 h
      else if s.cmds.any names then s
      else ({ s with dicts := tdel s.dicts h }).controlDone slot.val 0

end Sys2Proof.Machine
end

