-- ==== Sys2Proof/Machine/Decks.lean ====
section
/-! DEFINITION. The rows of the buffer decks: initialisation, waiters, returns, reclaims and ring rebuilds (13). -/

namespace Sys2Proof.Machine

/-- Runs of the indices below `n` that a rising list leaves out, from index `i` on. [DEDUCED, log entry 95] -/
def gaps : Nat → Nat → List Nat → List (Nat × Nat)
  | i, n, [] => if i < n then [(i, n - i)] else []
  | i, n, k :: l => if i < min k n then (i, min k n - i) :: gaps (k + 1) n l else gaps (k + 1) n l

/-- Every enabled deck is ready (R413). -/
def State.decksReady (s : State) : State :=
  s.wrB F.dkGStat_ready ((List.range 64).all fun d => !s.deckOn d || s.rdB (F.dkStat_ready.at (dkBase d)))

/-- A deck's initialisation ends (R397): its ring holds every index in increasing order, nothing is allocated, and it is ready. -/
def execDeckInitComplete (d : Fin 64) (s : State) : Host.Outcome State Fault Refusal :=
  let d := d.val
  let b := dkBase d
  finish <|
    if !s.deckOn d || s.rdB (F.dkStat_ready.at b) then s
    else
      let n := s.rd (F.dkCount_count.at b)
      let resv := s.rd (F.dkResv_resv.at b)
      let k : Deck := { Deck.new with ring := [(0, n)], resvFree := resv, waiters := (s.deck d).waiters }
      let s := ((s.setDeck d k).refillDeck d).wr (F.dkStat_ready.at b) 1
      ((s.wr (F.dkMinFree_low.at b) (n - resv)).wr (F.dkStat_level.at b) 0).decksReady

/-- The first waiter of a deck is served (R404): its command's allocation is made again; where it still has to wait it stays. [DEDUCED, log entry 95] -/
def execDeckWaiterServed (d : Fin 64) (s : State) : Host.Outcome State Fault Refusal :=
  let k := s.deck d.val
  finish <| match (k.waiters.mergeSort fun a b => a.before b).head? with
    | none => s
    | some w =>
      let s := s.setDeck d.val { k with waiters := k.waiters.filter fun x => x.slot != w.slot }
      let s := s.modCmd w.slot fun c => { c with waitDeck := none }
      match tget s.cmds w.slot with
      | some c => if c.desc.cls == 1 then s.computeCommand w.slot else s
      | none => s

/-- A write of DK_RETURN_HI (R407): the driver returns one host hold. -/
def execDkReturn (fn : Fin 16) (v : Word) (s : State) : Host.Outcome State Fault Refusal :=
  finish (s.driverReturn fn.val ((s.reg (fn.val * fnStride + 0x40020)).toNat + bits v.toNat 0 16 * 2 ^ 32))

/-- A hold that a reclaim may release: one of a command that has its slot stays (R410). -/
def State.reclaimable (s : State) : Holder → Bool
  | .cmd slot => (tget s.cmds slot).isNone
  | _ => true

/-- A write of DK_RECLAIM by the physical function (R410). [DEDUCED, log entry 95] -/
def execDkReclaim (fn : Fin 16) (v : Word) (s : State) : Host.Outcome State Fault Refusal :=
  finish <|
    if fn.val ≠ 0 then s
    else
      let p := bits v.toNat 0 4
      let (s, _) := s.reclaim p (fun k => v.toNat.testBit (4 + k)) s.reclaimable
      s.logPart 0xC08 p .deck

/-- A write of DK_MIN_FREE (R413): with rearm the low mark takes the available count. -/
def execDkMinFreeRearm (d : Fin 64) (v : Word) (s : State) : Host.Outcome State Fault Refusal :=
  finish (if v.toNat.testBit 31 then s.wr (F.dkMinFree_low.at (dkBase d.val)) (s.deck d.val).available else s)

/-- A ring's rebuild from the bitmap ends (R411). [DEDUCED, log entry 95] -/
def execDeckRingRebuildComplete (d : Fin 64) (s : State) : Host.Outcome State Fault Refusal :=
  let d := d.val
  let b := dkBase d
  finish <|
    if !s.rdB (F.dkStat_rebuilding.at b) then s
    else
      let k := s.deck d
      let used := (tkeys k.owners ++ k.cache).mergeSort
      (s.setDeck d { k with ring := gaps 0 (s.rd (F.dkCount_count.at b)) used }).wr (F.dkStat_rebuilding.at b) 0

end Sys2Proof.Machine
end

