-- ==== Sys2Proof/Machine/Dram.lean ====
section
/-! DEFINITION. The DRAM controller: the Reed–Solomon code, reads and writes of bursts, the page predictor, refresh, training, power states,
patrol scrub and row repair (12). -/

namespace Sys2Proof.Machine

/-! ### The code (R370, R371) -/

/-- Multiplication by α in GF(2^16) with the polynomial of R370. -/
def gfX (v : Nat) : Nat := if v.testBit 15 then (2 * v) ^^^ 0x1100B else 2 * v

/-- Multiplication by α^n. -/
def gfPow : Nat → Nat → Nat
  | 0, v => v
  | n + 1, v => gfPow n (gfX v)

/-- Syndrome j of a codeword with an error pattern: pairs of position and symbol error (the codeword itself contributes nothing). -/
def syndrome (j : Nat) (e : List (Nat × Nat)) : Nat := e.foldl (fun x (i, v) => x ^^^ gfPow (i * j) (v % 65536)) 0

/-- What decoding makes of a burst (R371). -/
inductive Ecc where
  | good
  /-- A single error at a stored position. -/
  | corrected (pos : Nat)
  /-- A single error at a virtual position. -/
  | moved
  | bad
  deriving DecidableEq, Repr

/-- Decodes a codeword of `n` positions from its error pattern. -/
def eccOf (n : Nat) (e : List (Nat × Nat)) : Ecc :=
  let s0 := syndrome 0 e; let s1 := syndrome 1 e; let s2 := syndrome 2 e; let s3 := syndrome 3 e
  if s0 = 0 ∧ s1 = 0 ∧ s2 = 0 ∧ s3 = 0 then .good
  else if s0 = 0 then .bad
  else match (List.range n).find? fun i => gfPow i s0 = s1 ∧ gfPow i s1 = s2 ∧ gfPow i s2 = s3 with
    | some i => if 4 ≤ i ∧ i ≤ 6 then .moved else .corrected i
    | none => .bad

/-- Positions of a data burst's codeword and of a check burst's (R370). -/
def codeLen (check : Bool) : Nat := if check then 35 else 39

/-- Did the decoder leave errors behind that it could not see? (R371 gives no guarantee for four or more wrong symbols.) [DESIGN CHOICE, log entry 96] -/
def miscorrected (e : List (Nat × Nat)) : Bool := 4 ≤ (e.filter fun x => x.2 % 65536 != 0).length

/-- Device that carries a codeword symbol: bytes 0–1 of each beat lie on device 0 and bytes 2–3 on device 1 (R368). -/
def symDevice (pos : Nat) : Nat := if pos < 4 then pos % 2 else (pos - 7) % 2

/-! ### Pages, refresh draws and power states -/

/-- Rank row of a physical burst, with its bank group, bank and rank: bits 27 to 6 (R369). -/
def rankRow (p : Nat) : Nat := p / 64

/-- Bank of a physical burst: bank group, bank and rank (R369). -/
def bankOf (p : Nat) : Nat := bits p 6 5

/-- Rank of a physical burst (R369). -/
def rankOf (p : Nat) : Nat := bits p 10 1

/-- Row of a physical burst (R369). -/
def rowOf (p : Nat) : Nat := bits p 11 17

/-- The channel block's base of a subchannel. -/
def chBase (sc : Nat) : Nat := 0x50000 + 0x1000 * (sc / 2)

/-- Is rank r of subchannel sc in power-down (R388)? -/
def State.inPd (s : State) (sc r : Nat) : Bool := (s.rd (F.drChStat_pd.at (chBase sc))).testBit (2 * (sc % 2) + r)

/-- Sets or clears the power-down bit of a rank. -/
def State.setPd (s : State) (sc r : Nat) (b : Bool) : State :=
  s.wr (F.drChStat_pd.at (chBase sc)) (setBits (s.rd (F.drChStat_pd.at (chBase sc))) (2 * (sc % 2) + r) 1 (b2n b))

/-- Is subchannel sc in self-refresh (R388)? -/
def State.inSr (s : State) (sc : Nat) : Bool := (s.rd (F.drChStat_sr.at (chBase sc))).testBit (sc % 2)

/-- Sets or clears the self-refresh bit of a subchannel. -/
def State.setSr (s : State) (sc : Nat) (b : Bool) : State :=
  s.wr (F.drChStat_sr.at (chBase sc)) (setBits (s.rd (F.drChStat_sr.at (chBase sc))) (sc % 2) 1 (b2n b))

/-- State of a subchannel: 0 untrained, 1 training, 2 ready, 3 failed (R393). -/
def State.scState (s : State) (sc : Nat) : Nat :=
  if sc % 2 = 0 then s.rd (F.drChStat_stateA.at (chBase sc)) else s.rd (F.drChStat_stateB.at (chBase sc))

/-- Sets the state of a subchannel. -/
def State.setScState (s : State) (sc v : Nat) : State :=
  if sc % 2 = 0 then s.wr (F.drChStat_stateA.at (chBase sc)) v else s.wr (F.drChStat_stateB.at (chBase sc)) v

/-- A bank before its first request: counter 0, open mode, no row open (R380). -/
def PageBank.new : PageBank := ⟨0, false, none, 0⟩

/-- What a request for a row makes of its bank, and whether it activates a row (R380). [DESIGN CHOICE, log entry 99] -/
def PageBank.access (b : PageBank) (predict : Bool) (row : Nat) : PageBank × Bool :=
  if b.closeMode && predict then
    let c := if row = b.lastRow then b.c - 1 else 3
    if c = 0 then (⟨0, false, some row, row⟩, true) else (⟨c, true, none, row⟩, true)
  else match b.openRow with
    | none => (⟨b.c, false, some row, row⟩, true)
    | some r =>
      if r = row then (⟨0, false, some row, row⟩, false)
      else if b.c = 3 && predict then (⟨3, true, none, row⟩, true)
      else (⟨min 3 (b.c + 1), false, some row, row⟩, true)

/-- Rows at distance 1 and 2 that exist (R382). -/
def neighbours (row : Nat) : Nat := ([row + 1, row + 2].filter (· < 131072)).length + min row 2

/-- What every activate brings: the count, and the draws of R382 and R383. [DESIGN CHOICE, log entry 98] -/
def State.activate (s : State) (sc row : Nat) : State :=
  let b := scBase sc
  let s := s.inc2 (F.drScActLo_act.at b) (F.drScActHi_act.at b) 1
  let k := max 6 (min 12 (s.rd F.drGRh_k))
  let (d, s) := s.draw
  let s := if Config.rowDraw d k then s.inc (F.drScRh_nbr.at b) (neighbours row) else s
  if s.rdB F.drGRh_rfmEn && Config.rfmDraw d then s.inc (F.drScRh_rfm.at b) 1 else s

/-- A request for a physical burst: it wakes its rank, and its bank follows R380. -/
def State.touch (s : State) (sc p : Nat) : State :=
  let s := s.setPd sc (rankOf p) false
  let c := s.subch sc
  let (b, act) := (tgetD c.banks (bankOf p) PageBank.new).access (s.rdB F.drGPage_predictEn) (rowOf p)
  let s := s.setSubch sc { c with banks := tput c.banks (bankOf p) b, lastReq := tput c.lastReq (rankOf p) s.now }
  if act then s.activate sc (rowOf p) else s

/-- A rank has had no request for a number of ns (R388); patrol scrub counts as one. -/
def State.idleFor (s : State) (sc r ns : Nat) : Bool := match tget (s.subch sc).lastReq r with
  | some t => ns ≤ s.nsSince t
  | none => true

/-- Precharges the banks that a test selects. -/
def State.closeRows (s : State) (sc : Nat) (sel : Nat → Bool) : State :=
  let c := s.subch sc
  s.setSubch sc { c with banks := c.banks.map fun e => (e.1, if sel e.1 then { e.2 with openRow := none } else e.2) }

/-- A subchannel leaves self-refresh and checks its DQS oscillator before it serves (R388). -/
def State.srExit (s : State) (sc : Nat) (drift : Bool) : State :=
  let s := s.setSr sc false
  if drift then
    let c := s.subch sc
    s.setSubch sc { c with due := true, dueAt := if c.due then c.dueAt else s.now }
  else s

/-! ### Errors -/

/-- Records the last error of a subchannel (R393). -/
def State.scLast (s : State) (sc p device code : Nat) : State :=
  let b := scBase sc
  (((s.wr (F.drScLastLo_burst.at b) p).wr (F.drScLastLo_device.at b) device).wr (F.drScLastHi_code.at b) code).wr (F.drScLastHi_valid.at b) 1

/-- Puts a row in line for repair, unless repair is off or the row waits already (R392). -/
def State.repairLine (s : State) (sc row dev : Nat) : State :=
  let c := s.subch sc
  if !s.rdB F.drGPpr_en || c.repairDue.contains (row * 2 + dev) then s
  else s.setSubch sc { c with repairDue := c.repairDue ++ [row * 2 + dev] }

/-- A corrected burst (R371, R392): counted, logged, written back; the errors of its row and device count towards a repair. A burst that the
decoder miscorrected is written back with contents that no rule gives. -/
def State.eccCorrected (s : State) (sc p a pos : Nat) (wrong : Bool) : State :=
  let b := scBase sc
  let dev := symDevice pos
  let s := (s.inc (F.drScCe_ce.at b) 1).scLast sc p dev 0xB01
  let s := s.log 0xB01 .subchannel sc p
  let s := if wrong then s.dramForget a (a + 64) else s
  let c := s.subch sc
  let k := rankRow p * 2 + dev
  let n := tgetD c.rowErr k 0 + 1
  let s := s.setSubch sc { c with rowErr := tput c.rowErr k n }
  if s.rd F.drGPpr_thresh ≤ n then s.repairLine sc (rankRow p) dev else s

/-- Starts a retraining, if none runs on the module (R386). -/
def State.startRetrain (s : State) (sc : Nat) : State :=
  if (List.range 32).any fun k => (s.subch k).retraining then s
  else
    let c := s.subch sc
    (s.setSubch sc { c with retraining := true, urgent := false }).wr (F.drChStat_retraining.at (chBase sc)) 1

/-- The subchannel is retrained at once (R371, R387). -/
def State.retrainNow (s : State) (sc : Nat) : State :=
  let c := s.subch sc
  (s.setSubch sc { c with due := true, urgent := true, dueAt := if c.due then c.dueAt else s.now }).startRetrain sc

/-- The retraining that a burst from the wrong place brings: the spare activation of a contained fault (R371, R557, R562). -/
def State.retrainFault (s : State) (sc : Nat) : State :=
  ((s.setSubch sc { s.subch sc with recovers := true }).wr F.ftStat_recovering 1).retrainNow sc

/-- Enters a burst in the poison list, with POISON_LIST_FULL where there is no room (R391); its row is due for repair (R392). -/
def State.listBurst (s : State) (sc p : Nat) : State :=
  let (s, ok) := s.poisonAdd sc p
  let s := if ok then s else s.log 0xB0B .subchannel sc p
  if ok then (s.repairLine sc (rankRow p) 0).repairLine sc (rankRow p) 1 else s

/-- Bookkeeping area of a deck that a data address lies in, and whether in its free ring (R395). -/
def State.bookAt (s : State) (a : Nat) : Option (Nat × Bool) :=
  (List.range 64).findSome? fun d =>
    if s.deckOn d then
      let b := s.rd (F.dkBookLo_book.at (dkBase d)) + s.rd (F.dkBookHi_book.at (dkBase d)) * 2 ^ 32
      let n := s.rd (F.dkCount_count.at (dkBase d))
      let size := 8 * n + cdiv (cdiv n 8) 64 * 64
      if b ≤ a && a < b + size then some (d, a < b + 4 * n) else none
    else none

/-- An uncorrectable read of a deck's bookkeeping: the ring is rebuilt (R411); the bitmap and the owner table fail the deck, and every partition
with a buffer in it becomes partition-fatal (R412). -/
def State.bookFault (s : State) (d : Nat) (ring : Bool) : State :=
  if ring then s.wr (F.dkStat_rebuilding.at (dkBase d)) 1
  else
    let ps := ((s.deck d).owners.map fun o => o.2.part).eraseDups
    let s := s.wr (F.dkStat_failed.at (dkBase d)) 1
    if ps.isEmpty then s.log 0xC0C .deck d else ps.foldl (fun (s : State) p => s.partitionFatal p 0xC0C .deck d) s

/-- Reports an uncorrectable read to whoever made it (R286, R372, R411, R412, R422). [DEDUCED, log entry 97] -/
def State.ueReport (s : State) (src : MemSrc) (sc a : Nat) : State :=
  match src with
  | .cmd slot => match tget s.cmds slot.val with
    | some c => if c.phase == .suspended then s.containedKill slot.val 0x30A .subchannel sc a else s.dataFault slot.val 0xB02 .subchannel sc a
    | none => s
  | .part p => s.logFault { mkFault 0xB02 .subchannel sc a with cls := .refused, part := some p.val }
  | .module =>
    let s := s.log 0xB02 .subchannel sc a
    match s.bookAt a with
    | some (d, ring) => s.bookFault d ring
    | none => s

/-- An uncorrectable read (R372): counted, entered in the poison list, reported. -/
def State.uncorrectable (s : State) (src : MemSrc) (sc p a : Nat) : State :=
  let s := (s.inc (F.drScUe_ue.at (scBase sc)) 1).scLast sc p 0 0xB02
  (s.listBurst sc p).ueReport src sc a

/-- Key under which a reader's address checks are remembered: its slot, or 4,096 for any other source. [DEDUCED, log entry 97] -/
def srcKey : MemSrc → Nat
  | .cmd slot => slot.val
  | _ => 4096

/-- A burst read from the wrong place (R371): the reading command is killed and re-run, and the subchannel is retrained at once; a second time at
the same burst it counts as uncorrectable. [DEDUCED, log entry 97] -/
def State.addrCheck (s : State) (src : MemSrc) (sc p a : Nat) : State :=
  let k := (srcKey src, sc * 2 ^ 28 + p)
  let s := (s.inc (F.drScUe_addr.at (scBase sc)) 1).scLast sc p 0 0xB03
  if s.dram.addrChk.contains k then
    { s with dram := { s.dram with addrChk := s.dram.addrChk.filter (· != k) } }.uncorrectable src sc p a
  else
    let s := { s with dram := { s.dram with addrChk := s.dram.addrChk ++ [k] } }
    let s := match src with
      | .cmd slot => s.containedKill slot.val 0xB03 .subchannel sc p
      | .part q => s.logFault { mkFault 0xB03 .subchannel sc p with part := some q.val }
      | .module => s.log 0xB03 .subchannel sc p
    s.retrainFault sc

/-- Decodes a burst that was read: first read, and the second read that an uncorrectable first one brings (R371, R372). [DESIGN CHOICE, log entry 96] -/
def State.decodeBurst (s : State) (src : MemSrc) (sc p a : Nat) (check : Bool) (e1 e2 : List (Nat × Nat)) : State :=
  if (s.subch sc).poison.contains p then s.uncorrectable src sc p a
  else match eccOf (codeLen check) e1 with
    | .good => s
    | .corrected pos => s.eccCorrected sc p a pos (miscorrected e1)
    | .moved => s.addrCheck src sc p a
    | .bad => match eccOf (codeLen check) e2 with
      | .good => ((s.inc (F.drScCe_ce.at (scBase sc)) 1).scLast sc p 0 0xB01).log 0xB01 .subchannel sc p
      | .corrected pos => s.eccCorrected sc p a pos (miscorrected e2)
      | .moved => s.addrCheck src sc p a
      | .bad => s.uncorrectable src sc p a

/-- Brings a group's check burst to the front of the check cache (R373); answers whether it was there. An evicted check burst is written whole,
and leaves the poison list. [DESIGN CHOICE, log entry 96] -/
def State.checkLine (s : State) (sc g : Nat) : Bool × State :=
  let c := s.subch sc
  let hit := c.cache.contains g
  let line := g :: c.cache.filter (· != g)
  let out := (line.drop 64).map fun k => 8 * k + 7
  let poison := c.poison.filter fun p => !out.contains p
  let s := s.setSubch sc { c with cache := line.take 64, poison := poison }
  (hit, if poison.length = c.poison.length then s else s.wr (F.drScPoison_entries.at (scBase sc)) poison.length)

/-- Partition under which a source makes its requests; none where its command is gone. -/
def State.srcPart (s : State) : MemSrc → Option Nat
  | .cmd slot => (tget s.cmds slot.val).map fun c => c.desc.part
  | .part p => some p.val
  | .module => some moduleKey

/-- A request that R375 or R376 refuses. -/
def State.denied (s : State) (src : MemSrc) (a : Nat) : State :=
  match src with
  | .cmd slot => s.dataFault slot.val 0xB07 .scheduler 0 a
  | .part p => s.logFault { mkFault 0xB07 .function p.val a with cls := .refused, part := some p.val }
  | .module => s.log 0xB07 .scheduler 0 a

/-- The subchannel can serve a request now: the clocks run and no retraining holds it (R70, R386, R388). -/
def State.serves (s : State) (sc : Nat) : Bool := !s.dram.srAll && !(s.subch sc).retraining && s.scState sc == 2

/-- The DRAM traffic of a source: the module's own adds its bytes to the energy that no attempt carries (R298), any other is charged to its command. -/
def State.traffic (s : State) (src : MemSrc) (n : Nat) : State := if src == .module then s.untagged [(0, n)] else s

/-- A read of the burst of data address `a` by a source, with the errors that its first and a second read show; `chk` says that they are those of
the group's check burst, which is read where the check cache misses (R371 to R373). A subchannel in self-refresh wakes first; a request that
has to wait leaves the state as it is. [DESIGN CHOICE, log entry 11] -/
def execDramRead (src : MemSrc) (a : Nat) (chk : Bool) (e1 e2 : List (Nat × Nat)) (s : State) : Host.Outcome State Fault Refusal :=
  finish <| match s.srcPart src with
    | none => s
    | some part =>
      if !s.dramOk part a then s.denied src a
      else
        let (sc, p) := dramMap a
        if !s.serves sc then s
        else
          let s := ((if s.inSr sc then s.srExit sc false else s)).touch sc p
          let s := s.traffic src 64
          let (hit, s) := s.checkLine sc (p / 8)
          if chk then (if hit then s else s.decodeBurst src sc (p / 8 * 8 + 7) a true e1 e2) else s.decodeBurst src sc p a false e1 e2

/-- A write of bytes inside the burst of data address `a` (R378): refused, or placed in the write queue, from where every later read sees it; the
check cache line of its group is updated with it (R373), and a burst written whole leaves its poison list (R391). [DESIGN CHOICE, log entry 11] -/
def execDramWrite (src : MemSrc) (a : Nat) (data : List Byte) (s : State) : Host.Outcome State Fault Refusal :=
  finish <| match s.srcPart src with
    | none => s
    | some part =>
      let data := data.take (64 - a % 64)
      if !s.dramOk part a then s.denied src a
      else
        let (sc, p) := dramMap a
        if !s.serves sc then s
        else
          let s := ((if s.inSr sc then s.srExit sc false else s)).touch sc p
          let s := s.traffic src data.length
          (s.checkLine sc (p / 8)).2.dramPut a data

/-! ### Refresh and temperature -/

/-- Same-bank refresh of one bank number of a rank (R381): its rows close, and a rank in power-down wakes (R389). A subchannel in self-refresh
refreshes itself. -/
def execBankRefresh (sc : Fin 32) (rank : Fin 2) (bank : Fin 4) (s : State) : Host.Outcome State Fault Refusal :=
  finish <|
    if s.inSr sc.val || s.dram.srAll then s
    else (s.setPd sc.val rank.val false).closeRows sc.val fun b => bits b 4 1 == rank.val && bits b 2 2 == bank.val

/-- The hottest device of a subchannel reports its temperature (R381): above 85 °C the refresh interval halves. [DESIGN CHOICE, log entry 99] -/
def execDramTempReport (sc : Fin 32) (temp : Fin 256) (s : State) : Host.Outcome State Fault Refusal :=
  let b := scBase sc.val
  let was := s.rdB (F.drScTemp_hot.at b)
  let hot : Bool := 85 < temp.val
  let s := (s.wr (F.drScTemp_temp.at b) temp.val).wrB (F.drScTemp_hot.at b) hot
  finish (if hot && !was then s.log 0xB0D .subchannel sc.val temp.val else s)

/-! ### Training and retraining (R386, R387) -/

/-- The DQS oscillator of a subchannel has drifted, or its temperature has moved by temp_delta since it was trained (R386). -/
def execRetrainDue (sc : Fin 32) (drift : Bool) (s : State) : Host.Outcome State Fault Refusal :=
  let c := s.subch sc.val
  let t := s.rd (F.drScTemp_temp.at (scBase sc.val))
  let moved : Bool := s.rd F.drGRetrain_tempDelta ≤ max t c.trainTemp - min t c.trainTemp
  finish (if (drift || moved) && !c.due then s.setSubch sc.val { c with due := true, dueAt := s.now } else s)

/-- The timeline stands in the gap of DR_G_GAP (R386). [DESIGN CHOICE, log entry 99] -/
def State.inGap (s : State) : Bool := s.rd F.drGGap_gapStart ≤ stLine s.now && stLine s.now < s.rd F.drGGap_gapEnd

/-- A due retraining starts in the timeline gap; it waits while its subchannel is in self-refresh (R386, R388). -/
def execRetrainStart (sc : Fin 32) (s : State) : Host.Outcome State Fault Refusal :=
  let c := s.subch sc.val
  finish (if c.due && !c.retraining && s.inGap && !s.inSr sc.val && !s.dram.srAll then s.startRetrain sc.val else s)

/-- With no gap within max_wait ms, the retraining runs at the frame start (R386). -/
def execRetrainForced (sc : Fin 32) (s : State) : Host.Outcome State Fault Refusal :=
  let c := s.subch sc.val
  finish <|
    if c.due && !c.retraining && stLine s.now == 0 && s.rd F.drGRetrain_maxWait * 1000000 ≤ s.nsSince c.dueAt && !s.inSr sc.val && !s.dram.srAll &&
        !((List.range 32).any fun k => (s.subch k).retraining) then
      ((s.startRetrain sc.val).inc (F.drScTrain_forced.at (scBase sc.val)) 1).log 0xB05 .subchannel sc.val
    else s

/-- The next retraining that is to run at once starts when one has ended (R371, R386, R387). [DESIGN CHOICE, log entry 99] -/
def State.nextUrgent (s : State) : State :=
  match (List.range 32).find? fun k => (s.subch k).urgent with
  | some k => s.startRetrain k
  | none => s

/-- A retraining ends, or fails and the subchannel is trained in full at once, or that fails too: RETRAIN_FAIL, device-fatal (R386). -/
def execRetrainComplete (sc : Fin 32) (ok : Bool) (s : State) : Host.Outcome State Fault Refusal :=
  let c := s.subch sc.val
  let b := chBase sc.val
  finish <|
    if !c.retraining then s
    else if ok then
      let s := s.setSubch sc.val { c with retraining := false, recovers := false, due := false, trainTemp := s.rd (F.drScTemp_temp.at (scBase sc.val)) }
      (((s.setScState sc.val 2).wr (F.drChStat_retraining.at b) 0).inc (F.drScTrain_done.at (scBase sc.val)) 1).nextUrgent.recheckRecovering
    else if s.scState sc.val = 1 then
      (((s.setSubch sc.val { c with retraining := false }).setScState sc.val 3).wr (F.drChStat_retraining.at b) 0).deviceStop 0xB06 .subchannel sc.val
    else s.setScState sc.val 1

/-- A device signals a write CRC error (R387): the writes are resent, `fails` of the resends fail too, and after the fourth the subchannel is
retrained at once. -/
def execWriteCrcError (sc : Fin 32) (fails : Fin 5) (s : State) : Host.Outcome State Fault Refusal :=
  let s := s.log 0xB0C .subchannel sc.val
  finish (if fails.val = 4 then s.retrainNow sc.val else s)

/-! ### Power states (R388, R389) -/

/-- A rank without a request for pd_idle enters power-down; its rows close (R380, R388). -/
def execPowerDownEntry (sc : Fin 32) (rank : Fin 2) (s : State) : Host.Outcome State Fault Refusal :=
  finish <|
    if s.inSr sc.val || (s.subch sc.val).retraining || !s.idleFor sc.val rank.val (s.rd F.drGPd_pdIdle) then s
    else (s.setPd sc.val rank.val true).closeRows sc.val fun b => bits b 4 1 == rank.val

/-- A subchannel without a request for sr_idle enters self-refresh; 0 turns this off (R388). -/
def execSelfRefreshEntry (sc : Fin 32) (s : State) : Host.Outcome State Fault Refusal :=
  finish <|
    let ns := 1000 * s.rd F.drGPd_srIdle
    if ns = 0 || (s.subch sc.val).retraining || !s.idleFor sc.val 0 ns || !s.idleFor sc.val 1 ns then s
    else (((s.setPd sc.val 0 false).setPd sc.val 1 false).setSr sc.val true).closeRows sc.val fun _ => true

/-- A subchannel leaves self-refresh and checks its DQS oscillator (R388). -/
def execSelfRefreshExit (sc : Fin 32) (drift : Bool) (s : State) : Host.Outcome State Fault Refusal :=
  finish (if s.inSr sc.val && !s.dram.srAll then s.srExit sc.val drift else s)

/-! ### Scrub and repair -/

/-- Bursts of the module, 2^28 of each subchannel (R369). -/
def allBursts : Nat := 32 * 2 ^ 28

/-- Patrol scrub lets a rank in power-down or self-refresh sleep for up to 1 ms more (R389). -/
def State.scrubSleeps (s : State) (sc p : Nat) : Bool :=
  (s.inPd sc (rankOf p) || s.inSr sc) && match s.dram.scrubWait with
    | some t => decide (s.nsSince t < 1000000)
    | none => true

/-- Patrol scrub reads the next burst of its pass, with the errors that its reads show (R389, R390): it corrects under R371, and a burst found
uncorrectable is listed. DR_G_STAT.scrub_busy is a view of en and mem_ready. [DESIGN CHOICE, log entry 99] -/
def execPatrolScrubRead (e1 e2 : List (Nat × Nat)) (s : State) : Host.Outcome State Fault Refusal :=
  let n := s.dram.scrubPos
  let sc := n / 2 ^ 28
  let p := n % 2 ^ 28
  let check := p % 8 = 7
  finish <|
    if !s.rdB F.drGScrub_en || !s.rdB F.drGStat_memReady || !s.serves sc then s
    else if s.scrubSleeps sc p then { s with dram := { s.dram with scrubWait := some (s.dram.scrubWait.getD s.now) } }
    else
      let s := { s with dram := { s.dram with scrubWait := none } }
      let s := ((if s.inSr sc then s.srExit sc false else s).touch sc p).untagged [(0, 64)]
      let bad (s : State) : State :=
        ((s.inc (F.drScUe_ue.at (scBase sc)) 1).scLast sc p 0 0xB0A |>.listBurst sc p).log 0xB0A .subchannel sc p
      let a := (dramUnmap sc p).getD dramSize
      let wrong (e : List (Nat × Nat)) : Bool := miscorrected e && a < dramSize
      let s :=
        if (s.subch sc).poison.contains p then s
        else match eccOf (codeLen check) e1 with
          | .good => s
          | .corrected pos => s.eccCorrected sc p a pos (wrong e1)
          | .moved =>
            let k := ((4097 : Nat), sc * 2 ^ 28 + p)
            if s.dram.addrChk.contains k then { s with dram := { s.dram with addrChk := s.dram.addrChk.filter (· != k) } } |> bad
            else
              let s := (s.inc (F.drScUe_addr.at (scBase sc)) 1).scLast sc p 0 0xB03
              ({ s with dram := { s.dram with addrChk := s.dram.addrChk ++ [k] } }.log 0xB03 .subchannel sc p).retrainFault sc
          | .bad => match eccOf (codeLen check) e2 with
            | .good => ((s.inc (F.drScCe_ce.at (scBase sc)) 1).scLast sc p 0 0xB01).log 0xB01 .subchannel sc p
            | .corrected pos => s.eccCorrected sc p a pos (wrong e2)
            | _ => bad s
      if n + 1 < allBursts then
        { s with dram := { s.dram with scrubPos := n + 1 } }.wr F.drGScrubPos_progress ((n + 1) / 2)
      else
        let s := { s with dram := { s.dram with scrubPos := 0, sub := tmap s.dram.sub fun (c : SubCh) => { c with rowErr := [] } } }
        (s.wr F.drGScrubPos_progress 0).inc F.drGScrub_passes 1

/-- Bit of DR_SC_PPR of the spare row of a rank row's rank and bank group, and a device (R393). -/
def spareBit (row dev : Nat) : Nat := 8 * bits row 4 1 + 4 * dev + bits row 0 2

/-- A service request ends (R568 to R570): busy clears, the result stands, and SERVICE_CHANGE is logged. [DEDUCED, log entry 61] -/
def State.svcDone (s : State) (result : Nat) : State :=
  (((s.wr F.ftSvcStat_busy 0).wr F.ftSvcStat_result result).inc F.ftSvcStat_count 1).log 0x365 .steward

/-- A row due for repair is remapped to a spare row in a timeline gap (R392); none begins while recovery runs (R558). Listed bursts stay listed. [DEDUCED, log entry 61; DESIGN CHOICE, log entry 99] -/
def execPprRepair (sc : Fin 32) (s : State) : Host.Outcome State Fault Refusal :=
  let c := s.subch sc.val
  finish <| match c.repairDue with
    | [] => s
    | k :: rest =>
      let forced : Bool := stLine s.now = 0 && s.rd F.drGGap_gapStart = s.rd F.drGGap_gapEnd
      if !(s.inGap || forced) || s.rdB F.ftStat_recovering || !s.serves sc.val then s
      else
        let row := k / 2
        let dev := k % 2
        let used := s.rd (F.drScPpr_used.at (scBase sc.val))
        let s := s.closeRows sc.val fun b => b == row % 32
        let s :=
          if used.testBit (spareBit row dev) then
            (s.setSubch sc.val { (s.subch sc.val) with repairDue := rest, rowErr := tdel c.rowErr k }).log 0xB09 .subchannel sc.val (row * 64)
          else
            let s := s.setSubch sc.val { (s.subch sc.val) with repairDue := rest, rowErr := tdel c.rowErr k, repaired := c.repaired ++ [k] }
            (s.wr (F.drScPpr_used.at (scBase sc.val)) (used ||| 2 ^ spareBit row dev)).log 0xB08 .subchannel sc.val (row * 64)
        if s.dram.svcRow = some (sc.val, row) && !(rest.any fun x => x / 2 == row) then
          ({ s with dram := { s.dram with svcRow := none } }).svcDone 0
        else s

end Sys2Proof.Machine
end

