-- ==== Sys2Proof/Machine/Epochs.lean ====
section
/-! DEFINITION. Configuration epochs, hand-over of compartments, energy calibration, per-queue accounting reads and the seed table (08, 09). -/

namespace Sys2Proof.Machine

/-! ### Staged configuration -/

/-- A refused arm or an ignored shadow write (R290, R291). -/
def State.epochRefused (s : State) (cause code : Nat) : State :=
  ((s.wr F.scEpochCtrl_refused 1).wr F.scEpochCtrl_cause cause).log code .scheduler

/-- A write of a shadow copy (R289, R291): ignored while an epoch is pending or switching. -/
def execEpochShadowWrite (p : Fin 16) (i : Fin 8) (v : Word) (s : State) : Host.Outcome State Fault Refusal :=
  finish <| if s.rdB F.scEpochCtrl_pending then s.epochRefused 1 0x305 else s.regWrite (ptBase p.val + 0x80 + 4 * i.val) v.toNat

/-- Sum of a staged field over the partitions. -/
def State.shadowSum (s : State) (f : Fld) : Nat := (List.range 16).foldl (fun n p => n + s.rd (f.at (ptBase p))) 0

/-- Staged owner mask of a partition. -/
def State.shadowOwn (s : State) (p : Nat) : Nat := s.rd2 (F.ptShOwnLo_own.at (ptBase p)) (F.ptShOwnHi_own.at (ptBase p))

/-- The checks of an arm against the table Partition resources and R43: the cause of the first failure, or 0 (R290). -/
def State.epochCause (s : State) : Nat :=
  if s.rdB F.scEpochCtrl_pending then 1
  else if 256 < s.shadowSum F.ptShShare_dram || 256 < s.shadowSum F.ptShShare_decode || 256 < s.shadowSum F.ptShShare_encode then 2
  else if (List.range 16).any fun p => (List.range p).any fun q => s.shadowOwn p &&& s.shadowOwn q != 0 then 3
  else if 4096 < s.shadowSum F.ptShQuota_inflight || 16384 < s.shadowSum F.ptShQuota_contexts then 4
  else if (List.range 16).any fun p => (List.range 3).any fun i =>
      let v := s.rd (F.ptShSlice_slice.at (ptBase p + 4 * i)); v < 100 || 100000 < v then 5
  else if s.stampBad (s.rd2 F.scEpochAtLo_stamp F.scEpochAtHi_stamp) then 6
  else 0

/-- A write of SC_EPOCH_CTRL (R290, R291): with arm = 1 the staged set is checked and frozen, or the arm is refused. -/
def execScEpochArm (v : Word) (s : State) : Host.Outcome State Fault Refusal :=
  let n := v.toNat
  let s := s.regWrite F.scEpochCtrl_done.off (n - bits n 0 1)
  finish <|
    if !n.testBit 0 then s
    else match s.epochCause with
      | 0 => { s.wr F.scEpochCtrl_pending 1 with sched := { s.sched with epochAt := s.rd2 F.scEpochAtLo_stamp F.scEpochAtHi_stamp } }
      | 1 => s.epochRefused 1 0x305
      | c => s.epochRefused c 0x304

/-- The live copies of a partition take the staged values (R292). [DESIGN CHOICE, log entry 41] -/
def State.applyShadow (s : State) (p : Nat) : State :=
  let b := ptBase p
  let s := (s.wr (F.ptCtrl_livePreempt.at b) (s.rd (F.ptShCtrl_livePreempt.at b))).wr (F.ptCtrl_groupEn.at b) (s.rd (F.ptShCtrl_groupEn.at b))
  [0x4, 0x8, 0xC, 0x10, 0x14, 0x18, 0x1C].foldl (fun (s : State) o => s.setReg (b + o) (s.reg (b + o + 0x80))) s

/-- Units that switch at an epoch: boles 0 to 63 with their commit units, engines 64 to 69, the input engines of classes 4 to 7 as 70 to 73, and the
commit units of groups as their key + 10 (R231, R293). [DESIGN CHOICE, log entry 86] -/
def epochUnits : List Nat := List.range 95

/-- Partition that owns a logical bole by the live owner masks. -/
def State.ownerPart (s : State) (n : Nat) : Option Nat := (List.range 16).find? fun p => (s.ownMask p).testBit n

/-- Boles that a partition owns; 16 stands for no partition. -/
def State.ownedBoles (s : State) (p : Nat) : Nat :=
  if p < 16 then (maskList 64 (s.ownMask p)).length else 64 - (List.range 16).foldl (fun n q => n + (maskList 64 (s.ownMask q)).length) 0

/-- Adds the bole time owned since the last change of owners (R299). -/
def State.ownTick (s : State) : State :=
  let ns := s.nsSince s.sched.ownedAt
  { s with sched := { s.sched with
    ownedAt := s.now
    ownedNs := (List.range 17).foldl (fun t p => tput t p (tgetD t p 0 + ns * s.ownedBoles p)) s.sched.ownedNs } }

/-- The effective stamp of a pending epoch is reached (R292): the number rises, the live copies take the staged values and every unit begins to
switch; groves that pass whole to another partition are noted (R27). -/
def State.epochSwitch (s : State) : State :=
  if !s.epochDue then s
  else
    let before := (List.range 16).map s.ownMask
    let was := (List.range 64).map s.ownerPart
    let s := (s.ownTick.inc F.scEpochCur_epoch 1).wr F.scStat_switching 1
    let s := (List.range 16).foldl State.applyShadow s
    let moves := (List.range 4).filterMap fun g =>
      let a := was.getD (16 * g) none
      let b := s.ownerPart (16 * g)
      if a != b && (List.range 16).all fun i => was.getD (16 * g + i) none == a && s.ownerPart (16 * g + i) == b
      then some (g, match a with | some p => p + 1 | none => 0) else none
    { s with sched := { s.sched with switching := epochUnits, ownBefore := before, groveMoves := moves } }

/-- EPOCH_SWITCH_STAMP (R292), after the source switches of its tick (R47). -/
def execEpochSwitchStamp (s : State) : Host.Outcome State Fault Refusal := finish (if s.switchDue then s else s.epochSwitch)

/-- Partition that a bole's OWNER register shows. -/
def State.shownOwner (s : State) (n : Nat) : Option Nat :=
  let b := blBase (s.physOf n)
  if s.rdB (F.owner_owned.at b) then some (s.rd (F.owner_partition.at b)) else none

/-- One unit has switched; when every unit has, the epoch is done (R293). -/
def State.unitSwitched (s : State) (u : Nat) : State :=
  let left := s.sched.switching.filter (· != u)
  let s := { s with sched := { s.sched with switching := left } }
  if left.isEmpty && s.rdB F.scStat_switching then ((s.wr F.scEpochCtrl_done 1).wr F.scEpochCtrl_pending 0).wr F.scStat_switching 0 else s

/-- A unit switches to the new epoch (R280, R293, R294): a compartment once no command bound to the old one is in flight on it, suspended ones
included, a media engine while it has no picture, an input engine and a commit unit once no command of theirs is bound to the old one. At the end of the
250 µs that bound the wait, commands that still run on a bole are pre-empted. A group's EPOCH follows its last member; a bole that changes hands enters its
hand-over, and its state reads scrubbing (R27). [DESIGN CHOICE, log entry 86] -/
def execUnitEpochSwitch (u : Fin 95) (s : State) : Host.Outcome State Fault Refusal :=
  finish <|
    let cur := s.rd F.scEpochCur_epoch
    let n := u.val
    let old (sel : Cmd → Bool) : Bool := s.cmds.any fun e => e.2.inFlight && e.2.epoch != cur && sel e.2
    if !s.sched.switching.contains n then s
    else if 74 ≤ n then (if old fun c => c.desc.cls == 1 && compOf c.desc.target == n - 10 then s else s.unitSwitched n)
    else if 70 ≤ n then (if old fun c => c.desc.cls == n - 66 then s else s.unitSwitched n)
    else if 64 ≤ n then
      let e := s.engine (n - 64)
      if e.job.isSome then s else (s.setEngine (n - 64) { e with epoch := cur }).unitSwitched n
    else
      let s := if s.nsSince s.sched.epochAt < 250000 then s
        else (s.cmds.filter fun e => e.2.phase == .running && e.2.on n && e.2.epoch != cur).foldl State.preemptOne s
      if s.cmds.any fun e => e.2.on n && e.2.epoch != cur then s
      else
        let b := blBase (s.physOf n)
        let s := s.wr (F.epoch_epoch.at b) cur
        let s := ([64 + n / 4, 80 + n / 16, 84].foldl (fun (s : State) k =>
          if (compBoles k).all fun m => s.rd (F.epoch_epoch.at (blBase (s.physOf m))) == cur then s.wr (F.epoch_epoch.at (s.compBase k)) cur else s) s)
        let was := s.shownOwner n
        let now := s.ownerPart n
        let s := if was = now then s else
          let s := if s.boleOff n then s else s.wr (F.status_state.at b) 2
          { s.wr (F.owner_owned.at b) 0 with sched := { s.sched with handover := s.sched.handover ++ [(n, match now with | some p => p + 1 | none => 0)] } }
        s.unitSwitched n

/-- A drained compartment that changes hands is scrubbed (R27, R172): its commands are gone or are killed here and its state reads scrubbing. An offline
bole has nothing to scrub until it comes back; one whose stand-in is being made ready waits for it. -/
def execCompartmentHandOver (n : Fin 64) (s : State) : Host.Outcome State Fault Refusal :=
  finish <|
    let n := n.val
    let p := s.physOf n
    if !(s.sched.handover.any fun h => h.1 == n) || s.sched.handed.contains n || (s.bole p).scrubFor != 0 || s.preparing n then s
    else if s.boleOff n then s.handOverDone n
    else
      let s := (s.slotsOn p).foldl (fun (s : State) slot => match tget s.cmds slot with | some c => s.preemptOne (slot, c) | none => s) s
      let s := (s.wr (F.status_state.at (blBase p)) 2).wr (F.scrub_busy.at (blBase p)) 1
      s.setBole p { s.bole p with scrubFor := 2 }

/-! ### Accounting -/

/-- The 10 ms calibration (R299): k from the measured input energy and the activity model's static and dynamic energy, clamped to 0.5 to 2.0;
without dynamic activity the quotient has no value and k is free. The static energy of the window is charged by owned bole time, and
the sample assembler's busy time is published (R358). [DESIGN CHOICE, log entry 86] -/
def execEnergyCalibration (eIn eStatic eDyn : Nat) (s : State) : Host.Outcome State Fault Refusal :=
  let (d, s) := s.draw
  let raw := if eDyn = 0 then (Config.freeWord d).toNat else (eIn - eStatic) * 65536 / eDyn
  let k := max 32768 (min 131072 raw)
  let s := s.wr F.acCalK_k k
  let s := s.wr2 F.acEinLo_eIn F.acEinHi_eIn (eIn % 2 ^ 64)
  let s := s.ownTick
  let total := s.sched.ownedNs.foldl (fun n e => n + e.2) 0
  let part (p : Nat) : Nat := if total = 0 then eStatic * s.ownedBoles p / 64 else eStatic * tgetD s.sched.ownedNs p 0 / total
  let s := (List.range 16).foldl (fun (s : State) p => if part p = 0 then s else s.acAdd p 0x60 (part p)) s
  let s := s.inc2 F.acUnattrLo_unattr F.acUnattrHi_unattr (part 16)
  let s := { s with sched := { s.sched with ownedNs := [] } }
  let s := { s.wr F.sxLoad_busy (min 256 (s.sched.sxNs * 256 / 10 ^ 7)) with sched := { s.sched with sxNs := 0 } }
  finish (if eDyn ≠ 0 && (raw < 32768 || 131072 < raw) then s.log 0x308 .power else s)

/-- A write of AC_QSEL takes the snapshot of a queue's counters (R300); a virtual function sees zeros for a queue of another partition. -/
def execAcQselWrite (fn : Fin 16) (v : Word) (s : State) : Host.Outcome State Fault Refusal :=
  let f := fn.val
  let n := bits v.toNat 0 14
  let mine := match tget s.sqs n with
    | some q => f == 0 || q.part == f
    | none => f == 0
  let a := if mine then tgetD s.acct n ⟨0, 0, 0, 0, 0, 0⟩ else ⟨0, 0, 0, 0, 0, 0⟩
  let s := (s.wr (F.acQsel_queue.fn f) n).wr (F.acQsel_ready.fn f) 1
  finish (([a.bole, a.media, a.dram, a.pcie, a.energy, a.rerun].zipIdx).foldl (fun (s : State) (x, i) =>
    s.wr2 ((F.acQdata_word.fn f).at (8 * i)) ((F.acQdata_word.fn f).at (8 * i + 4)) (x % 2 ^ 64)) s)

/-- Work charged to an attempt that still runs: ns of its engine class, DRAM bytes and media pixels (R297, R299). -/
def State.addWork (s : State) (slot ns rd wr : Nat) (pixels : Nat := 0) : State := s.modCmd slot fun c =>
  { c.act 3 pixels with ns := c.ns + ns, dramRd := c.dramRd + rd, dramWr := c.dramWr + wr }

/-! ### Seeds -/

/-- A write of PT_SEED_HI stores the selected entry and sets its valid bit (R311, R318). -/
def execPtSeedHiWrite (p : Fin 16) (v : Word) (s : State) : Host.Outcome State Fault Refusal :=
  let b := ptBase p.val
  let i := s.rd (F.ptSeedIdx_index.at b)
  finish { s with seeds := tput s.seeds (p.val * 256 + i) ⟨s.rd (F.ptSeedLo_lo.at b) + v.toNat * 2 ^ 32, true⟩ }

/-- A write of PT_SEED_VALIDn invalidates the entries whose bits are written as 1 (R318). -/
def execPtSeedInvalidate (p : Fin 16) (w : Fin 8) (v : Word) (s : State) : Host.Outcome State Fault Refusal :=
  finish { s with seeds := (maskList 32 v.toNat).foldl (fun t m =>
    tmod t (p.val * 256 + 32 * w.val + m) fun e => { e with valid := false }) s.seeds }

end Sys2Proof.Machine
end

