-- ==== Sys2Proof/Machine/Frames.lean ====
section
/-! DEFINITION. Frames: descriptors, the samples that a plane holds, and the writing of a frame (07 R263, 10 R330, R331). -/

namespace Sys2Proof.Machine

/-- The context takes no command of this fetch order any more: closed, or closing since before it (R326, R341, R461). -/
def State.ctxClosed (s : State) (c : Cmd) : Bool := match tget s.ctxs c.desc.ctx with
  | none => true
  | some x => match x.closing with
    | none => false
    | some k => match tget s.cmds k with | some cc => cc.order < c.order | none => true

/-- A frame: where its planes lie and what they hold (table Frame descriptor). -/
structure Frame where
  base : Nat
  size : Nat
  w : Nat
  h : Nat
  py : Nat
  pc : Nat
  off : Nat
  chroma : Nat
  wide : Bool
  deriving DecidableEq, Repr

/-- The frame of a 64-byte descriptor. -/
def Frame.ofBytes (b : List Byte) : Frame :=
  { base := field b 0 6, size := field b 8 4, w := field b 12 2, h := field b 14 2, py := field b 16 2, pc := field b 18 2, off := field b 20 4
    chroma := bits (field b 24 1) 0 2, wide := (field b 24 1).testBit 2 }

/-- The frame of a picture of a context (R330). -/
def State.frameOf (s : State) (p : Pic) : Frame :=
  let (py, pc, off, _) := frameLayout p.w p.h p.d10 p.chroma
  ⟨s.bufAddr p.frame, s.bufSize p.frame.deck, p.w, p.h, py, pc, off, p.chroma, p.d10⟩

/-- Bytes of a sample. -/
def Frame.e (f : Frame) : Nat := if f.wide then 2 else 1

/-- Bits of a sample. -/
def Frame.depth (f : Frame) : Nat := if f.wide then 10 else 8

/-- Columns and rows of a plane: 0 luma, 1 Cb, 2 Cr. -/
def Frame.dims (f : Frame) (plane : Nat) : Nat × Nat :=
  if plane = 0 then (f.w, f.h)
  else match f.chroma with
    | 0 => (0, 0)
    | 1 => (cdiv f.w 2, cdiv f.h 2)
    | _ => (cdiv f.w 2, f.h)

/-- Subsampling shifts of a plane, across and down. -/
def Frame.shift (f : Frame) (plane : Nat) : Nat × Nat := if plane = 0 then (0, 0) else if f.chroma = 1 then (1, 1) else (1, 0)

/-- Where a plane's memory ends, as an offset from the base: its last row's last byte. -/
def Frame.planeEnd (f : Frame) (plane : Nat) : Nat :=
  if plane = 0 then (f.h - 1) * f.py + f.w * f.e
  else if f.chroma = 0 then 0 else f.off + ((f.dims 1).2 - 1) * f.pc + 2 * (f.dims 1).1 * f.e

/-- The bounds check of a frame descriptor: a 64-byte aligned base, reserved bits 0, pitches that hold a row, and every plane inside size (R264, R331, R342). -/
def frameOk (b : List Byte) : Bool :=
  let f := Frame.ofBytes b
  f.base % 64 == 0 && zeros b 6 2 && field b 24 1 < 8 && f.chroma < 3 && zeros b 25 7 && field b 32 4 < 2 ^ 14 && zeros b 48 16 && f.w != 0 && f.h != 0 &&
    f.w * f.e ≤ f.py && f.planeEnd 0 ≤ f.size && (f.chroma == 0 || (2 * (f.dims 1).1 * f.e ≤ f.pc && f.h * f.py ≤ f.off && f.planeEnd 1 ≤ f.size))

/-- Offset of a sample from the base. -/
def Frame.at (f : Frame) (plane y x : Nat) : Nat :=
  if plane = 0 then y * f.py + x * f.e else f.off + y * f.pc + (2 * x + plane - 1) * f.e

/-- A sample of a frame in module DRAM; 10-bit samples are the low 10 bits (R263, R330). -/
def State.sample (s : State) (f : Frame) (plane y x : Nat) : Nat := field (s.dramBytes (f.base + f.at plane y x) f.e) 0 f.e % 2 ^ f.depth

/-- Place of a sample among all samples of a frame, plane by plane. -/
def Frame.flat (f : Frame) (plane y x : Nat) : Nat :=
  let n := (f.dims plane).1
  (if plane = 0 then 0 else f.w * f.h + (plane - 1) * (n * (f.dims 1).2)) + y * n + x

/-- All samples of a frame in that order, from a function of plane, row and column. -/
def Frame.samples (f : Frame) (val : Nat → Nat → Nat → Nat) : List Nat := [0, 1, 2].flatMap fun plane =>
  let (w, h) := f.dims plane
  (List.range h).flatMap fun y => (List.range w).map fun x => val plane y x % 2 ^ f.depth

/-- A sample of a picture as later pictures and change maps see it, without film grain (R323). -/
def State.picSample (s : State) (p : Pic) (plane y x : Nat) : Nat :=
  let f := s.frameOf p
  if p.clean.isEmpty then s.sample f plane y x else p.clean.getD (f.flat plane y x) 0

/-- May a command read every byte of the frame's planes (R372, R375)? -/
def State.frameRead (s : State) (part : Nat) (f : Frame) : MemRes (List Byte) :=
  match s.dramRead part f.base (f.planeEnd 0) with
  | .ok a => if f.chroma = 0 then .ok a else match s.dramRead part (f.base + f.off) (f.planeEnd 1 - f.off) with
    | .ok b => .ok (a ++ b)
    | r => r
  | r => r

/-- Writes rows `lo` up to `hi` of the luma plane, and the chroma rows under them, from a function of plane, row and column; the unused upper bits are 0. -/
def State.writeFrame (s : State) (part : Nat) (f : Frame) (lo hi : Nat) (val : Nat → Nat → Nat → Nat) : State :=
  let row (s : State) (a : Nat) (b : List Byte) : State := (s.dramWrite part a b).getD s
  let s := (List.range (hi - lo)).foldl (fun (s : State) i =>
    row s (f.base + f.at 0 (lo + i) 0) ((List.range f.w).flatMap fun x => leBytes f.e (val 0 (lo + i) x % 2 ^ f.depth))) s
  if f.chroma = 0 then s
  else
    let sh := (f.shift 1).2
    let lo := lo / 2 ^ sh
    let hi := cdiv hi (2 ^ sh)
    (List.range (hi - lo)).foldl (fun (s : State) i =>
      row s (f.base + f.at 1 (lo + i) 0) ((List.range (f.dims 1).1).flatMap fun x =>
        leBytes f.e (val 1 (lo + i) x % 2 ^ f.depth) ++ leBytes f.e (val 2 (lo + i) x % 2 ^ f.depth))) s

/-- The frame descriptor at a picture, input or link argument, with where it was read (R465, R466). -/
def State.frameArg (s : State) (slot : Nat) (c : Cmd) (buf a : Nat) (run : List Byte → Frame → State → State) : State :=
  match argKind a with
  | 6 => match s.picArg a with
    | some p =>
      let f := s.frameOf p
      let b := leBytes 8 f.base ++ leBytes 4 f.size ++ leBytes 2 f.w ++ leBytes 2 f.h ++ leBytes 2 f.py ++ leBytes 2 f.pc ++ leBytes 4 f.off ++
        leBytes 1 (f.chroma + 4 * b2n f.wide) ++ List.replicate 7 (0 : Byte) ++ leBytes 4 (bits a 32 14) ++ leBytes 4 p.id ++ leBytes 8 p.stamp ++
        List.replicate 16 (0 : Byte)
      run b f s
    | none => s.dataFault slot 0x903 .encode
  | 7 => match s.linkOut c a with
    | some o => match s.dramRead c.desc.part o.1 64 with
      | .ok b => run b (Frame.ofBytes b) s
      | .denied x => s.dataFault slot 0xB07 .scheduler 0 x
      | .bad x => s.dataFault slot 0xB02 .scheduler 0 x
    | none => s.dataFault slot 0x903 .encode
  | _ => s.withData slot c buf a 64 fun b s => run b (Frame.ofBytes b) s

end Sys2Proof.Machine
end

