-- ==== Sys2Proof/Machine/Media.lean ====
section
/-! DEFINITION. The rows of the decode and encode engines (07 R247, R248, 10, 19 R557, R561). -/

namespace Sys2Proof.Machine

/-! ### Engines -/

/-- Base of an engine's register block: decoders 0 to 3, encoders 4 and 5 (R348). -/
def engBase (e : Nat) : Nat := if e < 4 then 0x60100 + 0x40 * e else 0x68100 + 0x40 * (e - 4)

/-- The engines of a class: 2 decode, 3 encode. -/
def enginesOf (cls : Nat) : List Nat := if cls = 2 then [0, 1, 2, 3] else [4, 5]

/-- Fault source of an engine (R554). -/
def engSrc (e : Nat) : SrcKind × Nat := if e < 4 then (.decode, e) else (.encode, e - 4)

/-- The engine takes pictures: online, without a picture, and with no request that stops it (R340, R346). -/
def State.engineIdle (s : State) (e : Nat) : Bool :=
  (s.engine e).mode == 1 && (s.engine e).job.isNone && !(s.engine e).reloadDue && !s.rdB (F.engCtrl_offlineReq.at (engBase e))

/-- The lowest-numbered engine of a class that is online and idle (R340). [DESIGN CHOICE, log entry 71] -/
def State.idleEngine (s : State) (cls : Nat) : Option Nat := (enginesOf cls).find? s.engineIdle

/-- The engine reaches a picture boundary: a reload that waits for it begins (R346). -/
def State.engineBoundary (s : State) (e : Nat) : State :=
  let x := s.engine e
  if x.mode == 1 && x.job.isNone && x.reloadDue then s.setEngine e { x with mode := 4, reloadDue := false } else s

/-- A context's live flag (tables Decode and Encode context parameters). -/
def Ctx.isLive (x : Ctx) : Bool := (field x.params 1 1).testBit 0

/-- The flag of the context that a command names. -/
def State.mediaLive (s : State) (c : Cmd) : Bool := match tget s.ctxs c.desc.ctx with | some x => x.isLive | none => false

/-- A picture command that waits for an engine: a queued access unit, or an encode command that is the first of its context. -/
def State.wantsEngine (s : State) (c : Cmd) : Bool :=
  (c.phase == .eligible || c.phase == .killed) && ((c.desc.cls == 2 && c.desc.op == 0 && c.queued) ||
    (c.desc.cls == 3 && !s.cmds.any fun e => e.2.desc.cls == 3 && e.2.desc.ctx == c.desc.ctx && e.2.order < c.order))

/-- The window of 10 ms over which the shares of pictures are measured has passed (R275). -/
def State.serveOver (s : State) : Bool := 10000000 ≤ s.nsSince s.sched.servedAt

/-- Where pixels of a partition's non-LIVE pictures are counted. -/
def servedKey (cls p : Nat) : Nat := 16 * (cls - 2) + p

/-- Pixels of a partition's non-LIVE pictures served in this window (R275). -/
def State.servedOf (s : State) (cls p : Nat) : Nat := if s.serveOver then 0 else tgetD s.sched.served (servedKey cls p) 0

/-- PT_SHARE.decode or PT_SHARE.encode. -/
def State.mediaShare (s : State) (cls p : Nat) : Nat := s.rd ((if cls = 2 then F.ptShare_decode else F.ptShare_encode).at (ptBase p))

/-- The partition of `a` has had less of its share in this window than that of `b` (R275); one without a share comes last. [DESIGN CHOICE, log entry 66] -/
def State.shareBefore (s : State) (cls a b : Nat) : Bool :=
  let x := s.mediaShare cls a; let y := s.mediaShare cls b
  if y = 0 then decide (x ≠ 0) else decide (x ≠ 0) && decide (s.servedOf cls a * y < s.servedOf cls b * x)

/-- A picture that starts is counted against its partition's share; LIVE pictures are not limited by it (R275). [DESIGN CHOICE, log entry 66] -/
def State.servePixels (s : State) (c : Cmd) (pixels : Nat) : State :=
  if s.mediaLive c then s
  else
    let sc := if s.serveOver then { s.sched with served := [], servedAt := s.now } else s.sched
    let k := servedKey c.desc.cls c.desc.part
    { s with sched := { sc with served := tput sc.served k (tgetD sc.served k 0 + pixels) } }

/-- Does a waiting picture come before another (R275, R340, R557, R561)? Re-runs first, then LIVE by deadline, then the rest by the shares of their
partitions, within one partition by deadline. [DESIGN CHOICE, log entry 66] -/
def State.pictureBefore (s : State) (a b : Cmd) : Bool :=
  if (a.phase == .killed) != (b.phase == .killed) then a.phase == .killed
  else if a.phase == .killed then a.first < b.first
  else if s.mediaLive a != s.mediaLive b then s.mediaLive a
  else if s.mediaLive a || a.desc.part == b.desc.part then deadlineBefore a b
  else s.shareBefore a.desc.cls a.desc.part b.desc.part

/-- Pictures may start: the module is ready and does not pause, and from throttle level 13 on only LIVE pictures start (R512, R520). [DESIGN CHOICE, log entry 66] -/
def State.mediaMay (s : State) (c : Cmd) : Bool := s.computeReady && (s.rd F.pwStat_level < 13 || s.mediaLive c)

/-- No other waiting picture of the class comes first. [DESIGN CHOICE, log entry 66] -/
def State.pictureNext (s : State) (slot : Nat) (c : Cmd) : Bool := s.cmds.all fun e =>
  e.1 == slot || e.2.desc.cls != c.desc.cls || !s.wantsEngine e.2 || !s.pictureBefore e.2 c || !e.2.waitDeck.isNone

/-! ### Decode commands -/

/-- The change maps are written (R339). -/
def Ctx.mapEn (x : Ctx) : Bool := (field x.params 1 1).testBit 1

/-- The templates that a decode context triggers are active (R545). -/
def State.triggersReady (s : State) (id : Nat) : Bool := s.boot.templates.all fun t => t.ctx != id || s.templateActive t

/-- Bitstream fetch stalls (R403): a deck of the command's context is at throttle and its queue is not LIVE, or at stop. [DEDUCED, log entry 95] -/
def State.fetchStalls (s : State) (c : Cmd) : Bool := match tget s.ctxs c.desc.ctx with
  | some x => s.deckHolds (field x.params 13 1) (s.clsOf c == 0) || (x.mapEn && s.deckHolds (field x.params 14 1) (s.clsOf c == 0))
  | none => false

/-- DECODE_ACCESS_UNIT (R326, R327, R328, R545): the checks of dispatch, then the bitstream is fetched and the access unit queued for its context. [DESIGN CHOICE, log entry 65] -/
def execDecodeAccessUnit (slot : Fin 4096) (s : State) : Host.Outcome State Fault Refusal :=
  finish <| match tget s.cmds slot.val with
    | none => s
    | some c =>
      if c.desc.cls != 2 || c.desc.op != 0 || c.queued || s.pow.paused || !(c.phase == .eligible || c.phase == .killed) then s
      else if s.lateDrop c then s.dropLate slot.val
      else
        let code := s.commonCheck c
        if code ≠ 0 then s.refuseCmd slot.val code
        else if s.ctxClosed c then (s.mdLast false 0x80D c.desc.ctx).refuseCmd slot.val 0x80D
        else if !s.triggersReady c.desc.ctx || (s.fetchStalls c && !c.rerun) then s
        else s.withData slot.val c 0 (c.desc.arg 0) (c.desc.shape 0) fun b s =>
          (s.addWork slot.val 0 (if argSpace (c.desc.arg 0) = 0 then b.length else 0) 0).modCmd slot.val fun c => { c with queued := true, src := b }

/-! ### Pictures and change maps -/

/-- The last output picture of a context. [DEDUCED, log entry 67] -/
def Ctx.lastOut (x : Ctx) : Option Pic := x.lastPub.bind fun n => x.dpb.find? fun p => p.shown && p.id == n

/-- Block columns and rows of a picture (R247). -/
def mapDims (w h : Nat) : Nat × Nat := (cdiv w 16, cdiv h 16)

/-- Number in raster order of the block that a sample lies in. -/
def Frame.blockOf (f : Frame) (plane y x : Nat) : Nat :=
  let (sx, sy) := f.shift plane
  (y * 2 ^ sy) / 16 * (mapDims f.w f.h).1 + (x * 2 ^ sx) / 16

/-- Two pictures whose samples can be compared one by one. -/
def Pic.sameShape (a b : Pic) : Bool := a.w == b.w && a.h == b.h && a.d10 == b.d10 && a.chroma == b.chroma

/-- The row whose sample a row of a frame shows: of a field without partner the missing rows repeat the decoded row above, the first one that below
(R322). [DESIGN CHOICE, log entry 118] -/
def loneRow (lone : Option (Fin 2)) (y : Nat) : Nat := match lone with
  | some k => if y % 2 = k.val then y else if y = 0 then 1 else y - 1
  | none => y

/-- A sample that the engine writes, before film grain (R322, R334): a concealed block takes the co-located sample of the last output picture, or the
mid-level value; `raw` is what the standard makes of the access unit. [DESIGN CHOICE, log entry 118] -/
def State.decodedValue (s : State) (raw : Nat → Nat → Nat → Nat) (f : Frame) (p : Pic) (hidden : List Nat) (lone : Option (Fin 2)) (prev : Option Pic)
    (plane y x : Nat) : Nat :=
  let y := loneRow lone y
  if !hidden.contains (f.blockOf plane y x) then raw plane y x
  else match prev with
    | none => 2 ^ (f.depth - 1)
    | some q => if p.sameShape q then s.picSample q plane y x else raw plane y x

/-- The context applies film grain to its output frames (R323). -/
def Ctx.grain (x : Ctx) : Bool := field x.params 0 1 == 2 && (field x.params 1 1).testBit 2

/-- Sum of absolute differences of a block over its luma and chroma samples, without film grain (R247, R323). -/
def State.blockSad (s : State) (p q : Pic) (by_ bx : Nat) : Nat :=
  let f := s.frameOf p
  (if f.chroma = 0 then [0] else [0, 1, 2]).foldl (fun n plane =>
    let (sx, sy) := f.shift plane
    let (w, h) := f.dims plane
    let bw := 16 / 2 ^ sx; let bh := 16 / 2 ^ sy
    (List.range bh).foldl (fun n i => (List.range bw).foldl (fun n j =>
      let y := by_ * bh + i; let x := bx * bw + j
      if h ≤ y ∨ w ≤ x then n
      else let a := s.picSample p plane y x; let b := s.picSample q plane y x; n + (a - b) + (b - a)) n) n) 0

/-- Level of a map entry (R247). -/
def sadLevel (sad : Nat) : Nat := if sad = 0 then 0 else min 31 (1 + sad.log2)

/-- The entry byte of a block (table Change map entry). [DEDUCED, log entry 68] -/
def State.mapEntry (s : State) (hist : Nat) (p : Pic) (prev : Option Pic) (by_ bx : Nat) : Nat :=
  let n := by_ * (mapDims p.w p.h).1 + bx
  let level := match prev with
    | some q => if p.sameShape q then sadLevel (s.blockSad p q by_ bx) else Config.mapLevel hist by_ bx % 32
    | none => Config.mapLevel hist by_ bx % 32
  level + 32 * b2n (p.intra.contains n) + 64 * b2n (p.hidden.contains n)

/-- The change map of a picture against the output picture before it (R247, R248): header, then the entries row by row. [DEDUCED, log entry 68] -/
def State.mapBytes (s : State) (hist id : Nat) (p : Pic) (prev : Option Pic) : List Byte :=
  let (wb, hb) := mapDims p.w p.h
  let pitch := alignUp wb 16
  let rows := (List.range hb).map fun y => (List.range wb).map fun x => s.mapEntry hist p prev y x
  let changed := (rows.flatten.filter fun v => v % 32 != 0 || v.testBit 6).length
  let cut := p.key || 3 * (wb * hb) ≤ 4 * p.intra.length
  let dims := match prev with | some q => q.w != p.w || q.h != p.h | none => false
  leBytes 4 p.id ++ leBytes 4 (match prev with | some q => q.id | none => 2 ^ 32 - 1) ++ leBytes 8 p.stamp ++ leBytes 2 wb ++ leBytes 2 hb ++
    leBytes 2 pitch ++ leBytes 1 (b2n cut + 2 * b2n (!p.hidden.isEmpty || p.unpaired) + 4 * b2n prev.isNone + 8 * b2n dims) ++ ([0] : List Byte) ++ leBytes 4 id ++
    leBytes 4 changed ++ List.replicate 32 (0 : Byte) ++
    rows.flatMap fun r => (r.map fun v => BitVec.ofNat 8 v) ++ List.replicate (pitch - wb) (0 : Byte)

/-! ### Publication -/

/-- Passes the hold of a command on a buffer to a context, without publication (R35, R399). [DEDUCED, log entry 69] -/
def State.keepBuf (s : State) (b : BufRef) (slot id : Nat) : State := match s.ownerOf b with
  | some o => s.setOwner b { o with kind := 1, id := id, holders := o.holders.erase (.cmd slot) ++ [.ctx id] }
  | none => s

/-- A buffer that a context holds becomes published (R400). -/
def State.showBuf (s : State) (b : BufRef) : State := match s.ownerOf b with
  | some o => s.setOwner b { o with kind := 2 }
  | none => s

/-- Outputs the picture at a position of the decoded picture buffer (R247, R327, R339): it takes the next number, its map is written, its buffers are
published. [DEDUCED, log entry 68] -/
def State.outputPic (s : State) (id : Nat) (x : Ctx) (n : Nat) : State × Ctx := match x.dpb[n]? with
  | none => (s, x)
  | some p =>
    let prev := x.lastOut
    let p := { p with id := x.nextPic, shown := true }
    let s := match p.map with
      | some m => ((s.dramWrite x.part (s.bufAddr m) (s.mapBytes x.decHist id p prev)).getD s).showBuf m
      | none => s
    (s.showBuf p.frame, { x with dpb := setAt x.dpb n p, nextPic := (x.nextPic + 1) % 2 ^ 32, lastPub := some p.id })

/-- Pictures that leave the decoded picture buffer: those named that are published, no longer references, and not the last output; their holds go (R35). [DEDUCED, log entry 67] -/
def State.leavePics (s : State) (id : Nat) (x : Ctx) (l : List Nat) : State × Ctx :=
  let go := l.eraseDups.filter fun n => match x.dpb[n]? with
    | some p => p.shown && !p.ref && x.lastPub != some p.id
    | none => false
  let s := go.foldl (fun (s : State) n => match x.dpb[n]? with
    | some p => (p.frame :: p.map.toList).foldl (fun (s : State) b => s.release b (.ctx id)) s
    | none => s) s
  (s, { x with dpb := (x.dpb.zipIdx.filter fun e => !go.contains e.2).map (·.1) })

/-- Commits a decode command with the pictures it outputs, in output order (R327, R473, R476). [DEDUCED, log entry 67] -/
def State.commitPics (s : State) (slot : Nat) (id : Nat) (x : Ctx) (outs leaves : List Nat) : State :=
  let outs := outs.filter fun n => match x.dpb[n]? with | some p => !p.shown | none => false
  let (s, x') := outs.eraseDups.foldl (fun (acc : State × Ctx) n => acc.1.outputPic id acc.2 n) (s, x)
  let ids := outs.eraseDups.filterMap fun n => (x'.dpb[n]?).map (·.id)
  let (s, x'') := s.leavePics id x' leaves
  match tget s.cmds slot with
  | none => s
  | some c =>
    let c := { c with
      pics := ids, instances := ids.map (fun n => (id, n)), newCtx := [(id, some x'')]
      result := (match ids.getLast? with | some n => n | none => 0) + ids.length % 256 * 2 ^ 32 }
    (s.setCmd slot c).commitStep slot c false

/-- DECODE_FLUSH (R327): every picture left to be output is output, in the standard's order, at the flush's commit. -/
def execDecodeFlush (slot : Fin 4096) (order : List Nat) (s : State) : Host.Outcome State Fault Refusal :=
  finish <| match tget s.cmds slot.val with
    | none => s
    | some c =>
      if c.desc.cls != 2 || c.desc.op != 1 || !(c.phase == .eligible || c.phase == .killed) then s
      else if s.lateDrop c then s.dropLate slot.val
      else if s.epochWait c then s
      else
        let code := s.commonCheck c
        if code ≠ 0 then s.refuseCmd slot.val code
        else match tget s.ctxs c.desc.ctx with
          | none => (s.mdLast false 0x80D c.desc.ctx).refuseCmd slot.val 0x80D
          | some x =>
            let left := (List.range x.dpb.length).filter fun n => match x.dpb[n]? with | some p => !p.shown | none => false
            if s.ctxClosed c then (s.mdLast false 0x80D c.desc.ctx).refuseCmd slot.val 0x80D
            else if !s.triggersReady c.desc.ctx || order.mergeSort != left then s
            else match s.tryDispatch slot.val c with
              | .refuse code => s.refuseCmd slot.val code
              | .wait s' => s'
              | .fault code a => s.dataFault slot.val code .scheduler 0 a
              | .fatal => s.partitionFatal c.desc.part 0x361 .deck
              | .go s' => (s'.rerunStarted c).commitPics slot.val c.desc.ctx { x with dpb := x.dpb.map fun p => { p with ref := false } } order []

/-! ### Picture start -/

/-- Codes of a rejected picture, in the order of the table Picture outcomes; 0 where it is decoded (R320, R321, R336). -/
def Ctx.rejects (x : Ctx) (h : PicHead) : Nat :=
  let dpb := x.dpb.zipIdx.filter fun e => !e.1.shown || (e.1.ref && !h.unref.contains e.2)
  if !h.ok || 8192 < h.w || 4352 < h.h || 35651584 < h.w * h.h then 0x801
  else if field x.params 4 2 < h.w || field x.params 6 2 < h.h || (h.d10 && field x.params 2 1 == 8) || field x.params 3 1 < h.chroma.val then 0x802
  else if field x.params 10 1 < dpb.length + 1 then 0x80B
  else 0

/-- A picture is rejected (R336): counted, and its command ends without commit. [DESIGN CHOICE, log entry 71] -/
def State.rejectPicture (s : State) (slot : Nat) (c : Cmd) (code e : Nat) : State :=
  ((s.inc F.mdErrReject_count 1).mdLast false code c.desc.ctx).dataFault slot code .decode e

/-- An encode command's source or output ends it (R342). -/
def State.endEncode (s : State) (slot : Nat) (c : Cmd) (code e : Nat) : State :=
  ((s.inc F.enErr_count 1).mdLast true code c.desc.ctx).dataFault slot code .encode (e - 4)

/-- Decks that a picture takes a buffer from: 0 frame or reconstruction, 1 map or output (R331, R341). -/
def Ctx.mediaDecks (x : Ctx) (cls : Nat) : List (Nat × Nat) :=
  if cls = 2 then (0, field x.params 13 1) :: (if x.mapEn then [(1, field x.params 14 1)] else [])
  else (if x.recon.isSome then [] else [(0, field x.params 25 1)]) ++ [(1, field x.params 26 1)]

/-- Binds a picture's command to an engine once its buffers are there (R292, R331, R340); a command whose buffers are not there yet stays undispatched
(R404). -/
def State.enginePicture (s : State) (slot : Nat) (c : Cmd) (x : Ctx) (e : Nat) (h : PicHead) (src : List Byte) : State :=
  let take : FreshRes := if c.frameBuf.isSome || c.mapBuf.isSome then .got [] s else s.takeDecks slot c x.isLive (x.mediaDecks c.desc.cls)
  match take with
  | .disabled => s.refuseCmd slot 0xC0E
  | .wait d s' => s'.modCmd slot fun c => { c with waitDeck := some d }
  | .empty => s.partitionFatal c.desc.part 0x361 .deck
  | .got bufs s1 => match s1.tryDispatch slot c with
    | .go s2 =>
      let j : Job := ⟨slot, c.desc.ctx, x.isLive, false, 1 < c.boundsOn.length, h, s.now⟩
      let s2 := s2.modCmd slot fun c => { c with
        waitDeck := none, epoch := (s.engine e).epoch, holds := c.holds ++ bufs.map (·.2), src := src
        frameBuf := if bufs.isEmpty then c.frameBuf else tget bufs 0, mapBuf := if bufs.isEmpty then c.mapBuf else tget bufs 1 }
      let pixels := if c.desc.cls = 2 then h.w * h.h else field x.params 2 2 * field x.params 4 2
      ((s2.setEngine e { s2.engine e with job := some j }).servePixels c pixels).rerunStarted c
    | _ => s

/-- The encode source is valid (R342): the size of the context, its format, every plane inside size. -/
def Ctx.sourceOk (x : Ctx) (b : List Byte) (f : Frame) : Bool :=
  frameOk b && f.w == field x.params 2 2 && f.h == field x.params 4 2 && f.chroma == 1 && f.wide == (field x.params 1 1).testBit 1

/-- A waiting picture starts on an engine (R275, R320, R321, R336, R340, R342). [DESIGN CHOICE, log entry 65] -/
def State.startPicture (s : State) (slot : Nat) (c : Cmd) (e : Nat) (h : PicHead) : State :=
  let code := s.commonCheck c
  if s.lateDrop c then s.dropLate slot
  else if code ≠ 0 then s.refuseCmd slot code
  else match tget s.ctxs c.desc.ctx with
    | none => (s.mdLast (c.desc.cls == 3) 0x80D c.desc.ctx).refuseCmd slot 0x80D
    | some x =>
      if s.ctxClosed c then (s.mdLast (c.desc.cls == 3) 0x80D c.desc.ctx).refuseCmd slot 0x80D
      else if c.desc.epoch != 0 && seqLt (s.engine e).epoch c.desc.epoch then s
      else
        let rej := if c.desc.cls = 2 then x.rejects h else 0
        if rej ≠ 0 then s.rejectPicture slot c rej e
        else match s.tryDispatch slot c with
          | .refuse code => s.refuseCmd slot code
          | .wait s' => s'
          | .fault code a => s.dataFault slot code .scheduler 0 a
          | .fatal => s.partitionFatal c.desc.part 0x361 .deck
          | .go _ =>
            if c.desc.cls = 2 then s.enginePicture slot c x e h c.src
            else if !c.src.isEmpty then s.enginePicture slot c x e h c.src
            else s.frameArg slot c 0 (c.desc.arg 0) fun b f s =>
              if !x.sourceOk b f then s.endEncode slot c 0x903 e
              else s.enginePicture slot c x e h b

/-- PICTURE_ENGINE_START (R340, R561): the picture takes the lowest-numbered idle engine of its kind; a picture set aside resumes ahead of others that
are no re-runs. [DESIGN CHOICE, log entry 65] -/
def execPictureEngineStart (slot : Fin 4096) (h : PicHead) (s : State) : Host.Outcome State Fault Refusal :=
  finish <| match tget s.cmds slot.val with
    | none => s
    | some c =>
      match s.idleEngine c.desc.cls with
      | none => s
      | some e =>
        match (enginesOf c.desc.cls).find? fun k => match (s.engine k).aside with | some j => j.slot == slot.val | none => false with
        | some k =>
          if s.pow.paused || s.cmds.any fun w => w.2.desc.cls == c.desc.cls && w.2.phase == .killed && s.wantsEngine w.2 then s
          else
            let j := (s.engine k).aside
            let s := s.setEngine k { s.engine k with aside := none }
            s.setEngine e { s.engine e with job := j }
        | none =>
          let waits := (enginesOf c.desc.cls).any fun k => (s.engine k).aside.isSome
          if !(c.desc.cls == 2 || c.desc.cls == 3) || !s.wantsEngine c || !s.pictureNext slot.val c || (waits && c.phase != .killed) || !s.mediaMay c
          then s else s.startPicture slot.val c e h

/-! ### Segments and budgets -/

/-- SEGMENT_CHECKPOINT (R332, R340): the segment's state is in the checkpoint area; the engine may switch epoch at its boundary. -/
def execSegmentCheckpoint (e : Fin 6) (s : State) : Host.Outcome State Fault Refusal :=
  finish <| if s.pow.paused then s else match (s.engine e.val).job with
    | none => s
    | some j =>
      let s := s.modCmd j.slot fun c => { c with segs := c.segs + 1 }
      if s.sched.switching.contains (64 + e.val) then
        (s.setEngine e.val { s.engine e.val with epoch := s.rd F.scEpochCur_epoch }).unitSwitched (64 + e.val)
      else s

/-- PICTURE_BUDGET_EXPIRY (R333): the engine stops parsing, and every block left is concealed. -/
def execPictureBudgetExpiry (e : Fin 4) (s : State) : Host.Outcome State Fault Refusal :=
  finish <| if s.pow.paused then s else match (s.engine e.val).job with
    | none => s
    | some j => if j.expired then s else (s.setEngine e.val { s.engine e.val with job := some { j with expired := true } }).inc F.mdErrBudget_count 1

/-- PICTURE_SET_ASIDE (R557): the engine checkpoints its picture and sets it aside, for a killed picture that no idle engine can take. [DESIGN CHOICE, log entry 71] -/
def execPictureSetAside (e : Fin 6) (s : State) : Host.Outcome State Fault Refusal :=
  finish <| if s.pow.paused then s else
    let cls := if e.val < 4 then 2 else 3
    let x := s.engine e.val
    match x.job with
    | none => s
    | some j =>
      let rerun := match tget s.cmds j.slot with | some c => 1 < c.attempts | none => false
      if x.mode != 1 || x.aside.isSome || rerun || (s.idleEngine cls).isSome ||
          !(s.cmds.any fun c => c.2.desc.cls == cls && c.2.phase == .killed && s.wantsEngine c.2) then s
      else (s.setEngine e.val { x with job := none, aside := some j }).modCmd j.slot fun c => { c with segs := c.segs + 1 }

/-! ### The end of a picture -/

/-- Raises a code of a damaged picture (R337). -/
def State.pictureCode (s : State) (slot ctx code e : Nat) : State := (s.sayOnce slot code .decode e).mdLast false code ctx

/-- The engine is done with its picture: counters, the watch after a fault, and the boundary (R346, R347, R348). [DEDUCED, log entry 64] -/
def State.engineDone (s : State) (e pixels pics : Nat) : State :=
  let b := engBase e
  let s := (s.inc2 (F.engPixLo_pixels.at b) (F.engPixHi_pixels.at b) pixels).inc (F.engPics_pictures.at b) pics
  (s.setEngine e { s.engine e with job := none, watch := (s.engine e).watch - pics }).engineBoundary e

/-- MEDIA cycles, which are ns, that a picture occupies its engine (R329): decoding, and concealment at 8 samples in a cycle. -/
def picCycles (r : PicEnd) : Nat := max (cdiv r.coded 2) (cdiv r.bins 2) + cdiv r.concealed 8

/-- Budget of a picture in MEDIA cycles (R333). -/
def Ctx.budgetOf (x : Ctx) (r : PicEnd) : Nat :=
  let q := field x.params 11 1
  20000 + cdiv ((r.coded + r.concealed) * (if q = 0 then 32 else q)) 16

/-- PICTURE_COMPLETE (R322, R327, R329, R333 to R339): the frame is written and the picture enters the decoded picture buffer, the pictures that the
standard outputs now get their numbers and maps, and the command commits. [DEDUCED, log entry 69] -/
def execPictureComplete (e : Fin 4) (r : PicEnd) (s : State) : Host.Outcome State Fault Refusal :=
  finish <| if s.pow.paused then s else match (s.engine e.val).job with
    | none => s
    | some j =>
      match tget s.cmds j.slot, tget s.ctxs j.ctx with
      | some c, some x =>
        match c.frameBuf with
        | none => s
        | some fb =>
          let h := j.head
          let prev := x.lastOut
          let p : Pic := { id := 0, frame := fb, map := c.mapBuf, stamp := if c.desc.notBefore = noStamp then j.startAt else c.desc.notBefore, ref := h.isRef
                           shown := false, w := h.w, h := h.h, d10 := h.d10, chroma := h.chroma.val, key := h.key, intra := r.intra
                           hidden := r.hidden ++ r.marked, unpaired := r.lone.isSome, clean := [] }
          let f := s.frameOf p
          let uc := BitVec.ofNat 32 (s.rd (F.engVer_ver.at (engBase e.val)))
          let val := s.decodedValue (Config.decodedSample x.params x.decHist c.src uc) f p r.hidden r.lone prev
          let p := if x.grain then { p with clean := f.samples val } else p
          let s := s.writeFrame c.desc.part f 0 f.h fun plane y k =>
            if x.grain then Config.grainSample x.params x.decHist c.src uc (plane, y, k) (val plane y k) else val plane y k
          let late := !j.expired && x.budgetOf r < picCycles r
          let s := if late then s.inc F.mdErrBudget_count 1 else s
          let codes := (if j.expired || late then [0x804] else []) ++ (if r.short then [0x803] else []) ++
            (if r.syntaxErr || r.lone.isSome || j.damaged then [0x807] else []) ++ (if r.refMissing then [0x808] else [])
          let s := match codes with
            | [] => s
            | k :: l => (s.pictureCode j.slot j.ctx k e.val).inc F.mdErrConceal_count l.length
          let x := { x with decHist := Config.decNext x.params x.decHist c.src uc, dpb := (x.dpb.zipIdx.map fun q => if h.unref.contains q.2 then { q.1 with ref := false } else q.1) ++ [p] }
          let s := (fb :: c.mapBuf.toList).foldl (fun (s : State) b => s.keepBuf b j.slot j.ctx) s
          let s := s.addWork j.slot (picCycles r) r.read (frameSize h.w h.h h.d10 h.chroma.val + (if x.mapEn then mapSize h.w h.h else 0)) (r.coded + r.concealed)
          let s := s.modCmd j.slot fun c => { c with
            holds := c.holds.filter fun b => b != fb && c.mapBuf != some b
            frameBuf := none, mapBuf := none }
          (s.engineDone e.val r.coded 1).commitPics j.slot j.ctx x r.outs r.leaves
      | _, _ => s

/-! ### Encode -/

/-- CTU columns and rows of a context, and rows of a slice group (R341, R343). -/
def Ctx.encShape (x : Ctx) : Nat × Nat × Nat :=
  let c := cdiv (field x.params 2 2) 64; let r := cdiv (field x.params 4 2) 64
  let ultra := bits (field x.params 1 1) 2 2 == 2
  let rows := field x.params 24 1
  (c, r, if ultra && rows != 0 then min rows r else r)

/-- Pictures of a refresh cycle (R343). -/
def Ctx.cycleLen (x : Ctx) : Nat :=
  let (c, _, _) := x.encShape
  let b := max 1 (cdiv c (max 1 (field x.params 20 1)))
  max 1 (cdiv c b)

/-- What triggers cached-window mode for the slice group about to be coded (table Search mode triggers). -/
def Ctx.windowTrigger (x : Ctx) (op : Nat) : Bool :=
  op.testBit 0 || (x.group == 0 && (!x.motion || x.cutSeen || (field x.params 1 1).testBit 4))

/-- ENCODE_PICTURE (R341 to R345): the engine codes the picture or slice group; its bitstream passes to the host, its reconstruction becomes a
reference, and the command commits; or the coded data does not fit, and it ends. [DESIGN CHOICE, log entry 70; DEDUCED, log entry 122] -/
def execEncodePicture (e : Fin 2) (read : Nat) (s : State) : Host.Outcome State Fault Refusal :=
  let e := 4 + e.val
  finish <| if s.pow.paused then s else match (s.engine e).job with
    | none => s
    | some j =>
      match tget s.cmds j.slot, tget s.ctxs j.ctx with
      | some c, some x =>
        match c.mapBuf, (match x.recon with | some b => some b | none => c.frameBuf) with
        | some ob, some rb =>
          let p := c.desc.part
          let f := Frame.ofBytes c.src
          match s.frameRead p f with
          | .denied a => (s.dataFault j.slot 0xB07 .encode (e - 4) a).engineBoundary e
          | .bad a => (s.dataFault j.slot 0xB02 .encode (e - 4) a).engineBoundary e
          | .ok src =>
            let uc := BitVec.ofNat 32 (s.rd (F.engVer_ver.at (engBase e)))
            let (_, rows, per) := x.encShape
            let last := rows ≤ (x.group + 1) * per
            let lo := 64 * x.group * per
            let hi := min f.h (64 * (x.group + 1) * per)
            let out := Config.encBytes x.params x.encHist src c.desc.op uc
            let trig := x.windowTrigger c.desc.op
            let win := if trig then field x.params 23 1 else x.winLeft
            let s := if trig then (s.sayOnce j.slot 0x907 .encode (e - 4)).mdLast true 0x907 j.ctx else s
            if s.bufSize ob.deck < out.length then (s.endEncode j.slot c 0x904 e).engineBoundary e
            else
              let window := 0 < win
              let pix := f.w * (hi - lo)
              let s := (s.dramWrite p (s.bufAddr ob) out).getD s
              let rf : Frame := let (py, pc, off, _) := frameLayout f.w f.h f.wide 1; ⟨s.bufAddr rb, s.bufSize rb.deck, f.w, f.h, py, pc, off, 1, f.wide⟩
              let s := s.writeFrame p rf lo hi fun plane y k => Config.encSample x.params x.encHist src c.desc.op uc (plane, y, k)
              let s := if window && last then s.inc (F.engWindow_window.at (engBase e)) 1 else s
              let s := s.publishBuf ob j.slot [.host]
              let s := if x.recon.isNone then s.keepBuf rb j.slot j.ctx else s
              let refs := rb :: x.encRefs
              let keep := field x.params 22 1
              let s := if last then (refs.drop keep).foldl (fun (s : State) b => s.release b (.ctx j.ctx)) s else s
              let cut := Config.encIntra x.params x.encHist src c.desc.op uc
              let x' := { x with
                encHist := Config.encNext x.params x.encHist src c.desc.op uc
                encRefs := if last then refs.take keep else x.encRefs, recon := if last then none else some rb
                group := if last then 0 else x.group + 1, winLeft := if last then win - 1 else win, motion := last || x.motion
                cutSeen := if last then cut else x.cutSeen
                sceneCut := !last && (x.sceneCut || c.desc.op.testBit 0)
                cycle := if !last then x.cycle else if x.sceneCut || c.desc.op.testBit 0 || cut then 0 else (x.cycle + 1) % x.cycleLen }
              let s := s.addWork j.slot (if window then 2 * pix else pix) read (out.length + pix) pix
              let s := s.engineDone e pix (b2n last)
              match tget s.cmds j.slot with
              | none => s
              | some c =>
                let c := { c with
                  holds := c.holds.filter fun b => b != ob && b != rb
                  frameBuf := none, mapBuf := none, newCtx := [(j.ctx, some x')]
                  result := s.bufAddr ob % 2 ^ 39 + out.length % 2 ^ 25 * 2 ^ 39 }
                (s.setCmd j.slot c).commitStep j.slot c false
        | _, _ => s
      | _, _ => s

/-! ### Faults and reloads -/

/-- A microcode activation goes on with the next engine that is online; an engine that reloads already is awaited, and one that is offline or retired is
passed over (R602). -/
def State.nextReload (s : State) : State :=
  let l := s.sec.reloads.dropWhile fun e => (s.engine e).mode != 1 && (s.engine e).mode != 4
  let s := { s with sec := { s.sec with reloads := l } }
  match l with
  | [] => s
  | e :: _ => if (s.engine e).mode = 1 then (s.setEngine e { s.engine e with reloadDue := true }).engineBoundary e else s

/-- An engine faults (R331, R347): the picture's command is killed for a re-run from its last checkpoint, and the engine reloads, or is retired where this is
its second fault within 16 pictures. A frame that leaves its bounds on a second engine is damaged data instead. -/
def State.engineFault (s : State) (e : Nat) (bounds : Bool) : State :=
  let (kind, idx) := engSrc e
  let x := s.engine e
  if x.mode != 1 then s
  else
    let slot := x.job.map (·.slot)
    let ctx := match x.job with | some j => j.ctx | none => 0
    let s := if bounds then (s.logFault { mkFault 0x805 kind idx with slot := slot }).mdLast false 0x805 ctx else s
    let second := match slot.bind fun k => tget s.cmds k with
      | some c => bounds && c.boundsOn.any (· != e)
      | none => false
    if second then s.setEngine e { x with job := x.job.map fun j => { j with damaged := true } }
    else
      let code := if e < 4 then 0x80A else 0x905
      let s := (s.inc (F.engFault_faults.at (engBase e)) 1).mdLast (4 ≤ e) code ctx
      let s := match slot with
        | some k => (s.modCmd k fun c => { c with boundsOn := if bounds then c.boundsOn ++ [e] else c.boundsOn }).containedKill k code kind idx
        | none => s.log code kind idx
      if 0 < x.watch then (s.setEngine e { s.engine e with mode := 5, job := none, watch := 0 }).nextReload
      else s.setEngine e { s.engine e with mode := 4, job := none, watch := 16, reloadDue := false }

/-- ENGINE_FAULT (R331, R347): a parity or check failure, or FRAME_BOUNDS. [DESIGN CHOICE, log entry 71] -/
def execEngineFault (e : Fin 6) (bounds : Bool) (s : State) : Host.Outcome State Fault Refusal := finish (s.engineFault e.val bounds)

/-- ENGINE_RELOAD (R346): a write of reload makes the engine finish its picture and load its microcode; a retired engine stays retired. -/
def execEngineReload (e : Fin 6) (s : State) : Host.Outcome State Fault Refusal :=
  finish <|
    let x := s.engine e.val
    if x.mode != 1 then s
    else ((s.wr (F.engCtrl_reload.at (engBase e.val)) 1).setEngine e.val { x with reloadDue := true }).engineBoundary e.val

/-- ENGINE_RELOAD_COMPLETE (R346, R602): the verified image runs, the engine is back online, and an activation goes on with the next engine. -/
def execEngineReloadComplete (e : Fin 6) (s : State) : Host.Outcome State Fault Refusal :=
  let e := e.val
  let b := engBase e
  finish <|
    let s := s.engineBoundary e
    let x := s.engine e
    if x.mode != 4 then s
    else
      let s := s.setEngine e { x with mode := 1, ucode := Config.sha384 s.sec.ucBank.image }
      let s := ((s.wr (F.engCtrl_reload.at b) 0).inc (F.engFault_reloads.at b) 1).wr (F.engVer_ver.at b) s.sec.ucBank.ver.toNat
      let (kind, idx) := engSrc e
      let s := (s.log 0x80C kind idx).mdLast false 0x80C 0
      { s with sec := { s.sec with reloads := s.sec.reloads.filter (· != e) } }.nextReload

/-- ENGINE_OFFLINE_REQUEST (R346): a write of offline_req stops the engine at its next picture boundary, or brings it back. -/
def execEngineOfflineRequest (e : Fin 6) (v : Bool) (s : State) : Host.Outcome State Fault Refusal :=
  finish (s.wrB (F.engCtrl_offlineReq.at (engBase e.val)) v)

end Sys2Proof.Machine
end

