-- ==== Sys2Proof/Machine/Skidway.lean ====
section
/-! DEFINITION. Skidway: messages and their link, discovery and routing, the send phase, the windows that other modules write, and the arrival of every write at a window (05 R177, 16). -/

namespace Sys2Proof.Machine

/-! ### Messages (R485) -/

/-- Bytes 0 to 19 of a message header and its payload, without the link fields. -/
structure SkyMsg where
  type : Nat
  vc : Nat
  hops : Nat
  src : Nat
  dst : Nat
  part : Nat
  result : Nat
  /-- Target kind, number and window. -/
  target : Nat
  off : Nat
  transfer : Nat
  data : List Byte
  deriving DecidableEq, Repr

/-- A message as it waits: header with link fields 0, then payload (R485). -/
def SkyMsg.bytes (m : SkyMsg) : List Byte :=
  leBytes 1 (m.type + m.vc * 16 + m.hops * 64) ++ leBytes 1 (m.src + m.dst * 8) ++ leBytes 1 m.part ++ leBytes 1 m.result ++ leBytes 2 m.data.length ++
    leBytes 2 m.target ++ leBytes 8 m.off ++ leBytes 4 m.transfer ++ leBytes 4 0 ++ m.data

/-- A message on the lane: link fields filled in, payload padded to 1,024 bytes, trailer with its CRC-32C (R485). -/
def onLane (m : List Byte) (seq ack : Nat) : List Byte :=
  let pay := m.drop 24
  let body := m.take 20 ++ leBytes 4 (seq % 4096 + ack % 4096 * 4096) ++ (if pay.isEmpty then [] else (pay ++ List.replicate 1024 (0 : Byte)).take 1024)
  body ++ leBytes 4 (crc32c body) ++ leBytes 4 0

/-- Base of port n's block (R503). -/
def swBase (n : Nat) : Nat := 0x80100 + 0x40 * n

/-- A port before it has trained. -/
def Port.new : Port := ⟨0, 0, [], 0, false, [], false, 0⟩

/-- The record of port n. -/
def State.port (s : State) (n : Nat) : Port := tgetD s.sky.ports n Port.new

/-- Replaces the record of port n. -/
def State.setPort (s : State) (n : Nat) (p : Port) : State := { s with sky := { s.sky with ports := tput s.sky.ports n p } }

/-- State of port n: 0 down, 1 training, 2 up, 3 miswired, 4 idle (R503). -/
def State.portState (s : State) (n : Nat) : Nat := s.rd (F.swPortStat_state.at (swBase n))

/-- The ports are in use: enabled, and more than one module (R484). -/
def State.skyOn (s : State) : Bool := s.rdB F.swCfg_en && s.rd F.swCfg_count != 0

/-- Modules on the board (R503). -/
def State.modCount (s : State) : Nat := 2 ^ s.rd F.swCfg_count

/-- This module's MOD_ID (R489). -/
def State.modId (s : State) : Nat := s.rd F.swCfg_modId

/-- Credit register of a virtual channel (R487). -/
def credFld (n vc : Nat) : Fld :=
  ([F.swPortCred_vc0, F.swPortCred_vc1, F.swPortCred_vc2].getD vc F.swPortCred_vc0).at (swBase n)

/-- Acknowledgement that a port sends: the last good sequence (R486). -/
def Port.lastGood (p : Port) : Nat := (p.rxSeq + 4095) % 4096

/-- The channel of a waiting message may be sent now: a credit of it is held, and the replay buffer has a free place (R486, R487). -/
def State.canSend (s : State) (n vc : Nat) : Bool := (s.port n).replay.length < 32 && 0 < s.rd (credFld n vc)

/-- Sends one message on a port that can take it. -/
def State.sendNow (s : State) (n vc : Nat) (m : List Byte) : State :=
  let p := s.port n
  let s := s.setPort n { p with txSeq := (p.txSeq + 1) % 4096, replay := p.replay ++ [⟨p.txSeq, vc, m⟩], ackDue := false }
  let s := s.wr (credFld n vc) (s.rd (credFld n vc) - 1)
  let s := s.inc2 (F.swPortTxLo_tx.at (swBase n)) (F.swPortTxHi_tx.at (swBase n)) (m.length - 24)
  s.emit (.skidway n vc (onLane m p.txSeq p.lastGood))

/-- Sends what waits on a port, as far as credits and the replay buffer allow; the messages of one channel keep their order. -/
def State.flushPort : Nat → State → Nat → State
  | 0, s, _ => s
  | k + 1, s, n =>
    let w := (s.port n).waiting
    match w.find? fun e => s.canSend n e.1 with
    | none => s
    | some e =>
      let s := s.setPort n { s.port n with waiting := w.erase e }
      (s.sendNow n e.1 e.2).flushPort k n

/-- Gives a message to a port. [DEDUCED, log entry 14] -/
def State.skySend (s : State) (n vc : Nat) (m : List Byte) : State :=
  let s := s.setPort n { s.port n with waiting := (s.port n).waiting ++ [(vc, m)] }
  s.flushPort ((s.port n).waiting.length) n

/-- Resends everything in the replay buffer of a port (R486). -/
def State.resendAll (s : State) (n : Nat) : State :=
  let p := s.port n
  let s := s.inc (F.swPortErr_replays.at (swBase n)) p.replay.length
  p.replay.foldl (fun (s : State) (k : SkyKept) => s.emit (.skidway n k.vc (onLane k.data k.seq p.lastGood))) s

/-- Frees the replay entries up to an acknowledged sequence; their credits return with it, and what waits may go (R486, R487). [DESIGN CHOICE, log entry 100] -/
def State.acked (s : State) (n ack : Nat) : State :=
  let p := s.port n
  match p.replay.findIdx? fun k => k.seq == ack with
  | none => s
  | some i =>
    let gone := p.replay.take (i + 1)
    let s := s.setPort n { p with replay := p.replay.drop (i + 1), resends := 0 }
    let s := gone.foldl (fun (s : State) (k : SkyKept) => s.wr (credFld n k.vc) (min 16 (s.rd (credFld n k.vc) + 1))) s
    s.flushPort (s.port n).waiting.length n

/-- The receiver asks for a resend after the last good message (R486). [DESIGN CHOICE, log entry 100] -/
def State.sendLnak (s : State) (n : Nat) : State :=
  let m : SkyMsg := ⟨5, 0, 0, s.modId, s.rd (F.swPortStat_peer.at (swBase n)), 0, 0, 0, 0, 0, []⟩
  s.emit (.skidway n 0 (onLane m.bytes (s.port n).txSeq (s.port n).lastGood))

/-- A message with its link fields arrives on a port that has trained: a gap in the sequence is answered with LNAK, otherwise the message counts
and its acknowledgement takes effect (R486). [DESIGN CHOICE, log entry 100] -/
def State.linkIn (s : State) (n : Nat) (l : Link) : Option State :=
  let p := s.port n
  if !p.linked then none
  else if p.rxSeq != l.seq.val then none
  else some ((s.setPort n { p with rxSeq := (p.rxSeq + 1) % 4096, ackDue := true }).acked n l.ack.val)

/-- What a port makes of a message that does not fit the sequence (R486). -/
def State.badLink (s : State) (n : Nat) : State :=
  if (s.port n).linked then (s.inc (F.swPortErr_crc.at (swBase n)) 1).sendLnak n else s

/-! ### Discovery and routing (R489 to R492) -/

/-- Module and port at the other end of module m's port by the board wiring (R489). -/
def wiring (count m port : Nat) : Nat × Nat :=
  match port with
  | 0 => ((m + count - 1) % count, 1)
  | 1 => ((m + 1) % count, 0)
  | _ => ((m + count / 2) % count, 2)

/-- Ports in the order of preference: E, W, X (R491). -/
def portPref : List Nat := [1, 0, 2]

/-- Ports that are up. -/
def State.upPorts (s : State) : List Nat := (List.range 3).filter fun n => s.portState n == 2

/-- First hop towards a module (R491): by one port, else by two over ports that the neighbour reports up; among equal paths the last hop decides
first, as the routes of the table require. [DEDUCED, log entry 101] -/
def State.firstHop (s : State) (d : Nat) : Option Nat :=
  let n := s.modCount
  let up := portPref.filter fun p => s.portState p == 2
  match up.find? fun p => (wiring n s.modId p).1 == d with
  | some p => some p
  | none => (portPref.flatMap fun q => up.map fun p => (q, p)).findSome? fun (q, p) =>
    let m := (wiring n s.modId p).1
    if (s.port p).peerUps.testBit q && (wiring n m q).1 == d then some p else none

/-- Computes the routes again (R491). [DEDUCED, log entry 101] -/
def State.reroute (s : State) : State :=
  let r := (List.range 8).map fun d => if d < s.modCount && d != s.modId then (s.firstHop d) else none
  let reach := listMask ((List.range 8).filter fun d => (r.getD d none).isSome)
  let w := (List.range 8).foldl (fun w d => match r.getD d none with | some p => w + (p + 1) * 4 ^ d | none => w) 0
  (s.wr F.swStat_reach reach).setReg F.swRoute_p0.off (BitVec.ofNat 32 w)

/-- First-hop port to a module by SW_ROUTE. [DEDUCED, log entry 101] -/
def State.routeTo (s : State) (d : Nat) : Option Nat :=
  match bits (s.reg F.swRoute_p0.off).toNat (2 * d) 2 with
  | 0 => none
  | n + 1 => some n

/-- Sends a message towards its destination; without a route it is discarded as R492 lays down. -/
def State.skyRoute (s : State) (m : SkyMsg) : State :=
  match s.routeTo m.dst with
  | some n => s.skySend n m.vc m.bytes
  | none => s.log 0xE0A .port 0 m.dst

/-- Passes a message of another module on (R492). -/
def State.skyForward (s : State) (port : Nat) (m : SkyMsg) : State :=
  if m.hops = 3 || (s.routeTo m.dst).isNone then s.log 0xE0A .port port m.dst else s.skyRoute { m with hops := m.hops + 1 }

/-- Answers a transfer with DONE (R485, R496). -/
def State.sendDoneMsg (s : State) (dst part transfer result : Nat) : State :=
  s.skyRoute ⟨2, 2, 0, s.modId, dst, part, result, 0, 0, transfer, []⟩

/-- Sends HELLO on a port (R485, R490). -/
def State.sendHello (s : State) (n : Nat) : State :=
  let data := leBytes 1 s.modId ++ leBytes 1 n ++ leBytes 1 s.modCount ++ List.replicate 5 (0 : Byte)
  s.skySend n 2 (⟨3, 2, 0, s.modId, s.modId, 0, 0, 0, 0, 0, data⟩ : SkyMsg).bytes

/-- A send phase's port for a transfer: the route, or with two modules the ports that are up in turn (R492). -/
def State.sendPort (s : State) (d idx : Nat) : Option Nat :=
  if s.modCount = 2 && (s.routeTo d).isSome then (let up := s.upPorts; up[idx % up.length]?) else s.routeTo d

/-- Transfers without a DONE whose port went down go out again over the new route, or end their command where there is none (R498, R502). [DEDUCED, log entry 101] -/
def State.resendXfers (s : State) (n : Nat) : State :=
  let mine := s.sky.xfers.filter fun e => e.2.port == n
  mine.foldl (fun (s : State) (e : Nat × Xfer) =>
    match tget s.sky.xfers e.1 with
    | none => s
    | some x => match s.sendPort x.dst x.idx with
      | some q =>
        let s := { s with sky := { s.sky with xfers := tput s.sky.xfers e.1 { x with port := q, sentAt := s.now } } }
        s.skySend q 0 x.msg
      | none => s.dataFault x.slot 0xE06 .port n x.dst) s

/-- Routes change because a port did (R491, R498): transfers to a module that has lost its route end their commands. -/
def State.routesChanged (s : State) : State :=
  let s := s.reroute
  let lost := (s.sky.xfers.filter fun e => (s.routeTo e.2.dst).isNone).map fun e => (e.2.slot, e.2.dst)
  lost.foldl (fun (s : State) (e : Nat × Nat) => if s.sky.xfers.any fun x => x.2.slot == e.1 then s.dataFault e.1 0xE06 .port 0 e.2 else s) s

/-- A port goes down (R488, R502), which is logged of a port that had trained: what its link had not acknowledged is lost, routes are computed again, and this module's transfers are resent. -/
def State.portDown (s : State) (n : Nat) : State :=
  let wait := (s.port n).waiting
  let was := (s.port n).linked
  let s := (s.setPort n Port.new).setReg (swBase n + 0x18) 0
  let s := (let t := s.wr (F.swPortStat_state.at (swBase n)) 0; if was then t.log 0xE03 .port n else t).reroute
  let own := s.sky.xfers.map fun e => e.2.msg
  let s := wait.foldl (fun (s : State) (e : Nat × List Byte) =>
    if own.contains e.2 then s
    else match s.routeTo (bits (field e.2 1 1) 3 3) with
      | some q => if q = n || field e.2 0 1 % 16 = 3 then s else s.skySend q e.1 e.2
      | none => s) s
  (s.resendXfers n).routesChanged

/-- A port starts training. -/
def State.portTrain (s : State) (n : Nat) : State := s.wr (F.swPortStat_state.at (swBase n)) 1

/-- SW_CFG takes effect: enabled ports train, otherwise every port stays in electrical idle (R484). -/
def State.skyConfig (s : State) : State :=
  (List.range 3).foldl (fun (s : State) n =>
    if s.skyOn then (if s.portState n = 4 || s.portState n = 0 then s.portTrain n else s)
    else ((s.setPort n Port.new).setReg (swBase n + 0x18) 0).wr (F.swPortStat_state.at (swBase n)) 4) s |>.reroute

/-- HELLO on a port (R489 to R491): the port becomes up where the peer is the one that the wiring expects, otherwise miswired. -/
def execHelloReceived (port : Fin 3) (l : Link) (modId : Fin 8) (peerPort : Fin 3) (ups : Fin 8) (s : State) : Host.Outcome State Fault Refusal :=
  let n := port.val
  finish <| match s.linkIn n l with
    | none => s.badLink n
    | some s =>
      let s := (s.wr (F.swPortStat_peer.at (swBase n)) modId.val).wr (F.swPortStat_peerPort.at (swBase n)) peerPort.val
      let s := s.inc2 (F.swPortRxLo_rx.at (swBase n)) (F.swPortRxHi_rx.at (swBase n)) 8
      let s := s.setPort n { s.port n with peerUps := ups.val }
      let s := if wiring s.modCount s.modId n = (modId.val, peerPort.val) then s.wr (F.swPortStat_state.at (swBase n)) 2
        else
          let s := s.wr (F.swPortStat_state.at (swBase n)) 3
          if modId.val = s.modId then s.log 0xE05 .port n else s.log 0xE04 .port n
      s.routesChanged

/-- LNAK (R486): everything after the acknowledged sequence is resent; the eighth resend of a message in a row retrains the port (R488). -/
def execLnakReceived (port : Fin 3) (ack : Fin 4096) (s : State) : Host.Outcome State Fault Refusal :=
  let n := port.val
  finish <|
    if !(s.port n).linked then s
    else
      let s := s.acked n ack.val
      let p := s.port n
      if p.replay.isEmpty then s
      else
        let s := (s.setPort n { p with resends := p.resends + 1 }).log 0xE01 .port n
        if 8 ≤ p.resends + 1 then
          (((s.setPort n { p with resends := 0 }).inc (F.swPortStat_retrains.at (swBase n)) 1).portTrain n).log 0xE02 .port n |>.routesChanged
        else s.resendAll n

/-- LACK (R486): replay entries up to the acknowledged sequence are free. -/
def execLackReceived (port : Fin 3) (ack : Fin 4096) (s : State) : Host.Outcome State Fault Refusal :=
  finish (if (s.port port.val).linked then s.acked port.val ack.val else s)

/-- A message with a bad CRC is discarded and LNAK sent (R486). -/
def execSkidwayBadMessage (port : Fin 3) (s : State) : Host.Outcome State Fault Refusal := finish (s.badLink port.val)

/-- A receiver that owes an acknowledgement and has no message to send sends LACK (R486). -/
def execLackTimer (port : Fin 3) (s : State) : Host.Outcome State Fault Refusal :=
  let n := port.val
  let p := s.port n
  finish <|
    if !p.ackDue then s
    else
      let m : SkyMsg := ⟨4, 0, 0, s.modId, s.rd (F.swPortStat_peer.at (swBase n)), 0, 0, 0, 0, 0, []⟩
      (s.setPort n { p with ackDue := false }).emit (.skidway n 0 (onLane m.bytes p.txSeq p.lastGood))

/-- No valid block for 1 µs: the port is down (R488). -/
def execPortSilenceTimeout (port : Fin 3) (s : State) : Host.Outcome State Fault Refusal :=
  finish (if s.portState port.val = 0 || s.portState port.val = 4 then s else s.portDown port.val)

/-- A down port tries training again (R488). -/
def execPortRetryTraining (port : Fin 3) (s : State) : Host.Outcome State Fault Refusal :=
  finish (if s.portState port.val = 0 && s.skyOn then s.portTrain port.val else s)

/-- A port's training or retrain ends (R488, R490): the port holds 16 credits of each channel, resends what is unacknowledged and sends HELLO,
or it is down. -/
def execSkidwayPortTrained (port : Fin 3) (ok : Bool) (s : State) : Host.Outcome State Fault Refusal :=
  let n := port.val
  finish <|
    if s.portState n != 1 then s
    else if !ok then s.portDown n
    else
      let p := s.port n
      let s := if p.linked then s else (List.range 3).foldl (fun (s : State) vc => s.wr (credFld n vc) 16) s
      let s := s.setPort n { p with linked := true }
      (s.resendAll n).sendHello n

/-! ### The send phase (R494 to R498) -/

/-- Begins the transfers of a command: each piece that no record holds as accepted goes out as a WRITE. -/
def State.beginSend (s : State) (slot : Nat) (c : Cmd) : State :=
  let ps := (s.toSend c).zipIdx
  let s := s.modCmd slot fun c => { c with sent := 1 }
  ps.foldl (fun (s : State) (e : (Nat × Nat × Nat) × Nat) =>
    let (w, a, n) := e.1
    if c.accepted.contains e.2 || (tget s.cmds slot).isNone then s
    else
      let o := 0x81000 + 0x20 * w
      let dst := s.rd (F.txwCtl_dst.at o)
      match s.sendPort dst e.2, s.dramRead c.desc.part a n with
      | none, _ => s.dataFault slot 0xE06 .port 0 dst
      | _, .denied x => s.dataFault slot 0xB07 .scheduler 0 x
      | _, .bad x => s.dataFault slot 0xB02 .scheduler 0 x
      | some q, .ok data =>
        let kind := s.rd (F.txwCtl_kind.at o)
        let t := s.rd (F.txwCtl_target.at o)
        let base := s.rd2 (F.txwBaseLo_base.at o) (F.txwBaseHi_base.at o)
        let m : SkyMsg := ⟨1, 0, 0, s.modId, dst, c.desc.part, 0, kind + t * 4 + s.rd (F.txwCtl_window.at o) * 256, a - base, slot + e.2 * 4096, data⟩
        let x : Xfer := { slot := slot, idx := e.2, win := w, dst := dst, target := if kind = 2 then 64 + t % 4 else t, port := q, msg := m.bytes, sentAt := s.now }
        (({ s with sky := { s.sky with xfers := tput s.sky.xfers (slot * 1024 + e.2) x } }).modCmd slot fun c =>
          { c with skySent := c.skySent + data.length }).skySend q 0 m.bytes) s

/-- A send phase whose transfers are all accepted is complete (R496). -/
def State.sendCheck (s : State) (slot : Nat) : State :=
  if s.sky.xfers.any fun e => e.2.slot == slot then s else s.modCmd slot fun c => if c.sent = 1 then { c with sent := 2 } else c

/-- SEND_PHASE: every member has reported, and the commit unit sends the bytes staged for other modules (R496). -/
def execSendPhase (slot : Fin 4096) (s : State) : Host.Outcome State Fault Refusal :=
  finish <| match tget s.cmds slot.val with
    | none => s
    | some c => if !c.commitDue || s.pow.paused || c.committed || c.sent != 0 || (s.toSend c).isEmpty then s else (s.beginSend slot.val c).sendCheck slot.val

/-- DONE (R496, R178): of another module it is passed on; of this module's transfer it is recorded, or it kills or ends the command. [DEDUCED, log entry 102] -/
def execDoneReceived (port : Fin 3) (l : Link) (src dst : Fin 8) (hops : Fin 4) (slot : Fin 4096) (idx : Fin 1024) (result : Fin 9) (s : State) :
    Host.Outcome State Fault Refusal :=
  let n := port.val
  finish <|
    if s.portState n != 2 then s
    else match s.linkIn n l with
    | none => s.badLink n
    | some s =>
      if dst.val ≠ s.modId then
        s.skyForward n ⟨2, 2, hops.val, src.val, dst.val, 0, result.val, 0, 0, slot.val + idx.val * 4096, []⟩
      else
        let k := slot.val * 1024 + idx.val
        match tget s.sky.xfers k with
        | none => s
        | some x =>
          let s := { s with sky := { s.sky with xfers := tdel s.sky.xfers k } }
          match result.val with
          | 0 =>
            let s := (s.modCmd slot.val fun c => { c with accepted := c.accepted ++ [idx.val] }).inc (F.txwSent_sent.at (0x81000 + 0x20 * x.win)) 1
            s.sendCheck slot.val
          | 8 => s.dataFault slot.val 0xE08 .port n x.dst
          | r => s.senderResult slot.val (.port, n) x.dst (.reject r)

/-- A transfer has had no DONE for SW_ACK_TO µs: its command is killed and re-run (R498). [DESIGN CHOICE, log entry 106] -/
def execSwAckTimeout (slot : Fin 4096) (idx : Fin 1024) (s : State) : Host.Outcome State Fault Refusal :=
  finish <| match tget s.sky.xfers (slot.val * 1024 + idx.val) with
    | none => s
    | some x =>
      if s.nsSince x.sentAt < max 10 (s.rd F.swAckTo_us) * 1000 then s else s.containedKill slot.val 0xE07 .port x.port x.dst idx.val

/-! ### Receiving (R497 to R499) -/

/-- Base of DRAM window n's registers (R503). -/
def rxwBase (n : Nat) : Nat := 0x82000 + 0x20 * n

/-- A WRITE for a DRAM window: the result its DONE carries (R375, R497, R499). [DEDUCED, log entry 102] -/
def State.rxWrite (s : State) (w : SkyWrite) (tag : Nat) (data : List Byte) : Nat × State :=
  let o := rxwBase w.window.val
  let ids := tgetD s.sky.rxIds w.window.val []
  let base := s.rd2 (F.rxwBaseLo_base.at o) (F.rxwBaseHi_base.at o)
  let limit := s.rd2 (F.rxwLimitLo_limit.at o) (F.rxwLimitHi_limit.at o)
  let reject (s : State) : Nat × State := (8, s.inc (F.rxwStat_rejects.at o) 1)
  if s.rdB (F.rxwCtl_en.at o) && ids.contains tag then (0, s)
  else if !s.rdB (F.rxwCtl_en.at o) || s.rd (F.rxwStat_state.at o) != 1 || !(s.rd (F.rxwCtl_modMask.at o)).testBit w.src.val ||
      w.part.val != s.rd (F.rxwCtl_partition.at o) || limit < base + w.off.val + data.length then reject s
  else match s.dramWrite w.part.val (base + w.off.val) data with
    | none => reject (s.logFault { mkFault 0xB07 .port 0 (base + w.off.val) with cls := .refused, part := some w.part.val })
    | some s =>
      let c := s.rd (F.rxwWcnt_wcnt.at o) + 1
      let s := s.wr (F.rxwWcnt_wcnt.at o) c
      let s := { s with sky := { s.sky with rxIds := tput s.sky.rxIds w.window.val (ids ++ [tag]) } }
      let lim := s.rd (F.rxwWlim_wlim.at o)
      if lim != 0 && c == lim then
        let s := s.wr (F.rxwStat_state.at o) 2
        (0, if s.rdB (F.rxwCtl_irqEn.at o) then s.raiseVec 0 (s.rd (F.rxwCtl_vector.at o)) else s)
      else (0, s)

/-- A WRITE on a port (R492, R497, R499): passed on, written to a DRAM window, or on its way to a bole's or grove's window with its arrival stamp. [DEDUCED, log entry 84; DEDUCED, log entry 102] -/
def execSkidwayWriteReceived (port : Fin 3) (l : Link) (w : SkyWrite) (data : List Byte) (s : State) : Host.Outcome State Fault Refusal :=
  let n := port.val
  let data := data.take 1024
  let tr := w.slot.val + w.idx.val * 4096
  let tag := w.src.val * 2 ^ 22 + tr
  finish <|
    if s.portState n != 2 then s
    else match s.linkIn n l with
    | none => s.badLink n
    | some s =>
      let s := s.inc2 (F.swPortRxLo_rx.at (swBase n)) (F.swPortRxHi_rx.at (swBase n)) data.length
      if w.dst.val ≠ s.modId then
        s.skyForward n ⟨1, 1, w.hops.val, w.src.val, w.dst.val, w.part.val, 0, w.kind.val + w.target.val * 4 + w.window.val * 256, w.off.val, tr, data⟩
      else
      let s := s.acAdd w.part.val 0x58 data.length
      if w.kind.val = 0 then
        let (r, s) := s.rxWrite w tag data
        s.sendDoneMsg w.src.val w.part.val tr r
      else
        let dst := if w.kind.val = 2 then 64 + w.target.val % 4 else w.target.val
        let (landing, p) := s.winTarget dst
        let known := match tget (s.winTab p landing) w.window.val with | some x => x.ids.contains tag | none => false
        if known then s.sendDoneMsg w.src.val w.part.val tr 0
        else { s with remote := s.remote ++ [
          { src := 64 + w.src.val, part := w.part.val, slot := w.slot.val, p := 0, ctx := 0, dst := dst, win := w.window.val, off := w.off.val
            data := data, stage := none, stamp := s.now, tag := tag }] }

/-- A write of SW_RXW_CTL (R499, R503): en opens the window and clears wcnt, or closes it; the transfer IDs go when the window closes. [DEDUCED, log entry 102] -/
def execSwRxwCtlWrite (n : Fin 16) (v : Word) (s : State) : Host.Outcome State Fault Refusal :=
  let o := rxwBase n.val
  let s := s.regWrite (o + 0x10) v.toNat
  let s := { s with sky := { s.sky with rxIds := tdel s.sky.rxIds n.val } }
  finish (if v.toNat.testBit 0 then (s.wr (F.rxwWcnt_wcnt.at o) 0).wr (F.rxwStat_state.at o) 1 else s.wr (F.rxwStat_state.at o) 0)

/-- REMOTE_WRITE: the `i`-th write in flight arrives at its window and is tested (R177); writes in flight arrive in any order. The sender of this
module takes the answer, another module gets a DONE (R178, R499). [DESIGN CHOICE, log entry 78] -/
def execRemoteWrite (i : Nat) (s : State) : Host.Outcome State Fault Refusal :=
  finish <| match s.remote[i]? with
    | none => s
    | some r =>
      let s := { s with remote := s.remote.eraseIdx i }
      if 64 ≤ r.src then
        let (res, s) := s.deliver r r.stamp
        s.sendDoneMsg (r.src - 64) r.part (r.tag % 2 ^ 22) res.done
      else
        let (res, s) := s.deliver r s.now
        s.senderResult r.slot (s.targetSource r.dst) r.off res

end Sys2Proof.Machine
end

