-- ==== Sys2Proof/Machine/Plan.lean ====
section
/-! DEFINITION. The management plan: its image, the checks of a plan slot, and what applying a plan makes of the state (18, R535 to R545). -/

namespace Sys2Proof.Machine

/-- `n` bytes of an image from `lo` on. -/
def bytesAt (b : List Byte) (lo n : Nat) : List Byte := (b.drop lo).take n

/-! ### The image (R535) -/

/-- Length of an image, from its header. -/
def planLen (b : List Byte) : Nat := field b 8 4
/-- Its section count. -/
def planCount (b : List Byte) : Nat := field b 12 4
/-- Its serial number. -/
def planSerial (b : List Byte) : Nat := field b 16 8
/-- A flag: 0 seal_mode, 1 owner_lock, 2 migrated. -/
def planFlag (b : List Byte) (i : Nat) : Bool := (field b 28 2).testBit i
/-- Its owner_hash. -/
def planOwner (b : List Byte) : List Byte := bytesAt b 32 48

/-- A section: its index in the table, kind, version, offset, length and CRC. -/
structure PlanSec where
  idx : Nat
  id : Nat
  version : Nat
  off : Nat
  len : Nat
  crc : Nat
  deriving DecidableEq, Repr

/-- The section table. -/
def planSecs (b : List Byte) : List PlanSec := (List.range (planCount b)).map fun i =>
  let o := 128 + 16 * i
  ⟨i, field b o 2, field b (o + 2) 2, field b (o + 4) 4, field b (o + 8) 4, field b (o + 12) 4⟩

/-- Body of a section. -/
def PlanSec.body (x : PlanSec) (b : List Byte) : List Byte := bytesAt b x.off x.len

/-- The first fault in the form of an image, as a section index (0 for the header); none for a well-formed one (R535, R538). [DEDUCED, log entry 37] -/
def State.planForm (s : State) (b : List Byte) : Option Nat :=
  if field b 0 4 ≠ 0x4E414C50 ∨ (field b 4 2 ≠ 1 ∧ field b 4 2 ≠ 2) ∨ field b 6 2 ≠ 128 ∨ 2 ^ 24 < planLen b ∨ b.length < planLen b ∨
      planLen b < 128 + 16 * planCount b + 256 ∨ planCount b = 0 ∨ 64 < planCount b ∨
      (field b 24 4 ≠ 0 ∧ field b 24 4 ≠ s.rd F.idArithSig_sig) then some 0
  else ((planSecs b).find? fun x => x.id == 0 || 9 < x.id || (field b 4 2 == 2 && x.version != 1) || x.off % 64 != 0 ||
      planLen b < x.off + x.len + 256 || crc32c (x.body b) != x.crc || (planSecs b).any fun y => y.idx < x.idx && y.id == x.id).map (·.idx)

/-- The signature block of an image (R535). -/
def planBlock (b : List Byte) : List Byte := bytesAt b (planLen b - 256) 256

/-- Does an owner signature block over some bytes hold: the key hashes to the owner hash and the signature verifies (R535, R538)? -/
def ownerSigned (owner body block : List Byte) : Bool :=
  Config.sha384 (block.take 97) == owner && Config.sigOk (block.take 97) body (bytesAt block 100 96)

/-- The steward image that runs (R575). -/
def State.stewardBank (s : State) : Bank := if s.rdB F.seStat_bank then s.sec.stewB else s.sec.stewA

/-- Slot A (0) or B (1) of the flash. -/
def Security.slot (x : Security) (i : Nat) : List Byte := if i = 0 then x.slotA else x.slotB

/-- Replaces a plan slot. -/
def Security.setSlot (x : Security) (i : Nat) (b : List Byte) : Security := if i = 0 then { x with slotA := b } else { x with slotB := b }

/-- The tests of R538 and R548 on a slot: a code of PLAN_SIGNATURE, PLAN_ROLLBACK or PLAN_INVALID with a section index, or none where it passes. [DEDUCED, log entry 37; DEDUCED, log entry 42] -/
def State.planTest (s : State) (i : Nat) : Option (Nat × Nat) :=
  let b := s.sec.slot i
  let body := b.take (planLen b - 256)
  match s.planForm b with
  | some k => some (0x343, k)
  | none =>
    if planSerial b < s.sec.planCtr then some (0x342, 0)
    else if s.sec.owner.any (· != planOwner b) then some (0x341, 0)
    else if planFlag b 2 then
      let o := s.sec.slot (1 - i)
      if s.sec.unlocked = 0 && Config.sha384 (planBlock b |>.take 97) == planOwner b && Config.macOk s.stewardBank.ver body (bytesAt (planBlock b) 100 48) &&
          (s.sec.migDone || Config.sha384 (o.take (planLen o)) == bytesAt b 80 48) then none else some (0x341, 0)
    else if ownerSigned (planOwner b) body (planBlock b) then none else some (0x341, 0)

/-! ### Registers (R536, R537) -/

/-- The offset of a partition register's live copy, for the live or the shadow copy of an epoch-staged field (R289). -/
def liveOff (o : Nat) : Nat := if 0x31000 ≤ o ∧ o < 0x32000 ∧ 0x80 ≤ o % 0x100 ∧ o % 0x100 < 0xA0 then o - 0x80 else o

/-- Is this the live copy of a register with epoch-staged fields? -/
def stagedOff (o : Nat) : Bool := 0x31000 ≤ o && o < 0x32000 && o % 0x100 < 0x20

/-- The bits of a register that a plan may set. [DEDUCED, log entry 40] -/
def planMask (o : Nat) : Nat := ((fldsAt o).filter fun f => f.acc == .rwp || (stagedOff o && !(o % 0x100 == 0 && (f.lo == 0 || f.lo == 3)))).foldl
  (fun m f => m ||| (2 ^ f.w - 1) <<< f.lo) 0

/-- The records of a registers section: offset of the live copy, mask, value. -/
def regRecords : Nat → List Byte → List (Nat × Nat × Nat)
  | 0, _ => []
  | n + 1, b => (liveOff (field b 0 4), field b 4 4, field b 8 4) :: regRecords n (b.drop 16)

/-- The records keep R537: only bits a plan may set, and no bit twice. -/
def regsOk : List (Nat × Nat × Nat) → Bool
  | [] => true
  | (o, m, _) :: rest => o < fnStride && m &&& planMask o == m && (rest.all fun r => r.1 != o || r.2.1 &&& m == 0) && regsOk rest

/-- Writes the records in their order. [DEDUCED, log entry 40] -/
def State.applyRegs (s : State) (l : List (Nat × Nat × Nat)) : State :=
  l.foldl (fun (s : State) r => s.setReg r.1 (BitVec.ofNat 32 (((s.reg r.1).toNat &&& (2 ^ 32 - 1 - r.2.1)) ||| (r.2.2 &&& r.2.1)))) s

/-- Size of a deck's bookkeeping area (R395). -/
def bookSize (count : Nat) : Nat := 8 * count + alignUp (cdiv count 8) 64

/-- The two ranges of a deck (R394, R395). -/
def State.deckRanges (s : State) (d : Nat) : List (Nat × Nat) :=
  let (base, size, n) := s.deckGeom d
  let book := s.rd (F.dkBookLo_book.at (dkBase d)) + s.rd (F.dkBookHi_book.at (dkBase d)) * 2 ^ 32
  [(base, base + size * n), (book, book + bookSize n)]

/-- A range lies inside the data space and inside granules of the module key. -/
def State.moduleRange (s : State) (r : Nat × Nat) : Bool :=
  r.2 ≤ dramSize && (List.range ((r.2 - 1) / 2 ^ 30 - r.1 / 2 ^ 30 + 1)).all fun i => s.keyOf ((r.1 / 2 ^ 30 + i) * 2 ^ 30) == moduleKey

/-- The conditions of R396 for a deck that the plan configures. -/
def State.deckValid (s : State) (d : Nat) : Bool :=
  let b := dkBase d
  let n := s.rd (F.dkCount_count.at b)
  let sl := s.rd (F.dkCfg_sizeLog2.at b)
  8 ≤ sl && sl ≤ 24 && 1 ≤ n && n ≤ 2 ^ 24 && s.rd (F.dkBaseLo_base.at b) % 65536 == 0 && (s.deckRanges d).all s.moduleRange &&
    ((List.range 64).all fun e => e == d || !s.rdB (F.dkCfg_en.at (dkBase e)) ||
      (s.deckRanges d).all fun x => (s.deckRanges e).all fun y => x.2 ≤ y.1 || y.2 ≤ x.1) &&
    s.rd (F.dkThrottle_throttle.at b) ≤ s.rd (F.dkWarn_warn.at b) && s.rd (F.dkStop_stop.at b) ≤ s.rd (F.dkThrottle_throttle.at b) &&
    s.rd (F.dkResv_resv.at b) + s.rd (F.dkStop_stop.at b) < n

/-- Decks that fail R396 stay disabled. -/
def State.checkDecks (s : State) : State := ((List.range 64).filter fun d => s.rdB (F.dkCfg_en.at (dkBase d)) && !s.deckValid d).foldl
  (fun (s : State) d => (s.wr (F.dkStat_disabled.at (dkBase d)) 1).log 0xC0D .deck d) s

/-- Sum of a live epoch-staged field over the partitions. -/
def State.liveSum (s : State) (f : Fld) : Nat := (List.range 16).foldl (fun n p => n + s.rd (f.at (ptBase p))) 0

/-- The sums of the table Partition resources and the deck total hold (R539). -/
def State.sumsOk (s : State) : Bool :=
  s.liveSum F.ptShare_dram ≤ 256 && s.liveSum F.ptShare_decode ≤ 256 && s.liveSum F.ptShare_encode ≤ 256 && s.liveSum F.ptQuota_inflight ≤ 4096 &&
    s.liveSum F.ptQuota_contexts ≤ 16384 && ((List.range 16).all fun p => (List.range p).all fun q => s.ownMask p &&& s.ownMask q == 0) &&
    ((List.range 16).all fun p => (List.range 3).all fun i => let v := s.rd (F.ptSlice_slice.at (ptBase p + 4 * i)); 100 ≤ v && v ≤ 100000) &&
    (List.range 64).foldl (fun n d => if s.rdB (F.dkCfg_en.at (dkBase d)) then n + s.rd (F.dkCount_count.at (dkBase d)) else n) 0 ≤ 2 ^ 28

/-- The shadow copies take the live values (R289). -/
def State.loadShadow (s : State) : State := (List.range 16).foldl (fun (s : State) p =>
  let b := ptBase p
  let s := (s.wr (F.ptShCtrl_livePreempt.at b) (s.rd (F.ptCtrl_livePreempt.at b))).wr (F.ptShCtrl_groupEn.at b) (s.rd (F.ptCtrl_groupEn.at b))
  [0x4, 0x8, 0xC, 0x10, 0x14, 0x18, 0x1C].foldl (fun (s : State) o => s.setReg (b + o + 0x80) (s.reg (b + o))) s) s

/-- What follows from the registers once they stand: shadow copies, owners of the boles, enabled partitions, group_ok, decks, the power limit and the Skidway
(R26, R268, R287, R289, R396, R484, R518). [DESIGN CHOICE, log entry 41] -/
def State.afterRegs (s : State) : State :=
  let s := s.loadShadow
  let s := (List.range 16).foldl (fun (s : State) p => s.wrB (F.ptCtrl_enabled.at (ptBase p)) (s.rd (F.ptQuota_inflight.at (ptBase p)) != 0)) s
  let s := (List.range 64).foldl (fun (s : State) n => s.showOwner n (blBase (s.physOf n))) s
  let s := s.checkDecks
  let cap := s.rd F.pwLimitCap_ceiling
  let oob := s.rd F.pwLimitCap_oob
  let s := (s.wr F.pwLimit_host cap).wr F.pwLimit_eff (min cap (if oob = 0 then cap else oob))
  s.skyConfig

/-! ### Objects -/

/-- A descriptor that carries a create operation's words. -/
def createDesc (part : Nat) (shapes args : List Nat) : Desc :=
  { cls := 0, after := false, noIrq := false, seedIdx := 0, op := 0, part := part, target := 0, tag := 0, ctx := 0, ctxValid := false, epoch := 0, step := 0
    notBefore := noStamp, deadline := noStamp, shapes := shapes, args := args }

/-- A queue record: one of the create operations of R459, in module DRAM (R536). -/
def State.planQueue (s : State) (r : Nat × Nat × List Nat × List Nat) : Option State :=
  let d := createDesc r.2.1 r.2.2.1 r.2.2.2
  if argSpace (d.arg 0) ≠ 0 ∨ argSpace (d.arg 1) ≠ 0 ∨ 16 ≤ r.2.1 then none
  else match r.1 with
    | 1 => match s.newSq r.2.1 d with
      | .ok q => some { s with sqs := tput s.sqs (d.shape 0) { q with plan := true } }
      | .error _ => none
    | 3 => match s.newCq r.2.1 d with
      | .ok q => some { s with cqs := tput s.cqs (d.shape 0) { q with plan := true } }
      | .error _ => none
    | 5 => match s.newRing r.2.1 d with
      | .ok q => some { s with mrings := tput s.mrings (d.shape 0) { q with plan := true } }
      | .error _ => none
    | _ => none

/-- A cut-list record receives the next handle (R195, R536). -/
def State.planList (s : State) (r : Nat × List Byte) : Option State :=
  if 16 ≤ r.1 then none
  else match s.registerCheck r.1 r.2 r.2.length with
    | .ok l => (tfree s.lists 4096).map fun h => { s with lists := tput s.lists h { l with plan := true } }
    | .error _ => none

/-- A dictionary record (R359, R536): a dictionary of the plan belongs to no partition. -/
def State.planDict (s : State) (b : List Byte) : Option State :=
  if dictOk b then (tfree s.dicts 16).map fun h => { s with dicts := tput s.dicts h ⟨none, b⟩ } else none

/-- A context record (R461, R536). -/
def State.planCtx (s : State) (r : Nat × Nat × List Byte) : Option State :=
  if 16 ≤ r.2.1 || s.openEarly r.2.1 r.1 != 0 || r.2.2.length != ctxSize r.1 || s.openRecord r.2.1 r.1 r.2.2 != 0 then none
  else (s.openCtx r.2.1 r.1 r.2.2).map fun x => { x.2 with ctxs := tmod x.2.ctxs x.1 fun c => { c with plan := true } }

/-- A seed record (R311). -/
def State.planSeed (s : State) (r : Nat × Nat × Nat) : Option State :=
  if 16 ≤ r.1 ∨ 256 ≤ r.2.1 then none else some { s with seeds := tput s.seeds (r.1 * 256 + r.2.1) ⟨r.2.2 % 2 ^ 64, true⟩ }

/-- The template records of a section (table Template record). -/
def templateRecords : Nat → List Byte → Option (List Template)
  | 0, b => if b.isEmpty then some [] else none
  | n + 1, b =>
    if b.isEmpty then some []
    else
      let k := field b 4 1
      let m := field b 5 1
      if b.length < 16 + 144 * k ∨ k = 0 ∨ 4 < k ∨ 8 < m then none
      else
        let t : Template := { ctx := field b 0 2, sq := field b 2 2, preloads := (List.range m).map fun i => field b (8 + i) 1
                              stages := (List.range k).map fun i => (bytesAt b (16 + 144 * i) 128, bytesAt b (144 + 144 * i) 16) }
        (templateRecords n (b.drop (16 + 144 * k))).map fun l => t :: l

/-- A template enters: its trigger is a decode context, its SQ is one of the plan and of the same partition, and it becomes the SQ's only producer (R425, R544). -/
def State.planTemplate (s : State) (t : Template) : Option State :=
  match tget s.ctxs t.ctx, tget s.sqs t.sq with
  | some x, some q =>
    if x.kind != 0 || q.part != x.part then none
    else some { s with sqs := tput s.sqs t.sq { q with templated := true }, boot := { s.boot with templates := s.boot.templates ++ [t] } }
  | _, _ => none

/-- Enters records one after another. -/
def enterAll {α : Type} (f : State → α → Option State) (s : State) (l : List α) : Option State := l.foldl (fun s x => s.bind fun s => f s x) (some s)

/-! ### The whole plan -/

/-- What one section makes of the state; none where a check of R539 fails. [DESIGN CHOICE, log entry 36] -/
def State.applySection (s : State) (id : Nat) (b : List Byte) : Option State :=
  match id with
  | 2 =>
    let l := regRecords (b.length / 16) b
    if b.length % 16 ≠ 0 ∨ 4096 < l.length then none
    else if !regsOk l then none
    else if !(s.applyRegs l).sumsOk then none else some (s.applyRegs l).afterRegs
  | 3 => if 4096 < (Config.planQueues b).length then none else enterAll State.planQueue s (Config.planQueues b)
  | 4 => if 16384 < (Config.planCtxs b).length then none else enterAll State.planCtx s (Config.planCtxs b)
  | 5 => if 4096 < (Config.planLists b).length then none else enterAll State.planList s (Config.planLists b)
  | 6 => if 16 < (Config.planDicts b).length then none else enterAll State.planDict s (Config.planDicts b)
  | 7 => if 4096 < (Config.planSeeds b).length then none else enterAll State.planSeed s (Config.planSeeds b)
  | 8 =>
    let l := Config.planPreloads b
    if 256 < l.length then none
    else some { s with boot := { s.boot with preloads := l.map fun r => ⟨r.1, r.2.1, r.2.2.1, r.2.2.2 % 16, 0⟩ } }
  | 9 => match templateRecords 1025 b with
    | some l => if 1024 < l.length then none else enterAll State.planTemplate s l
    | none => none
  | _ => some s

/-- The order in which sections are applied (R539): registers, seeds, queues, cut lists, dictionaries, contexts, templates, preloads. -/
def planOrder : List Nat := [2, 7, 3, 5, 6, 4, 9, 8]

/-- Applies a plan: the index of the section that fails, or the state that the plan gives (R539). A plan without a registers section leaves every register
at its reset value. [DESIGN CHOICE, log entry 39] -/
def State.applyPlan (s : State) (b : List Byte) : Except Nat State :=
  let secs := planSecs b
  let s := if secs.any (·.id == 2) then s else s.afterRegs
  planOrder.foldl (fun (r : Except Nat State) id => match r with
    | .error k => .error k
    | .ok s => match secs.find? (·.id == id) with
      | none => .ok s
      | some x => match s.applySection id (x.body b) with
        | some s => .ok s
        | none => .error x.idx) (.ok s)

/-- The safe state (R540): partition 0 owns the die, every granule has key index 0, and nothing else exists. [DESIGN CHOICE, log entry 41] -/
def State.safeState (s : State) : State :=
  let s := (List.range 112).foldl (fun (s : State) i => s.setReg (0x50900 + 4 * i) 0) s
  let s := (s.wr (F.ptOwnLo_own.at (ptBase 0)) (2 ^ 32 - 1)).wr (F.ptOwnHi_own.at (ptBase 0)) (2 ^ 32 - 1)
  s.afterRegs.wr (F.ptCtrl_enabled.at (ptBase 0)) 1

/-- Keeps the objects of the plan, for the resets of functions (R438). -/
def State.keepBase (s : State) : State :=
  { s with boot := { s.boot with base := ⟨s.sqs, s.cqs, s.mrings, s.lists, s.dicts, s.ctxs, s.seeds⟩ } }

/-- Entries of a table that belong to a partition. -/
def ofPart {α : Type} (p : Nat) (part : α → Nat) (t : Tab α) : Tab α := t.filter fun e => part e.2 == p

/-- Adds entries where their numbers are free. [DESIGN CHOICE, log entry 47] -/
def tadd {α : Type} (t u : Tab α) : Tab α := u.foldl (fun t e => if (tget t e.1).isSome then t else tput t e.1 e.2) t

/-- A partition returns to the state that the plan gives it (R438 step 4, R543). [DESIGN CHOICE, log entry 47] -/
def State.restorePart (s : State) (p : Nat) : State :=
  let b := s.boot.base
  let lo := 256 * p
  { s with
    sqs := tadd (s.sqs.filter fun e => e.2.part != p) (ofPart p (·.part) b.sqs)
    cqs := tadd (s.cqs.filter fun e => e.2.part != p) (ofPart p (·.part) b.cqs)
    mrings := tadd (s.mrings.filter fun e => e.2.part != p) (ofPart p (·.part) b.mrings)
    lists := tadd (s.lists.filter fun e => e.2.part != p) (ofPart p (·.part) b.lists)
    dicts := s.dicts.filter fun e => e.2.part != some p
    ctxs := tadd (s.ctxs.filter fun e => e.2.part != p) (ofPart p (·.part) b.ctxs)
    seeds := tadd (s.seeds.filter fun e => e.1 < lo || lo + 256 ≤ e.1) (b.seeds.filter fun e => lo ≤ e.1 && e.1 < lo + 256) }

end Sys2Proof.Machine
end

