-- ==== Sys2Proof/Machine/Startup.lean ====
section
/-! DEFINITION. Start-up: what restarts the module and what its stages do, from the boot ROM to ready, with the choice of the plan, seal, preloads and the safe
state (18, R529 to R549, and R575 to R579 of 20). -/

namespace Sys2Proof.Machine

/-! ### What a start-up resets (R529, R531) -/

/-- The register at an offset with its writable fields at reset and its read-only fields as they are. [DEDUCED, log entry 44] -/
def keepReadOnly (o : Nat) (v : Word) : Word := BitVec.ofNat 32 ((fldsAt o).foldl (fun n f =>
  match f.acc with
  | .ro | .w1c => n
  | _ => setBits n f.lo f.w f.reset) v.toNat)

/-- What a register of the management domain holds after the start of a start-up; none for a register that resets. -/
def keptReg (e : Nat × Word) : Option (Nat × Word) :=
  let o := e.1
  if (0x20000 ≤ o ∧ o < 0x20900 ∧ o ≠ 0x20018 ∧ o ≠ 0x2001C) ∨ (0xA0000 ≤ o ∧ o ≤ 0xA0008) ∨ o = 0xA0110 ∨ o = 0x418 ∨ o = 0x10C then
    some (o, keepReadOnly o e.2)
  else if o = F.tlStatus_lock.off then some (o, e.2 &&& 0x18)
  else if o = F.ckSrcStat_present.off then some (o, e.2 &&& 0xFF)
  else if o = F.cfgPmcsr_state.off + cfgOff 0 then some (o, e.2 &&& 0x8000)
  else none

/-- The registers of the security chapter that mirror its state (R603). [DESIGN CHOICE, log entry 3] -/
def State.publishSec (s : State) : State :=
  let x := s.sec
  let s := (s.wrB F.seStat_debugUnlocked (x.unlocked != 0)).wrB F.seStat_debugPending (x.unlockNext != 0)
  let s := (s.wr F.seStat_debugLevel x.unlocked).wrB F.seStat_ownerSet x.owner.isSome
  let s := s.wrB F.seStat_trial x.trial
  ((s.wr F.seSvn_fw x.fwSvn).wr F.seSvn_ucode x.ucSvn).wr F.seOwnerGen_gen x.ownerGen

/-- The measurements of the table Attestation measurements in index order, as they stand at the moment of the response (R583, R584). -/
def State.measurements (s : State) : List Byte :=
  let x := s.sec
  leBytes 4 Config.romVersion.toNat ++
    Config.sha384 s.stewardBank.image ++ leBytes 8 s.stewardBank.svn ++ leBytes 1 (s.rd F.seStat_bank) ++ leBytes 1 (b2n x.trial) ++
    ((List.range 6).flatMap fun e => (s.engine e).ucode) ++
    Config.sha384 s.boot.plan ++ leBytes 8 (planSerial s.boot.plan) ++ leBytes 1 (s.rd F.glStatus_migrated) ++
    leBytes 1 (b2n s.sealed) ++ leBytes 1 (s.rd F.seStat_debugUnlocked + 2 * s.rd F.seStat_debugPending + 4 * s.rd F.seStat_debugLevel) ++
    leBytes 1 (b2n (s.boot.stage == 14)) ++ leBytes 4 (s.rd F.idArithSig_sig) ++ leBytes 8 x.fwSvn ++ leBytes 8 x.ucSvn ++ leBytes 8 x.planCtr ++
    leBytes 8 x.ownerGen

/-- The steward issues its certificates with the current measurements (R582): the alias certificate, signed with the DIK, and the CKA certificate, signed
with the alias key; in an unlocked start-up the self-issued one marked debug, for no other key then exists (R593). [DESIGN CHOICE, log entry 121] -/
def State.issueCerts (s : State) : State :=
  let x := s.sec
  let imageKey : CertKey := .imageKey (Config.sha384 s.stewardBank.image)
  let m := s.measurements
  { s with sec := { x with issued :=
    if x.unlocked ≠ 0 then [⟨.debug, .debug, false, m⟩]
    else [⟨imageKey, .dik, false, m⟩, ⟨.cka (x.owner.getD []) x.ownerGen, imageKey, false, m⟩] } }

/-- The bytes of a certificate (R582). -/
def Cert.bytes (c : Cert) : List Byte := match c.key with
  | .root => Config.certForm 0 [] c.namesSerial c.measured
  | .manufacturing => Config.certForm 1 [] c.namesSerial c.measured
  | .dik => Config.certForm 2 [] c.namesSerial c.measured
  | .imageKey h => Config.certForm 3 h c.namesSerial c.measured
  | .cka o g => Config.certForm 4 (o ++ leBytes 8 g) c.namesSerial c.measured
  | .debug => Config.certForm 5 [] c.namesSerial c.measured

/-- The certificate slot (R583, R593): the chain up to the alias certificate, or the certificate marked debug, behind the length and root hash of an SPDM
chain. [PRESUMED, log entry 51] -/
def State.certSlot (s : State) : List Byte :=
  let certs := if s.sec.unlocked ≠ 0 then s.sec.issued else s.sec.chain ++ s.sec.issued.take 1
  let root := Config.sha384 ((certs.head?.map Cert.bytes).getD [])
  let body := root ++ certs.flatMap Cert.bytes
  leBytes 2 (4 + body.length) ++ leBytes 2 0 ++ body

/-- A start-up begins at stage 1 (R529 to R531, R578, R593): everything outside the management domain is new, the timeline keeps running, DRAM contents are lost
with their keys, and the flash is as it was. Causes: 1 auxiliary power-on, 2 48 V power-on, 3 MOD_RESET#, 4 restart. [DEDUCED, log entry 44] -/
def State.beginStart (s : State) (cause : Nat) : State :=
  let r := State.reset
  let x := s.sec
  let frozen := x.unlockNext != 0
  let back := x.trial && 2 ≤ x.trialFails && !frozen
  let sec := { x with
    unlocked := x.unlockNext
    unlockNext := 0
    challenge := none
    bankB := if back then !x.bankB else x.bankB
    trial := x.trial && !back
    trialFails := if frozen then x.trialFails else if back then 0 else if x.trial then x.trialFails + 1 else 0
    updOp := 0
    updBuf := []
    updMissing := 0
    handover := 0
    issued := []
    reloads := [] }
  let kept : Tab Nat := (List.range 4).filterMap fun g =>
    let k := s.rd (F.spare_slot.at (cgBase g))
    if s.rdB (F.spare_active.at (cgBase g)) && !s.boot.backOn.contains g &&
        (tget s.boot.standKept g == some k || !s.boot.failedBoles.contains (17 * g + k)) then some (g, k) else none
  let tl := { r.tl with
    now := s.tl.now
    frac := s.tl.frac
    lines := s.tl.lines
    num := s.tl.num
    den := s.tl.den
    sincePulse := s.tl.sincePulse
    goodPulses := s.tl.goodPulses }
  let dram := { r.dram with
    gen := s.dram.gen + 1
    sub := tmap s.dram.sub fun (c : SubCh) => { SubCh.new with poison := c.poison, repaired := c.repaired } }
  let pow := { s.pow with
    paused := false
    powerFail := false }
  let ep := { r.ep with perst := s.ep.perst }
  let starts := s.rd F.glResetCause_starts + 1
  let out := { r with
    pending := s.pending
    regs := s.regs.filterMap keptReg
    tl := tl
    ck := { r.ck with ringDown := s.ck.ringDown }
    ep := ep
    dram := dram
    pow := pow
    boot := { r.boot with
      stage := 1
      standKept := kept }
    sec := sec
    logSeq := s.logSeq
    flashLog := s.flashLog
    out := s.out
    fresh := s.fresh }
  let out := (out.wr F.glResetCause_cause cause).wr F.glResetCause_starts starts
  let out := (out.wr F.pwStat_state 1).wr F.seStat_bank (b2n sec.bankB)
  let out := (out.wr F.seStat_fallback 0).publishSec
  if sec.unlocked = 0 then out else out.log 0xF09 .steward

/-! ### Stages -/

/-- A start-up ends without reaching ready (R384, R579, R591): nothing further runs until the next one. -/
def State.startFails (s : State) (code : Nat) (kind : SrcKind) : State :=
  let s := s.deviceStop code kind
  { s with boot := { s.boot with stage := 15 } }

/-- A bank passes step 4 of R575 against a counter. -/
def Bank.passes (b : Bank) (svn : Nat) : Bool := Config.imageSigned b.image && svn ≤ b.svn

/-- Stage 1 ends: the boot ROM has verified a steward bank (R575, R576, R591). Where the other bank takes over, the rejected bank's trial has ended. [DESIGN CHOICE, log entry 63] -/
def State.stage1 (s : State) (f : StageFacts) : State :=
  let x := s.sec
  let bank (b : Bool) : Bank := if b then x.stewB else x.stewA
  if !f.replayOk then s.startFails 0xF0A .steward
  else if (bank x.bankB).passes x.fwSvn then { s with boot := { s.boot with stage := 2 } }
  else
    let s := s.log 0xF01 .steward 0 (b2n x.bankB)
    if (bank !x.bankB).passes x.fwSvn then
      let s := (s.wr F.seStat_bank (b2n !x.bankB)).wr F.seStat_fallback 1
      let x := if x.unlocked = 0 then { x with
        bankB := !x.bankB
        trial := false
        trialFails := 0 } else x
      { s with boot := { s.boot with stage := 2 }, sec := x }.publishSec
    else
      let s := s.log 0xF01 .steward 0 (b2n !x.bankB)
      { s with boot := { s.boot with stage := 14 } }

/-- The microcode banks (R577): the active one first; with neither, every media engine is out of service for this start-up. -/
def State.checkUcode (s : State) : State :=
  let x := s.sec
  let bank (b : Bool) : Bank := if b then x.ucB else x.ucA
  if (bank x.ucBankB).passes x.ucSvn then s
  else
    let s := s.log 0xF01 .steward 0 (b2n x.ucBankB) 1
    if (bank !x.ucBankB).passes x.ucSvn then { s with sec := { x with ucBankB := !x.ucBankB } }
    else
      let s := s.log 0xF01 .steward 0 (b2n !x.ucBankB) 1
      { s with boot := { s.boot with failedEngines := List.range 6 } }

/-- Stage 2 ends: the steward runs and issues its certificates (R550, R556, R577, R579, R582). [DESIGN CHOICE, log entry 55] -/
def State.stage2 (s : State) (f : StageFacts) : State :=
  if !f.entropyOk then s.startFails 0xF0B .steward
  else
    let s := (s.wr F.idFw_ver s.stewardBank.ver.toNat).wr2 F.idSerialLo_serial F.idSerialHi_serial Config.serial.toNat
    let s := (s.wr F.seStat_entropyOk 1).checkUcode
    let s := match s.pow.marker with
      | some st => { s.log 0x366 .power 0 st with pow := { s.pow with marker := none } }
      | none => s
    { s with boot := { s.boot with stage := 3 } }.issueCerts

/-- Stage 3 ends: the pins are configured and the receivers are on (R508). [DEDUCED, log entry 44] -/
def State.stage3 (s : State) (f : StageFacts) : State :=
  let s := s.wr F.swCfg_modId f.modId.val
  { s with boot := { s.boot with stage := 4, modId := f.modId.val }, ep := { s.ep with cfgReady := !s.ep.perst } }

/-- Records a plan code in GL_PLAN_ERR and logs it (R538, R539, R540). [DESIGN CHOICE, log entry 39] -/
def State.planErr (s : State) (code sec slot : Nat) : State :=
  let s := ((s.wr F.glPlanErr_code code).wr F.glPlanErr_section sec).wr F.glPlanErr_slot slot
  (s.wr F.glPlanErr_valid 1).log code .steward 0 sec slot

/-- A slot passes every test: the image to apply, which R547 converts where its format is older, or the code and section of its rejection. [DESIGN CHOICE, log entry 38] -/
def State.planAccept (s : State) (i : Nat) : Except (Nat × Nat) (List Byte) :=
  match s.planTest i with
  | some e => .error e
  | none =>
    let b := s.sec.slot i
    let b := if field b 4 2 < 2 then Config.convertPlan s.stewardBank.ver b else b
    match s.planForm b with
    | some k => .error (0x343, k)
    | none => match s.applyPlan b with
      | .ok _ => .ok b
      | .error k => .error (0x343, k)

/-- Takes the plan of a slot (R538, R547): an older format is converted, and the copy is written into the other slot unless debug is unlocked. -/
def State.takePlan (s : State) (i : Nat) (b : List Byte) : State :=
  let old := field (s.sec.slot i) 4 2 < 2
  let write := old && s.sec.unlocked == 0
  let sec := if write then { s.sec.setSlot (1 - i) b with migDone := false } else s.sec
  let sec := if sec.unlocked = 0 && sec.owner.isNone then { sec with owner := some (planOwner b) } else sec
  let s := if old then s.log 0x344 .steward 0 0 i else s
  let s := { s with sec := sec, boot := { s.boot with plan := b } }
  let s := ((s.wr F.glStatus_planned 1).wr F.glStatus_slot (if write then 1 - i else i)).wrB F.glStatus_migrated (old || planFlag b 2)
  let s := (s.wr F.glPlan_format (field b 4 2)).wr F.glPlan_sections (planCount b)
  (s.wr2 F.glPlanSerialLo_serial F.glPlanSerialHi_serial (planSerial b)).publishSec

/-- The slots are tested in turn, the higher serial first (R538, R540). [DEDUCED, log entry 37; DEDUCED, log entry 42] -/
def State.choosePlan (s : State) : State :=
  let a := s.sec.slotA
  let b := s.sec.slotB
  let order := (if planSerial a < planSerial b then [1, 0] else [0, 1]).filter fun i => !(s.sec.slot i).isEmpty
  let r := order.foldl (fun (r : State × Bool) i =>
    if r.2 then r
    else match r.1.planAccept i with
      | .ok b => (r.1.takePlan i b, true)
      | .error (code, k) => (r.1.planErr code k i, false)) (s, false)
  if r.2 then r.1 else r.1.planErr 0x340 0 0

/-- Stage 4 ends: the plan is chosen, and stages 5 and 6 run alongside (R532, R541). [DESIGN CHOICE, log entry 39] -/
def State.stage4 (s : State) : State :=
  let s := s.choosePlan
  { s with boot := { s.boot with stage := 6 } }

/-- The stand-ins with which a grove starts (R21, R25, R533): one kept from before, else for the first bole that failed its self-test; further failed boles
are offline. [DEDUCED, log entry 43] -/
def State.startGrove (bad : List Nat) (s : State) (g : Nat) : State :=
  let b := cgBase g
  let fit := !bad.contains (17 * g + 16)
  let failed := (List.range 16).filter fun i => bad.contains (17 * g + i)
  let kept := tget s.boot.standKept g
  let s := s.wrB (F.spare_spareOk.at b) fit
  let out := failed ++ (kept.toList.filter fun k => !failed.contains k)
  let first := match kept with
    | some k => some k
    | none => failed.head?
  let stand := if fit then first else none
  let s := match stand with
    | some k => (s.wr (F.spare_active.at b) 1).wr (F.spare_slot.at b) k
    | none => s
  let s := s.wr (F.offline_mask.at b) (listMask (out.filter fun k => some k != stand))
  if out.isEmpty && !fit then s else s.mapChanged g

/-- Stage 5 ends (R172, R533): units that failed are out of service, each with START_SELFTEST_FAIL; arrays take the state the self-test decided (R102). [DEDUCED, log entry 44] -/
def State.stage5 (s : State) (f : StageFacts) : State :=
  let bs := (f.boles.map (·.val)).eraseDups
  let es := (f.engines.map (·.val)).eraseDups
  let bad := (f.scrubs.map (·.val)).eraseDups.filter fun p => !bs.contains p
  let s := bs.foldl (fun (s : State) p => (s.wr (F.status_state.at (blBase p)) 5).logFault { mkFault 0x346 .bole p with flags := 4 }) s
  let s := (List.range 68).foldl (fun (s : State) p => s.inc (F.scrub_count.at (blBase p)) 1) s
  let s := bad.foldl (fun (s : State) p => ((s.wr (F.status_state.at (blBase p)) 5).wr (F.scrub_fail.at (blBase p)) 1).log 0x509 .bole p) s
  let s := f.arrays.foldl (fun (s : State) e =>
    (s.setSpareByte e.1.val e.2.1.val e.2.2.val).logFault { mkFault 0x346 .bole e.1.val e.2.1.val with flags := 4 }) s
  let s := es.foldl (fun (s : State) e => let (k, i) := engSrc e; s.logFault { mkFault 0x346 k i with flags := 4 }) s
  let s := { s with boot := { s.boot with
    tested := true
    failedBoles := bs
    failedEngines := s.boot.failedEngines ++ es } }
  ((List.range 4).foldl (State.startGrove (bs ++ bad)) s).retime

/-- A logical bole's unit is online, or a physical bole in reserve, once the configuration stands (R20, R30). -/
def State.unitsOn (s : State) : State :=
  let s := (List.range 64).foldl (fun (s : State) n =>
    let p := s.physOf n
    if (s.rd (F.offline_mask.at (cgBase (n / 16)))).testBit (n % 16) then s else s.wr (F.status_state.at (blBase p)) (if p % 17 = 16 then 4 else 1)) s
  let s := (List.range 4).foldl (fun (s : State) g =>
    if s.rdB (F.spare_spareOk.at (cgBase g)) && !s.rdB (F.spare_active.at (cgBase g)) then s.wr (F.status_state.at (blBase (17 * g + 16))) 3 else s) s
  ((List.range 6).filter fun e => !s.boot.failedEngines.contains e).foldl (fun (s : State) e =>
    (s.setEngine e { Engine.new with mode := 1, ucode := Config.sha384 s.sec.ucBank.image }).wr (F.engVer_ver.at (engBase e)) s.sec.ucBank.ver.toNat) s

/-- The configuration is applied at the beginning of stage 7 (R289, R385, R397, R539, R540): the plan, or the safe state. -/
def State.applyConfig (s : State) : State :=
  let s := s.unitsOn
  let s := if s.boot.plan.isEmpty then s.safeState else match s.applyPlan s.boot.plan with
    | .ok s => s
    | .error _ => s
  let s := if s.boot.plan.isEmpty then s else
    let src := match (planSecs s.boot.plan).find? (·.id == 1) with
      | some x => field (x.body s.boot.plan) 0 1 % 4
      | none => 0
    (s.wr F.tlCtrl_src src).wr F.tlStatus_lock (if src = 0 then 0 else 1)
  s.keepBase

/-- Stage 6 ends: DRAM is trained and its lists are loaded (R384, R385, R391, R392), and stage 7 applies the configuration. [DEDUCED, log entry 44] -/
def State.stage6 (s : State) (f : StageFacts) : State :=
  if !f.trained then s.startFails 0xB04 .subchannel
  else
    let s := s.dram.sub.foldl (fun (s : State) e =>
      (s.wr (F.drScPoison_entries.at (scBase e.1)) e.2.poison.length).wr (F.drScPpr_used.at (scBase e.1)) (e.2.repaired.foldl (fun m k => m ||| 2 ^ spareBit (k / 2) (k % 2)) 0)) s
    let warm := !f.cold && !s.sec.newImage
    let s := ((s.wr F.drGStat_memReady 1).wr F.glStatus_memReady 1).wr F.glStart_memMs f.ms.val
    let s := (s.wrB F.drGStat_warm warm).wrB F.glStatus_warm warm
    let s := { s with boot := { s.boot with stage := 7 }, sec := { s.sec with newImage := false } }
    s.applyConfig

/-- The module seals its configuration (R542). -/
def State.seal (s : State) : State := (s.wr F.glStatus_sealed 1).wr F.glCtrl_seal 1

/-- A trial ends and the plan counter advances at ready (R541, R547, R578), unless debug is unlocked (R593). [DEDUCED, log entry 42] -/
def State.readyCounters (s : State) : State :=
  let x := s.sec
  if x.unlocked ≠ 0 then s
  else
    let x := if x.trial then { x with
        trial := false
        trialFails := 0
        fwSvn := max x.fwSvn s.stewardBank.svn } else x
    let i := s.rd F.glStatus_slot
    let x := if s.boot.plan.isEmpty then x else { x with planCtr := max x.planCtr (planSerial s.boot.plan) }
    let x := if s.rdB F.glStatus_migrated then { x.setSlot (1 - i) [] with migDone := true } else x
    { s with sec := x }.publishSec

/-- Stage 7 ends: seal with seal_mode 0, then ready (R532, R534, R541, R542). -/
def State.stage7 (s : State) (f : StageFacts) : State :=
  let s := if !s.boot.plan.isEmpty && !planFlag s.boot.plan 0 then s.seal else s
  let s := ((s.wr F.glStatus_ready 1).wr F.glStart_readyMs f.ms.val).wr F.pwStat_state 2
  let s := s.wrB F.glStatus_preloadDone s.boot.preloads.isEmpty
  let s := { s with boot := { s.boot with stage := 13 } }
  s.readyCounters

/-- STARTUP_STAGE_COMPLETE (R532): a stage ends with what it found; stage 5 runs alongside stage 6, and stage 7 waits for the decks (R397). An event
that is not the end of a stage in progress changes nothing. [DEDUCED, log entry 44] -/
def execStartupStageComplete (n : Fin 8) (f : StageFacts) (s : State) : Host.Outcome State Fault Refusal :=
  finish <|
    let st := s.boot.stage
    match n.val with
    | 1 => if st = 1 then s.stage1 f else s
    | 2 => if st = 2 then s.stage2 f else s
    | 3 => if st = 3 then s.stage3 f else s
    | 4 => if st = 4 then s.stage4 else s
    | 5 => if st = 6 && !s.boot.tested then s.stage5 f else s
    | 6 => if st = 6 && s.boot.tested then s.stage6 f else s
    | 7 => if st = 7 && ((List.range 64).all fun d => !s.deckOn d || s.rdB (F.dkStat_ready.at (dkBase d))) then s.stage7 f else s
    | _ => s

/-- All logic rails are good (R516). -/
def State.railsUp (s : State) : Bool := s.pow.railsOn.length == 7

/-- START_UP (R516, R529, R532): the die leaves power-on reset after the rails are good. -/
def execStartUp (s : State) : Host.Outcome State Fault Refusal :=
  finish <| if s.railsUp && s.boot.stage == 0 then s.beginStart (if s.rd F.glResetCause_starts = 0 then 1 else 2) else s

/-- MOD_RESET (R529, R530): a pulse on MOD_RESET# restarts the sequence, with the rails kept up. -/
def execModReset (s : State) : Host.Outcome State Fault Refusal := finish <| if s.railsUp then s.beginStart 3 else s

/-- GL_SEAL (R542): a write of GL_CTRL by the physical function with seal = 1. [DEDUCED, log entry 29] -/
def execGlSeal (fn : Fin 16) (s : State) : Host.Outcome State Fault Refusal := finish (if fn.val = 0 then s.seal else s)

/-- GL_RESTART (R549): a write of GL_CTRL by the physical function with restart = 1; without the key it is ignored. -/
def execGlRestart (fn : Fin 16) (key : Fin 65536) (s : State) : Host.Outcome State Fault Refusal :=
  finish <| if fn.val = 0 && key.val == 0x5A5A then (s.log 0x348 .steward).beginStart 4 else s

/-! ### Preloads (R545, R546, R586, R587) -/

/-- What a preload's object gives: the checks of R586 in their order, and the plaintext. -/
def State.openObject (s : State) (p : Preload) : Option (List Byte) :=
  match s.sec.content.find? fun c => c.hash == p.hash with
  | none => none
  | some c =>
    let n := field c.bytes 8 8
    let body := c.bytes.take (512 + n)
    let owner := s.sec.owner.getD []
    if s.sec.unlocked ≠ 0 ∨ !ownerSigned owner body (bytesAt c.bytes (512 + n) 256) ∨ bytesAt c.bytes 16 48 ≠ owner ∨ field c.bytes 64 2 ≠ s.sec.ownerGen then none
    else Config.openContent Config.serial owner s.sec.ownerGen c.bytes

/-- PRELOAD_COMPLETE (R534, R545, R546): the preloads run one after another in record order once the module is ready; one ends with its object in DRAM under
its partition's key, or fails, which leaves its range undefined. The templates that name a complete one become active. [DESIGN CHOICE, log entry 48] -/
def execPreloadComplete (i : Fin 256) (s : State) : Host.Outcome State Fault Refusal :=
  finish <|
    let l := s.boot.preloads
    match l[i.val]? with
    | none => s
    | some p =>
      if !s.rdB F.glStatus_ready || p.state != 0 || (l.take i.val).any (·.state == 0) then s
      else
        let set (s : State) (k : Nat) : State := { s with boot := { s.boot with preloads := l.set i.val { p with state := k } } }
        let s := match (s.openObject p).bind fun d => s.dramWrite p.part p.addr (d.take p.len) with
          | some s => set s 1
          | none => set (s.logPart 0x345 p.part .steward 0 p.addr i.val |>.dramForget p.addr (p.addr + p.len)) 2
        s.wrB F.glStatus_preloadDone (s.boot.preloads.all (·.state != 0))

end Sys2Proof.Machine
end

