-- ==== Sys2Proof/Machine/Endpoint.lean ====
section
/-! DEFINITION. The PCIe endpoint: link, aperture, functions, completions of host reads, interrupts, resets and power states (14). -/

namespace Sys2Proof.Machine

/-- Logs a code of this chapter about a function. -/
def State.logFn (s : State) (fn code : Nat) (d0 : Nat := 0) (d1 : Nat := 0) : State := (s.hostLast fn code d1).logPart code fn .function fn d0 d1

/-! ### Link (R414 to R416, R440, R444) -/

/-- LINK_TRAINED (R414, R415, R449): rate 1 to 6 for 2.5 to 64 GT/s and 1, 2 or 4 lanes, while the die has power; a link below 16 GT/s or x4 is degraded. -/
def execLinkTrained (speed : Fin 7) (width : Fin 5) (flit : Bool) (s : State) : Host.Outcome State Fault Refusal :=
  finish <|
    if speed.val = 0 ∨ width.val = 0 ∨ width.val = 3 ∨ s.ep.perst ∨ !s.railsUp then s
    else
      let slow := decide (speed.val < 4) || decide (width.val < 4)
      let s := ((s.wr F.glLink_speed speed.val).wr F.glLink_width width.val).wrB F.glLink_flit (flit || speed.val == 6)
      let s := (s.wrB F.glLink_degraded slow).wr F.glLink_l1 0
      let s := if s.ep.linkUp then s.inc F.glLink_retrains 1 else s
      let s := { s with ep := { s.ep with linkUp := true } }
      if slow then s.logFn 0 0xD09 else s

/-- ASPM_L1_ENTRY (R444): with ASPM L1 enabled, the endpoint enters L1 after 10 µs with nothing to send. -/
def execAspmL1Entry (s : State) : Host.Outcome State Fault Refusal :=
  finish <| if (s.rd (F.cfgLinkCtl_aspm.cfg 0)).testBit 1 && s.ep.linkUp then s.wr F.glLink_l1 1 else s

/-! ### Aperture (R420 to R422) -/

/-- Aperture size of a function (R420, R423). -/
def State.aptSize (s : State) (fn : Nat) : Nat :=
  2 ^ (20 + (if fn = 0 then s.rd (F.cfgRebarCtl_size.cfg 0) else s.rd (F.cfgVfRebarCtl_size.cfg 0)))

/-- GL_APT_BASE of a function, bits below the aperture size read as 0 (R421). -/
def State.aptBase (s : State) (fn : Nat) : Nat :=
  let b := s.rd (F.glAptBaseLo_base.fn fn) * 2 ^ 28 + s.rd (F.glAptBaseHi_base.fn fn) * 2 ^ 32
  b - b % s.aptSize fn

/-- The outcome of an aperture access in the order of the table Aperture outcomes: code and data address of a refusal. -/
def State.aptRefuse (s : State) (fn a n : Nat) (read : Bool) : Option (Nat × Nat) :=
  if !s.rdB F.glStatus_memReady then some (0xD05, a)
  else if dramSize < a + n then some (0xD06, a)
  else match (burstsOf a n).find? fun b => !s.dramOk fn b with
    | some b => some (0xB07, b)
    | none => if read then ((burstsOf a n).find? s.poisoned).map fun b => (0xB02, b) else none

/-- A refused aperture access (R422): class refused, the function named, no command. -/
def State.aptLog (s : State) (fn code a : Nat) : State :=
  (if code / 256 = 0xD then s.hostLast fn code 0 else s).logFault { mkFault code .function fn a 0 with part := some fn, cls := .refused }

/-- APERTURE_READ (R421, R422). -/
def execApertureRead (fn : Fin 16) (off : Nat) (n : Fin 4097) (s : State) : Host.Outcome State Fault Refusal :=
  let f := fn.val
  finish <|
    if !s.ep.linkUp then s
    else
      let s := s.leaveL1
      if !s.barOpen f || s.aptSize f < off + n.val then s.emit (.unsupported f)
      else
        let a := s.aptBase f + off
        match s.aptRefuse f a n.val true with
        | some (code, b) => (s.aptLog f code b).emit (.completerAbort f)
        | none => s.emit (.readData f (s.dramBytes a n.val))

/-- APERTURE_WRITE (R421, R422). -/
def execApertureWrite (fn : Fin 16) (off : Nat) (data : List Byte) (s : State) : Host.Outcome State Fault Refusal :=
  let f := fn.val
  finish <|
    if !s.ep.linkUp then s
    else
      let s := s.leaveL1
      if !s.barOpen f || s.aptSize f < off + data.length then s
      else
        let a := s.aptBase f + off
        match s.aptRefuse f a data.length false with
        | some (code, b) => s.aptLog f code b
        | none => s.dramPut a data

/-! ### Function-level resets (R427, R438, R439) -/

/-- The completion timeout that the module uses for a Completion Timeout Value, in ns (table Completion timeouts, R429). -/
def cplTimeoutNs (v : Nat) : Nat := match v with
  | 1 => 100000
  | 5 => 55000000
  | 6 => 210000000
  | 9 => 900000000
  | 10 => 3500000000
  | 13 => 13000000000
  | 14 => 64000000000
  | _ => 10000000

/-- The completion timeout in effect, in ns (R429). -/
def State.cplTimeout (s : State) (fn : Nat) : Nat := cplTimeoutNs (s.rd (F.cfgDevCtl2_cto.cfg fn))

/-- A tag goes into quarantine for twice the timeout from now (R430). -/
def State.quarantine (s : State) (fn : Nat) (t : Tag) : Tag :=
  { t with
    use := .discard
    quarantined := true
    at' := s.now
    hold := 2 * s.cplTimeout fn }

/-- The outstanding reads of a function are abandoned and its tags quarantined; what it waited to send is gone (R430, R438 step 1). -/
def State.abandonReads (s : State) (p : Nat) : State :=
  { s with ep := { s.ep with
    tags := s.ep.tags.map fun e => if e.1 / 1024 = p then (e.1, if e.2.quarantined then e.2 else s.quarantine p e.2) else e
    waitq := s.ep.waitq.filter fun r => r.fn != p
    held := s.ep.held.filter fun h => h.1 != p } }

/-- Removes the registers in a range of offsets, which return to their reset values. -/
def State.clearRegs (s : State) (lo n : Nat) : State := { s with regs := s.regs.filter fun e => e.1 < lo || lo + n ≤ e.1 }

/-- Steps 1 to 3 of a function-level reset of one function (R438, R598): its commands are lost without completion, its queue objects and contexts go, its
buffers are reclaimed, and MSI-X, configuration and control queue registers reset. [DEDUCED, log entry 49] -/
def State.flrOne (s : State) (p : Nat) : State :=
  let s := s.abandonReads p
  let s := (s.loseCmds p 0 false).clearTally p
  let (s, n) := s.reclaim p (fun _ => true) (fun _ => true)
  let s := if n = 0 then s else s.logPart 0xC08 p .deck
  let gone := (s.sqs.filter fun e => e.2.part == p).map (·.1)
  let s := { s with
    sqs := s.sqs.filter fun e => e.2.part != p
    cqs := s.cqs.filter fun e => e.2.part != p
    mrings := s.mrings.filter fun e => e.2.part != p
    ctxs := s.ctxs.filter fun e => e.2.part != p
    acct := s.acct.filter fun e => !gone.contains e.1
    ep := { s.ep with
      msix := s.ep.msix.filter fun e => e.1 / 2048 != p
      held := s.ep.held.filter fun h => h.1 != p
      flr := p :: s.ep.flr.filter (· != p) } }
  let s := ((s.clearRegs (cfgOff p) 4096).clearRegs (0x30400 + 0x40 * p) 0x40).wr (F.ptAuditCtl_en.at (ptBase p)) 0
  ((s.wr (F.upOnair_onAir.fn p) 0).inc F.glResets_flr 1).recheckRecovering

/-- A function-level reset; that of the physical function clears VF Enable, which resets every virtual function as well (R427, R439). [DEDUCED, log entry 49] -/
def State.flr (s : State) (p : Nat) : State :=
  let vfs := p == 0 && s.rdB (F.cfgSriovCtl_vfEnable.cfg 0)
  let s := s.flrOne p
  if vfs then (List.range 15).foldl (fun (s : State) i => s.flrOne (i + 1)) s else s

/-- FUNCTION_LEVEL_RESET (R438, R439). -/
def execFunctionLevelReset (fn : Fin 16) (s : State) : Host.Outcome State Fault Refusal := finish (if s.fnExists fn.val then s.flr fn.val else s)

/-- FLR_COMPLETE (R438 step 4, R566): the partition is in its plan state, no longer failed, and FLR_DONE is logged. -/
def execFlrComplete (fn : Fin 16) (s : State) : Host.Outcome State Fault Refusal :=
  let p := fn.val
  finish <|
    if !s.ep.flr.contains p then s
    else
      let s := { s with ep := { s.ep with flr := s.ep.flr.filter (· != p) } }
      let s := (s.restorePart p).wr F.ftStat_pfail (s.rd F.ftStat_pfail &&& (2 ^ 16 - 1 - 2 ^ p))
      s.logFn p 0xD07

/-- NUMVFS_WRITE (R426). -/
def State.numVfs (s : State) (v : Nat) : State :=
  if 15 < v || s.rdB (F.cfgSriovCtl_vfEnable.cfg 0) then s else s.wr (F.cfgSriovNum_numVfs.cfg 0) v

/-- NUMVFS_WRITE (R426): above TotalVFs, or with VF Enable set, the write is ignored. -/
def execNumvfsWrite (v : Fin 65536) (s : State) : Host.Outcome State Fault Refusal := finish (s.numVfs v.val)

/-- VF Enable clears (R427). -/
def State.vfClear (s : State) : State :=
  if !s.rdB (F.cfgSriovCtl_vfEnable.cfg 0) then s
  else (List.range 15).foldl (fun (s : State) i => s.flrOne (i + 1)) (s.wr (F.cfgSriovCtl_vfEnable.cfg 0) 0)

/-- VF_ENABLE_CLEAR (R427): every virtual function is reset as by a function-level reset. -/
def execVfEnableClear (s : State) : Host.Outcome State Fault Refusal := finish s.vfClear

/-- LINK_DOWN (R440): a function-level reset of every function at once. [DEDUCED, log entry 49] -/
def execLinkDown (s : State) : Host.Outcome State Fault Refusal :=
  finish <|
    if !s.ep.linkUp then s
    else
      let s := { s with ep := { s.ep with linkUp := false } }
      let s := ((List.range 16).foldl State.flrOne s).inc F.glResets_linkDown 1
      s.logFn 0 0xD08

/-- PERST_ASSERT (R529, R530): the endpoint and the configuration space of every function reset, and each partition as by a function-level reset; during a
start-up only the endpoint is held. -/
def execPerstAssert (s : State) : Host.Outcome State Fault Refusal :=
  finish <|
    if s.ep.perst then s
    else
      let s := if s.boot.stage = 13 then (List.range 16).foldl State.flrOne s else s
      let s := (List.range 16).foldl (fun (s : State) p => s.clearRegs (cfgOff p) 4096) s
      let ep := { State.reset.ep with
        flr := s.ep.flr
        wakePin := s.ep.wakePin }
      { s.wr F.glLink_l1 0 with ep := ep }

/-- PERST_DEASSERT (R416, R443): configuration requests are answered once the pins are configured; WAKE# is released after 48 V has returned. -/
def execPerstDeassert (s : State) : Host.Outcome State Fault Refusal :=
  finish { s with ep := { s.ep with
    perst := false
    cfgReady := decide (4 ≤ s.boot.stage) && decide (s.boot.stage ≤ 13)
    wakePin := s.ep.wakePin && !s.railsUp } }

/-! ### Completions of host reads (R428 to R433) -/

/-- A read of host memory has failed with a code (R355, R432, R472). -/
def State.readFailed (s : State) (fn tag code : Nat) (use : HostUse) : State :=
  match use with
  | .descriptor sq => s.fetchFailed sq code
  | .cmdData slot buf _ => match tget s.cmds slot with
    | none => s
    | some c =>
      if c.desc.cls = 4 ∧ 8 ≤ buf then s.modCmd slot fun c => { c with hostBufs := tmod c.hostBufs buf fun h => { h with code := code, missing := 0 } }
      else s.dataFault slot code .function fn 0 tag
  | .update _ =>
    let s := { s with sec := { s.sec with updOp := 0, updBuf := [], updMissing := 0 } }
    (s.wr F.upStat_busy 0).logFault { mkFault code .function fn 0 tag with part := some fn }
  | .discard => s

/-- Data of a read of host memory arrives. [DESIGN CHOICE, log entry 9] -/
def State.readArrives (s : State) (use : HostUse) (data : List Byte) : State :=
  match use with
  | .descriptor sq => s.acceptDesc sq data
  | .cmdData slot buf off => s.modCmd slot fun c => { c with hostBufs := tmod c.hostBufs buf fun h =>
      { h with
        got := data.zipIdx.foldl (fun m e => tput m (off + e.2) e.1) h.got
        missing := h.missing - data.length } }
  | .update off => { s with sec := { s.sec with
      updBuf := data.zipIdx.foldl (fun m e => tput m (off + e.2) e.1) s.sec.updBuf
      updMissing := s.sec.updMissing - data.length } }
  | .discard => s

/-- A completion whose request is no longer answered (R431). -/
def State.lateCompletion (s : State) (fn tag : Nat) : State :=
  ((s.aer fn .unexpectedCompletion).inc (F.glHostErr_late.fn fn) 1).logFn fn 0xD02 0 tag

/-- HOST_COMPLETION (R430 to R432): the completion of a read delivers its data, fails the read, or is discarded as late. [DESIGN CHOICE, log entry 9] -/
def execHostCompletion (fn : Fin 16) (tag : Fin 1024) (st : CplStatus) (data : List Byte) (s : State) : Host.Outcome State Fault Refusal :=
  let f := fn.val
  let k := f * 1024 + tag.val
  finish <| match tget s.ep.tags k with
    | none => s.aer f .unexpectedCompletion
    | some t =>
      let s := s.leaveL1
      if t.quarantined then s.lateCompletion f tag.val
      else
        let s := { s with ep := { s.ep with tags := tdel s.ep.tags k } }.issueReads
        if st = .success then s.readArrives t.use ((data ++ List.replicate t.len 0).take t.len)
        else
          let s := (s.inc (F.glHostErr2_readErr.fn f) 1).hostLast f 0xD04 tag.val
          s.readFailed f tag.val 0xD04 t.use

/-- COMPLETION_TIMEOUT (R429, R430): once the timeout has passed it is reported through AER, the tag is quarantined, and the read has failed. [DESIGN CHOICE, log entry 106] -/
def execCompletionTimeout (fn : Fin 16) (tag : Fin 1024) (s : State) : Host.Outcome State Fault Refusal :=
  let f := fn.val
  let k := f * 1024 + tag.val
  finish <| match tget s.ep.tags k with
    | none => s
    | some t =>
      if t.quarantined || s.nsSince t.at' < s.cplTimeout f then s
      else
        let s := s.aer f .completionTimeout
        let s := { s with ep := { s.ep with tags := tput s.ep.tags k (s.quarantine f t) } }
        let s := (s.inc (F.glHostErr_timeouts.fn f) 1).hostLast f 0xD01 tag.val
        s.readFailed f tag.val 0xD01 t.use

/-- TAG_QUARANTINE_END (R430): after twice the timeout from the report the tag returns to service. [DESIGN CHOICE, log entry 106] -/
def execTagQuarantineEnd (fn : Fin 16) (tag : Fin 1024) (s : State) : Host.Outcome State Fault Refusal :=
  let k := fn.val * 1024 + tag.val
  finish <| match tget s.ep.tags k with
    | none => s
    | some t => if t.quarantined && t.hold ≤ s.nsSince t.at' then { s with ep := { s.ep with tags := tdel s.ep.tags k } }.issueReads else s

/-- POISONED_TLP_RECEIVED (R433): the request is dropped, reported and logged. -/
def execPoisonedTlpReceived (fn : Fin 16) (s : State) : Host.Outcome State Fault Refusal :=
  let f := fn.val
  finish (((s.aer f .poisonedTlp).inc (F.glHostErr2_poisoned.fn f) 1).logFn f 0xD03)

/-! ### Bus Master Enable, MSI-X and power states (R436, R441, R604) -/

/-- Sends a vector's message if its pending bit is set and nothing masks it (R436). -/
def State.sendPending (s : State) (fn vec : Nat) : State :=
  let e := s.msixEnt fn vec
  if e.pend && !e.masked && !s.rdB (F.cfgMsix_fnMask.cfg fn) && s.rdB (F.cfgMsix_enable.cfg fn) && s.fnAwake fn then
    (s.setMsix fn vec { e with pend := false }).emit (.msix fn vec e.addr e.data)
  else s

/-- A function may send again (R441, R604): held writes and messages go out in their order, then pending vectors and held reads. -/
def State.resumeFn (s : State) (fn : Nat) : State :=
  if !s.fnAwake fn then s
  else
    let mine := (s.ep.held.filter fun h => h.1 == fn).map (·.2)
    let s := { s with out := s.out ++ mine, ep := { s.ep with held := s.ep.held.filter fun h => h.1 != fn } }
    let vecs := (s.ep.msix.filter fun e => e.1 / 2048 == fn && e.2.pend).map fun e => e.1 % 2048
    (vecs.foldl (fun (s : State) v => s.sendPending fn v) s).issueReads

/-- Bus Master Enable of a function changes (R604): cleared, reads that wait count at once as failed, but descriptor reads are held; set, what was held
proceeds. -/
def State.busMaster (s : State) (fn : Nat) (v : Bool) : State :=
  let s := s.wrB (F.cfgCmd_busMaster.cfg fn) v
  if v then s.resumeFn fn
  else
    let mine := s.ep.waitq.filter fun r => r.fn == fn && (match r.use with | .descriptor _ => false | _ => true)
    let s := { s with ep := { s.ep with waitq := s.ep.waitq.filter fun r => !mine.contains r } }
    mine.foldl (fun (s : State) r => ((s.inc (F.glHostErr2_readErr.fn fn) 1).hostLast fn 0xD04 0).readFailed fn 0 0xD04 r.use) s

/-- BUS_MASTER_ENABLE_CHANGE (R604). -/
def execBusMasterEnableChange (fn : Fin 16) (v : Bool) (s : State) : Host.Outcome State Fault Refusal := finish (s.busMaster fn.val v)

/-- MSIX_UNMASK (R436): the vector is unmasked, and a pending event sends one message. -/
def execMsixUnmask (fn : Fin 16) (vec : Fin 2048) (s : State) : Host.Outcome State Fault Refusal :=
  finish <|
    if fnVectors fn.val ≤ vec.val then s
    else (s.setMsix fn.val vec.val { s.msixEnt fn.val vec.val with masked := false }).sendPending fn.val vec.val

/-- The power state of a function changes between D0 and D3hot (R441); other values are not supported and leave it. -/
def State.powerState (s : State) (fn st : Nat) : State :=
  if st = 3 then s.wr (F.cfgPmcsr_state.cfg fn) 3
  else if st = 0 then
    let s := s.wr (F.cfgPmcsr_state.cfg fn) 0
    if fn = 0 then (List.range 16).foldl State.resumeFn s else s.resumeFn fn
  else s

/-- POWER_STATE_WRITE (R419, R441). -/
def execPowerStateWrite (fn : Fin 16) (st : Fin 4) (s : State) : Host.Outcome State Fault Refusal := finish (s.powerState fn.val st.val)

/-- SKIDWAY_WAKE (R443): a wake message of a neighbour in D3hot, the exit from electrical idle of a receiver in D3cold. -/
def execSkidwayWake (port : Fin 3) (s : State) : Host.Outcome State Fault Refusal :=
  finish <| if port.val < 3 && (s.d3cold || s.rd (F.cfgPmcsr_state.cfg 0) == 3) then s.wake 2 else s

end Sys2Proof.Machine
end

