-- ==== Sys2Proof/Machine/Inputs.lean ====
section
/-! DEFINITION. The engines that work between decode and compute: the ROI resampler (07 R261 to R265), the sample assembler, the tokenizer and the tracker (11). -/

namespace Sys2Proof.Machine

/-! ### Running a command of these engines -/

/-- Dispatches a command of a class and runs it (R198, R43, R276, R293, R295, R470): `check` refuses it with no side effect; `run` works on the dispatched command, and is
entered again while host data is outstanding. -/
def State.engineCommand (s : State) (slot cls : Nat) (check : Cmd → State → (State → State) → State) (run : Cmd → State → State) : State :=
  match tget s.cmds slot with
  | none => s
  | some c =>
    if c.desc.cls != cls || s.pow.paused then s
    else if c.phase == .running then run c s
    else if !(c.phase == .eligible || c.phase == .killed) || !s.rdB F.glStatus_ready then s
    else if s.lateDrop c then s.dropLate slot
    else if s.epochWait c || s.sched.switching.contains (66 + cls) then s
    else
      let code := s.commonCheck c
      if code ≠ 0 then s.refuseCmd slot code
      else check c s fun s => match s.tryDispatch slot c with
        | .refuse code => s.refuseCmd slot code
        | .wait s' => s'
        | .fault code a => s.dataFault slot code .scheduler 0 a
        | .fatal => s.partitionFatal c.desc.part 0x361 .deck
        | .go s' => match tget s'.cmds slot with
          | some c' => run c' (s'.rerunStarted c)
          | none => s'

/-- The engine is done: the command commits (R230, R473). [DEDUCED, log entry 64] -/
def State.engineCommit (s : State) (slot : Nat) (f : Cmd → Cmd) : State := match tget s.cmds slot with
  | some c => (s.setCmd slot (f c)).commitStep slot (f c) false
  | none => s

/-- Writes bytes into the fresh output of an argument and sets its extent; beyond the buffer the write is outside the private region (R218, R219). -/
def State.freshOut (s : State) (slot : Nat) (arg : Nat) (data : List Byte) : Except Nat State := match tget s.cmds slot with
  | none => .error 0x607
  | some c => match tget c.fresh arg with
    | none => .error 0x607
    | some b =>
      if s.bufSize b.deck < data.length then .error 0x607
      else .ok (((s.dramWrite c.desc.part (s.bufAddr b) data).getD s).modCmd slot fun c => { c with extents := tput c.extents arg data.length })

/-! ### Resampling (R263) -/

/-- A coordinate clamped to `0` up to `hi - 1`. -/
def clampTo0 (v : Int) (hi : Nat) : Nat := min (hi - 1) v.toNat

/-- One output sample of a box on a plane of W × H samples, in exact arithmetic; coordinates are unsigned 16.16. -/
def resample (get : Nat → Nat → Nat) (W H x0 y0 x1 y1 ow oh v u : Nat) : Nat :=
  let dx := (x1 - x0) / ow
  let dy := (y1 - y0) / oh
  let xs : Int := x0 + dx * u + dx / 2 - 0x8000
  let ys : Int := y0 + dy * v + dy / 2 - 0x8000
  let xi := xs / 65536; let fx := (xs % 65536).toNat
  let yi := ys / 65536; let fy := (ys % 65536).toNat
  let p (i j : Int) : Nat := get (clampTo0 (yi + i) H) (clampTo0 (xi + j) W)
  ((p 0 0 * (65536 - fx) + p 0 1 * fx) * (65536 - fy) + (p 1 0 * (65536 - fx) + p 1 1 * fx) * fy) / 2 ^ 32

/-- A sample of a box on a plane of a frame: the box is divided by the plane's subsampling. -/
def State.boxSample (s : State) (f : Frame) (plane x0 y0 x1 y1 ow oh v u : Nat) : Nat :=
  let (sx, sy) := f.shift plane
  let (w, h) := f.dims plane
  resample (s.sample f plane) w h (x0 / 2 ^ sx) (y0 / 2 ^ sy) (x1 / 2 ^ sx) (y1 / 2 ^ sy) ow oh v u

/-! ### ROI (R261 to R265) -/

/-- A box record (R262). -/
structure Box where
  x0 : Nat
  y0 : Nat
  x1 : Nat
  y1 : Nat
  frame : Nat
  deriving DecidableEq, Repr

/-- Box n of a list. -/
def boxAt (b : List Byte) (n : Nat) : Box :=
  let o := 32 * n
  ⟨field b o 4, field b (o + 4) 4, field b (o + 8) 4, field b (o + 12) 4, field b (o + 16) 1 % 8⟩

/-- A box that is a hole (R264). -/
def Box.hole (b : Box) (f : Frame) : Bool := b.x1 ≤ b.x0 || b.y1 ≤ b.y0 || f.w * 65536 ≤ b.x0 || f.h * 65536 ≤ b.y0

/-- A box that lies partly outside its picture. -/
def Box.clipped (b : Box) (f : Frame) : Bool := decide (f.w * 65536 < b.x1) || decide (f.h * 65536 < b.y1)

/-- Records a code of the ROI registers (R267). -/
def State.roiLast (s : State) (code box : Nat) : State := ((s.wr F.sxRoiLast_code code).wr F.sxRoiLast_box box).wr F.sxRoiLast_valid 1

/-- Samples and status of every box, in box order (R263, R264, R265); a plane that the frame does not have has a free value. [DEDUCED, log entry 72] -/
def State.roiBytes (s : State) (boxes : List (Box × Frame)) (planes : List Nat) (ow oh e : Nat) : List Byte :=
  (boxes.flatMap fun (b, f) => planes.flatMap fun p => (List.range oh).flatMap fun v => (List.range ow).flatMap fun u =>
    leBytes e (if b.hole f then 0 else if p != 0 && f.chroma == 0 then Config.noPlane p v u % 2 ^ f.depth
      else s.boxSample f p b.x0 b.y0 b.x1 b.y1 ow oh v u)) ++
  boxes.flatMap fun (b, f) => leBytes 4 (if b.hole f then 0 else 1 + 2 * b2n (b.clipped f))

/-- The resampling of a dispatched ROI command. [DEDUCED, log entry 72] -/
def State.roiRun (s : State) (slot : Nat) (c : Cmd) : State :=
  let n := c.desc.shape 0
  let done (s : State) : State := s.inc F.sxRoiStat_done 1
  if n = 0 then match s.freshOut slot 1 [] with
    | .ok s => done (s.engineCommit slot id)
    | .error code => s.dataFault slot code .media
  else s.withData slot c 0 (c.desc.arg 0) (32 * n) fun bl s => s.withData slot c 1 (c.desc.arg 2) 512 fun tb s =>
    let boxes := (List.range n).map fun i => let b := boxAt bl i; (b, (tb.drop (64 * b.frame)).take 64)
    match boxes.zipIdx.find? fun e => field e.1.2 8 4 == 0 || !frameOk e.1.2 with
    | some e => (s.roiLast 0xA43 e.2).dataFault slot 0xA43 .media 0 e.2
    | none =>
      let bs := boxes.map fun e => (e.1, Frame.ofBytes e.2)
      match bs.findSome? fun e => match s.frameRead c.desc.part e.2 with
        | .ok _ => none
        | .denied a => some (0xB07, a)
        | .bad a => some (0xB02, a) with
      | some (code, a) => s.dataFault slot code .media 0 a
      | none =>
        let planes := maskList 3 (c.desc.shape 3)
        let ow := c.desc.shape 1; let oh := c.desc.shape 2
        let e := if bs.any fun b => b.2.wide then 2 else 1
        match s.freshOut slot 1 (s.roiBytes bs planes ow oh e) with
        | .error code => s.dataFault slot code .media
        | .ok s =>
          let holes := (bs.zipIdx.filter fun x => x.1.1.hole x.1.2).map (·.2)
          let s := holes.foldl (fun (s : State) i => ((s.sayOnce slot 0xA42 .media 0 i).roiLast 0xA42 i).inc F.sxRoiHoles_count 1) s
          let s := s.inc2 F.sxRoiBoxesLo_count F.sxRoiBoxesHi_count (n - holes.length)
          let samples := n * planes.length * ow * oh
          done ((s.addWork slot (cdiv samples 16) (32 * n + 512) (samples * e + 4 * n) samples).engineCommit slot id)

/-- ROI_COMMAND (R261 to R265). -/
def execRoiCommand (slot : Fin 4096) (s : State) : Host.Outcome State Fault Refusal :=
  finish <| s.engineCommand slot.val 5 (fun c s go =>
    if 4096 < c.desc.shape 0 then (s.roiLast 0xA40 0).refuseCmd slot.val 0xA40
    else if c.desc.shape 1 < 4 || 64 < c.desc.shape 1 || c.desc.shape 2 < 4 || 64 < c.desc.shape 2 then (s.roiLast 0xA41 0).refuseCmd slot.val 0xA41
    else go s) fun c s => s.roiRun slot.val c

/-! ### Batches (R349 to R358) -/

/-- A batch descriptor. -/
structure Batch where
  n : Nat
  fmt : Nat
  bt2020 : Bool
  full : Bool
  levels : Nat
  w : Nat
  h : Nat
  desc : Nat
  dram : Bool
  deriving DecidableEq, Repr

/-- The descriptor of 64 bytes. -/
def Batch.of (b : List Byte) : Batch :=
  let f := field b 2 1
  ⟨field b 0 2, bits f 0 2, f.testBit 2, f.testBit 3, bits f 4 3, field b 4 2, field b 6 2, field b 8 6, (field b 14 1).testBit 0⟩

/-- Bytes per sample of the output format. -/
def Batch.e (d : Batch) : Nat := if d.fmt = 2 then 2 else 1

/-- Width and height of a level (R350). -/
def Batch.dims (d : Batch) (l : Nat) : Nat × Nat := (cdiv d.w (2 ^ l), cdiv d.h (2 ^ l))

/-- Bytes of a slot of a level. -/
def Batch.slot (d : Batch) (l : Nat) : Nat := 3 * (d.dims l).1 * (d.dims l).2 * d.e

/-- Output samples of one slot over its planes and levels. -/
def Batch.work (d : Batch) : Nat := (List.range (d.levels + 1)).foldl (fun n l => n + 3 * (d.dims l).1 * (d.dims l).2) 0

/-- The descriptor is valid (R349), and every level and the status have an output. [DEDUCED, log entry 73] -/
def batchOk (b : List Byte) (c : Cmd) : Bool :=
  let d := Batch.of b
  1 ≤ d.n && d.n ≤ 1024 && d.fmt < 3 && d.levels ≤ 5 && field b 2 1 < 128 && field b 3 1 == 0 && 16 ≤ d.w && d.w ≤ 4096 && 16 ≤ d.h && d.h ≤ 4096 &&
    field b 14 2 < 2 && zeros b 16 48 && !(d.levels != 0 && d.fmt == 2) && d.work ≤ 3840000 &&
    ((List.range (d.levels + 1)).all fun l => argKind (c.desc.arg l) == 2) && argKind (c.desc.arg 6) == 2

/-- Conversion coefficients ky, rcr, gcb, gcr, bcb (table Conversion coefficients). -/
def convCoef (bt2020 full : Bool) : Int × Int × Int × Int × Int := match bt2020, full with
  | false, true => (16384, 25802, 3069, 7670, 30402)
  | false, false => (19077, 29372, 3494, 8731, 34610)
  | true, true => (16384, 24160, 2696, 9361, 30825)
  | true, false => (19077, 27503, 3069, 10657, 35091)

/-- An integer clamped to a byte. -/
def clampByte (v : Int) : Nat := min 255 v.toNat

/-- R, G and B of one position (R352). -/
def toRgb (bt2020 full : Bool) (depth : Nat) (y cb cr : Nat) : List Nat :=
  let (ky, rcr, gcb, gcr, bcb) := convCoef bt2020 full
  let k : Int := 2 ^ (depth - 8)
  let y' : Int := y - (if full then 0 else 16 * k)
  let b : Int := cb - 128 * k
  let r : Int := cr - 128 * k
  let d : Int := 2 ^ (14 + depth - 8)
  [clampByte ((ky * y' + rcr * r).tdiv d), clampByte ((ky * y' - gcb * b - gcr * r).tdiv d), clampByte ((ky * y' + bcb * b).tdiv d)]

/-- Contrast and brightness (R351 step 4). -/
def adjust (contrast : Nat) (bright : Int) (x : Nat) : Nat := clampByte ((x * (if contrast = 0 then 256 else contrast) / 256 : Nat) + bright)

/-- FP16 of v / 255 for a byte v, truncated. -/
def fp16Of255 (v : Nat) : Nat :=
  if v = 0 then 0
  else
    let k := ((List.range 9).find? fun k => 255 ≤ v * 2 ^ k).getD 8
    (15 - k) * 1024 + (v * 2 ^ (10 + k) / 255 - 1024)

/-- A byte in the output format, as its code. -/
def outCode (fmt v : Nat) : Nat := match fmt with
  | 0 => v
  | 1 => (v + 128) % 256
  | _ => fp16Of255 v

/-- One plane of a level: rows of codes. -/
abbrev LevelPlane := Array (Array Nat)

/-- A code of a plane. -/
def planeAt (p : LevelPlane) (y x : Nat) : Nat := (p.getD y #[]).getD x 0

/-- The next level of a plane (R353): 2 × 2 sums in the output format, divided by 4 and truncated; an odd edge repeats. -/
def halve (fmt : Nat) (p : LevelPlane) (w h : Nat) : LevelPlane :=
  let val (y x : Nat) : Int := let c := planeAt p (min (h - 1) y) (min (w - 1) x); if fmt = 1 then sgn 8 c else c
  (Array.range (cdiv h 2)).map fun y => (Array.range (cdiv w 2)).map fun x =>
    wrapN 8 ((val (2 * y) (2 * x) + val (2 * y) (2 * x + 1) + val (2 * y + 1) (2 * x) + val (2 * y + 1) (2 * x + 1)).tdiv 4)

/-- Bytes of a plane. -/
def planeBytes (e : Nat) (p : LevelPlane) : List Byte := p.toList.flatMap fun r => r.toList.flatMap fun v => leBytes e v

/-- Bytes of every level of a slot from its level-0 planes (R350, R353). -/
def levelBytes (d : Batch) (ps : List LevelPlane) : List (List Byte) :=
  ((List.range d.levels).foldl (fun (acc : List (List Byte) × List LevelPlane) l =>
    let (w, h) := d.dims l
    let next := acc.2.map fun p => halve d.fmt p w h
    (acc.1 ++ [next.flatMap (planeBytes d.e)], next)) ([ps.flatMap (planeBytes d.e)], ps)).1

/-- Level-0 planes of a raw tensor (R354). -/
def rawPlanes (d : Batch) (b : List Byte) : List LevelPlane := (List.range 3).map fun p => (Array.range d.h).map fun y => (Array.range d.w).map fun x =>
  field b (((p * d.h + y) * d.w + x) * d.e) d.e

/-- Level-0 planes of a decoded frame (R351). -/
def State.framePlanes (s : State) (d : Batch) (sd : List Byte) (f : Frame) : List LevelPlane :=
  let whole := zeros sd 16 16
  let x0 := field sd 16 4; let y0 := field sd 20 4
  let x1 := if whole then f.w * 65536 else field sd 24 4; let y1 := if whole then f.h * 65536 else field sd 28 4
  let flip := (field sd 1 1).testBit 0
  let bright := sgn 8 (field sd 32 1)
  let px (y x : Nat) : List Nat :=
    let u := if flip then d.w - 1 - x else x
    let get (p : Nat) : Nat := s.boxSample f p x0 y0 x1 y1 d.w d.h y u
    let mid := 2 ^ (f.depth - 1)
    (toRgb d.bt2020 d.full f.depth (get 0) (if f.chroma = 0 then mid else get 1) (if f.chroma = 0 then mid else get 2)).map fun v =>
      outCode d.fmt (adjust (field sd 34 2) bright v)
  let grid := (Array.range d.h).map fun y => (Array.range d.w).map fun x => px y x
  (List.range 3).map fun p => grid.map fun r => r.map fun l => l.getD p 0

/-- What a sample becomes: its level bytes, or a hole with its code. -/
inductive Sample where
  | data (levels : List (List Byte)) (read : Nat)
  | hole (code : Nat)
  | wait (s : State)
  | fail (code addr : Nat)

/-- A sample descriptor within its values (R354, R355): for a raw tensor no crop, flip, bright or contrast. [DEDUCED, log entry 73] -/
def sampleOk (sd : List Byte) : Bool :=
  let kind := field sd 0 1
  let crop := zeros sd 16 16
  kind < 3 && field sd 1 1 < 8 && zeros sd 2 2 && zeros sd 14 2 && field sd 33 1 == 0 && zeros sd 36 28 &&
    (kind == 0 || (crop && !(field sd 1 1).testBit 0 && field sd 32 1 == 0 && field sd 34 2 == 0)) &&
    (crop || (decide (field sd 16 4 < field sd 24 4) && decide (field sd 20 4 < field sd 28 4)))

/-- The picture that a frame descriptor names has an erroneous change map (R355). -/
def State.mapError (s : State) (b : List Byte) : Bool := match tget s.ctxs (field b 32 2 % 2 ^ 14) with
  | some x => match x.dpb.find? fun p => p.shown && p.id == field b 36 4 with
    | some p => !p.hidden.isEmpty || p.unpaired
    | none => false
  | none => false

/-- A raw tensor's bytes, checked against its CRC. -/
def rawSample (d : Batch) (sd b : List Byte) : Sample :=
  if (field sd 1 1).testBit 1 && crc32c b != field sd 4 4 then .hole 0xA01 else .data (levelBytes d (rawPlanes d b)) b.length

/-- Builds sample `i` (R351, R354, R355). -/
def State.batchSample (s : State) (slot : Nat) (c : Cmd) (d : Batch) (i : Nat) (sd : List Byte) : Sample :=
  let src := field sd 8 6
  if !sampleOk sd then .hole 0xA02
  else match field sd 0 1 with
  | 0 => match s.dramRead c.desc.part src 64 with
    | .denied a => .fail 0xB07 a
    | .bad a => .fail 0xB02 a
    | .ok b =>
      let f := Frame.ofBytes b
      if !frameOk b || (!zeros sd 16 16 && (f.w * 65536 ≤ field sd 16 4 || f.h * 65536 ≤ field sd 20 4)) || ((field sd 1 1).testBit 2 && s.mapError b) then
        .hole 0xA01
      else match s.frameRead c.desc.part f with
        | .denied a => .fail 0xB07 a
        | .bad a => .fail 0xB02 a
        | .ok px => .data (levelBytes d (s.framePlanes d sd f)) (64 + px.length)
  | 1 => match s.needHost slot (8 + i) src (d.slot 0) with
    | .ready b => rawSample d sd b
    | .failed _ _ => .hole 0xA01
    | .waiting s => .wait s
  | _ => match s.dramRead c.desc.part src (d.slot 0) with
    | .ok b => rawSample d sd b
    | .denied a => .fail 0xB07 a
    | .bad a => .fail 0xB02 a

/-- The status tensor (R356). -/
def statusBytes (codes : List Nat) : List Byte :=
  let at' (i : Nat) : Option Nat := codes[i]?
  ((List.range 128).map fun j => BitVec.ofNat 8 (listMask ((List.range 8).filter fun k => at' (8 * j + k) == some 0))) ++
    ((List.range 1024).flatMap fun i => leBytes 4 (if at' i = some 0 then 0x3F800000 else 0)) ++
    (List.range 1024).flatMap fun i => leBytes 2 ((at' i).getD 0)

/-- Every sample in order, or the first that waits or ends the command. -/
def State.batchSamples (s : State) (slot : Nat) (c : Cmd) (d : Batch) (sds : List Byte) : List Sample × Option Sample :=
  (List.range d.n).foldl (fun (acc : List Sample × Option Sample) i => match acc.2 with
    | some _ => acc
    | none => match s.batchSample slot c d i ((sds.drop (64 * i)).take 64) with
      | .wait s => (acc.1, some (.wait s))
      | .fail code a => (acc.1, some (.fail code a))
      | x => (acc.1 ++ [x], none)) ([], none)

/-- The code of a built sample, 0 unless it is a hole. -/
def Sample.code : Sample → Nat
  | .hole c => c
  | _ => 0

/-- Records a code of the assembler registers (R367). -/
def State.sxLast (s : State) (code slot : Nat) : State := ((s.wr F.sxLast_code code).wr F.sxLast_slot slot).wr F.sxLast_valid 1

/-- Charges the samples of a batch that its checkpoint does not hold yet, and puts them into it (R297, R357). -/
def State.batchCharge (s : State) (slot : Nat) (d : Batch) (xs : List Sample) : State := match tget s.cmds slot with
  | none => s
  | some c =>
    let new := xs.drop c.segs
    let bytes := (List.range (d.levels + 1)).foldl (fun n l => n + d.slot l) 0
    let ns := new.foldl (fun n x => match x with | .data _ _ => n + cdiv d.work 16 | _ => n + cdiv bytes 64) 0
    let rd := new.foldl (fun n x => match x with | .data _ k => n + k | _ => n) 0
    let px := new.foldl (fun n x => match x with | .data _ _ => n + d.work | _ => n) 0
    let s := (s.addWork slot ns rd (new.length * bytes) px).modCmd slot fun c => { c with segs := xs.length }
    { s with sched := { s.sched with sxNs := s.sched.sxNs + ns } }

/-- Counts the reads of the samples gone through that the function may not issue (R604). -/
def State.noteRefused (s : State) (slot : Nat) (c : Cmd) (d : Batch) (sds : List Byte) (n : Nat) : State :=
  if s.rdB (F.cfgCmd_busMaster.cfg c.desc.part) || d.slot 0 = 0 then s
  else (List.range n).foldl (fun (s : State) i =>
    let sd := (sds.drop (64 * i)).take 64
    if sampleOk sd && field sd 0 1 == 1 && (tget c.hostBufs (8 + i)).isNone then s.failHost slot c.desc.part (8 + i) (field sd 8 6) (d.slot 0) else s) s

/-- The assembly of a dispatched batch (R350 to R357). [DEDUCED, log entry 73] -/
def State.batchRun (s : State) (slot : Nat) (c : Cmd) : State :=
  s.withData slot c 0 (c.desc.arg 7) 64 fun b s =>
    let d := Batch.of b
    s.withData slot c 1 (d.desc + (if d.dram then 0 else 3 * 2 ^ 48)) (64 * d.n) fun sds s =>
      let (xs, stop) := s.batchSamples slot c d sds
      let s := s.noteRefused slot c d sds xs.length
      match stop with
      | some (.wait s) => (s.noteRefused slot c d sds xs.length).batchCharge slot d xs
      | some (.fail code a) => s.dataFault slot code .media 0 a
      | _ =>
        let lvl (l : Nat) : List Byte := xs.flatMap fun x => match x with
          | .data ls _ => ls.getD l []
          | _ => List.replicate (d.slot l) (0 : Byte)
        let codes := xs.map Sample.code
        let outs := ((List.range (d.levels + 1)).map fun l => (l, lvl l)) ++ [(6, statusBytes codes)]
        match outs.foldl (fun (r : Except Nat State) (a, data) => r.bind fun s => s.freshOut slot a data) (.ok s) with
        | .error code => s.dataFault slot code .media
        | .ok s =>
          let holes := codes.zipIdx.filter fun e => e.1 != 0
          let s := holes.foldl (fun (s : State) e => (s.sxLast e.1 e.2).inc F.sxHoles_count 1) s
          let s := if codes.contains 0xA01 then s.sayOnce slot 0xA01 .media else s
          let s := if codes.contains 0xA02 then s.sayOnce slot 0xA02 .media else s
          (((s.batchCharge slot d xs).addWork slot 0 (64 * d.n) 6272).inc F.sxStat_done 1).engineCommit slot id

/-- Input of the assembler stalls before dispatch (R403): a deck of the batch's outputs is at throttle and its queue is not LIVE, or at stop. [DEDUCED, log entry 95] -/
def State.inputStalls (s : State) (c : Cmd) : Bool := c.desc.args.any fun a => argKind a == 2 && s.deckHolds (argDeck a) (s.clsOf c == 0)

/-- BATCH_COMMAND (R349 to R358). -/
def execBatchCommand (slot : Fin 4096) (s : State) : Host.Outcome State Fault Refusal :=
  finish <| s.engineCommand slot.val 4 (fun c s go => if s.inputStalls c && !c.rerun then s else s.withData slot.val c 0 (c.desc.arg 7) 64 fun b s =>
    if batchOk b c then go s else (s.sxLast 0xA03 0).refuseCmd slot.val 0xA03) fun c s => s.batchRun slot.val c

/-! ### Tokenizer (R359 to R362) -/

/-- Entries of an image. -/
def dictEntries (b : List Byte) : List DictEnt := (List.range (field b 8 4)).map (dictEnt b)

/-- A word starts after this byte, or at the first byte of a session (R360). -/
def startsWord : Option Byte → Bool
  | none => true
  | some b => b == 0x09 || b == 0x0A || b == 0x0D || b == 0x20

/-- The entry that wins at a position (R360): the longest candidate, and of two of equal length the initial one. -/
def bestEntry (img : List Byte) (es : List DictEnt) (text : List Byte) (start : Bool) : Option DictEnt :=
  es.foldl (fun best e =>
    if (e.init && !start) || dictStr img e != text.take e.len || text.length < e.len then best
    else match best with
      | none => some e
      | some x => if x.len < e.len || (x.len == e.len && e.init && !x.init) then some e else best) none

/-- Tokens of a text (R360, R361): while at least `keep` bytes remain; answers tokens, the bytes left, and the last byte consumed. -/
def tokens (img : List Byte) (es : List DictEnt) (keep : Nat) : Nat → List Byte → Option Byte → List Nat × List Byte × Option Byte
  | 0, text, last => ([], text, last)
  | n + 1, text, last =>
    if text.isEmpty || text.length < keep then ([], text, last)
    else
      let (id, len) := match bestEntry img es text (startsWord last) with
        | some e => (e.id, max 1 e.len)
        | none => (field img 12 4 + (text.headD 0).toNat, 1)
      let (l, rest, last) := tokens img es keep n (text.drop len) (text[len - 1]?)
      (id % 2 ^ 32 :: l, rest, last)

/-- Writes records into the ring slots that a command holds beyond the producer index; none where the ring was too full (R36, R471, R473). -/
def State.ringOut (s : State) (slot : Nat) (recs : List (List Byte)) : Option State := match tget s.cmds slot with
  | none => none
  | some c => match c.rings with
    | r :: _ => match tget s.mrings r.ring with
      | none => some s
      | some g =>
        if r.rmax < recs.length then none
        else
          let s := if r.stored then recs.zipIdx.foldl (fun (s : State) (b, i) => s.queueWrite g.part (g.at (r.start + i)) g.place.baseHost b) s else s
          some (s.modCmd slot fun c => { c with rings := c.rings.map fun x => if x.ring = r.ring then { x with count := recs.length } else x })
    | [] => none

/-- A list cut into pieces of `k`. -/
def pieces {α : Type} (k : Nat) : Nat → List α → List (List α)
  | 0, _ => []
  | n + 1, l => if l.isEmpty then [] else l.take k :: pieces k n (l.drop k)

/-- TOK records (R478): up to 10 token IDs each. -/
def tokRecords (ctx seq stamp off : Nat) (ids : List Nat) : List (List Byte) := (pieces 10 ids.length ids).zipIdx.map fun (l, i) =>
  metaRecord 5 0 0 (ctx + 2 ^ 14) seq stamp (leBytes 2 l.length ++ ([0, 0] : List Byte) ++ leBytes 4 ((off + 10 * i) % 2 ^ 32) ++ l.flatMap (leBytes 4))

/-- The tokens of a dispatched command (R361, R362). [DEDUCED, log entry 74] -/
def State.tokenRun (s : State) (slot : Nat) (c : Cmd) : State :=
  s.withData slot c 0 (c.desc.arg 0) (c.desc.shape 0) fun own s =>
    match tget s.ctxs c.desc.ctx with
    | none => s.refuseCmd slot 0x329
    | some x => match tget s.dicts (field x.params 0 1) with
      | none => s.refuseCmd slot 0x329
      | some dict =>
        let img := dict.image
        let final := c.desc.op.testBit 2
        let text := x.carry ++ own
        let (ids, rest, last) := tokens img (dictEntries img) (if final then 1 else field img 6 1) (text.length + 1) text x.lastByte
        let ids := (if c.desc.op.testBit 0 then [field img 16 4] else []) ++ ids ++ (if c.desc.op.testBit 1 then [field img 20 4] else [])
        let used := text.length - rest.length
        let past (s : State) (code : Nat) : State := (if code = 0xA05 then s.tkLast code else s).dataFault slot code .media
        let done (s : State) : State :=
          let s := (s.inc2 F.tkBytesLo_bytes F.tkBytesHi_bytes used).inc2 F.tkTokensLo_tokens F.tkTokensHi_tokens ids.length
          let s := s.addWork slot (cdiv text.length 2) (if argSpace (c.desc.arg 0) = 0 then own.length else 0) 0
          let x' := { x with carry := rest, lastByte := last, tokens := (x.tokens + ids.length) % 2 ^ 32 }
          s.engineCommit slot fun c => { c with newCtx := [(c.desc.ctx, some x')], result := ids.length % 2 ^ 32 + rest.length % 64 * 2 ^ 32 }
        if argKind (c.desc.arg 1) = 4 then match s.ringOut slot (tokRecords c.desc.ctx c.seq s.now x.tokens ids) with
          | some s => done s
          | none => past (s.qErr c.desc.part 0x325 (bits (c.desc.arg 1) 0 10)) 0x325
        else match s.dramRead c.desc.part (argAddr (c.desc.arg 1)) 64 with
          | .denied a => s.dataFault slot 0xB07 .media 0 a
          | .bad a => s.dataFault slot 0xB02 .media 0 a
          | .ok h =>
            if field h 8 8 < field h 16 8 + 4 * ids.length then past s 0xA05
            else match s.dramWrite c.desc.part (c.aregs.getD 1 0) (ids.flatMap (leBytes 4)) with
              | none => s.dataFault slot 0xB07 .media 0 (c.aregs.getD 1 0)
              | some s => done (s.modCmd slot fun c => { c with extents := tput c.extents 1 (4 * ids.length), dramWr := c.dramWr + 4 * ids.length })

/-- TOKENIZE (R360 to R362): more input than a command may carry, or eos without final, is refused. -/
def execTokenize (slot : Fin 4096) (s : State) : Host.Outcome State Fault Refusal :=
  finish <| s.engineCommand slot.val 6 (fun c s go =>
    if 262144 < c.desc.shape 0 then (s.tkLast 0xA06).refuseCmd slot.val 0xA06
    else if c.desc.op.testBit 1 && !c.desc.op.testBit 2 then s.refuseCmd slot.val 0x324
    else if s.ctxClosed c then s.refuseCmd slot.val 0x329
    else go s) fun c s => s.tokenRun slot.val c

/-! ### Tracker (R363 to R366) -/

/-- A detection entry. -/
structure Det where
  idx : Nat
  x0 : Nat
  y0 : Nat
  x1 : Nat
  y1 : Nat
  cls : Nat
  score : Nat
  valid : Bool
  deriving DecidableEq, Repr

/-- Detection n of a tensor. -/
def detAt (b : List Byte) (n : Nat) : Det :=
  let o := 32 * n
  ⟨n, field b o 4, field b (o + 4) 4, field b (o + 8) 4, field b (o + 12) 4, field b (o + 16) 2, field b (o + 18) 2, (field b (o + 20) 1).testBit 0⟩

/-- A box of signed coordinates: x0, y0, x1, y1. -/
abbrev IBox := Int × Int × Int × Int

/-- Area of a box, 0 for an empty one. -/
def areaOf (b : IBox) : Nat := (b.2.2.1 - b.1).toNat * (b.2.2.2 - b.2.1).toNat

/-- Intersection and union of two boxes (R364). -/
def overlap (a b : IBox) : Nat × Nat :=
  let i := areaOf (max a.1 b.1, max a.2.1 b.2.1, min a.2.2.1 b.2.2.1, min a.2.2.2 b.2.2.2)
  (i, areaOf a + areaOf b - i)

/-- Frames from a track's last update to f. -/
def Track.gap (t : Track) (f : Nat) : Nat := (f + 2 ^ 32 - t.frame) % 2 ^ 32

/-- The box that a track is predicted at (R364). -/
def Track.predict (t : Track) (f : Nat) : IBox :=
  let d : Int := t.gap f
  (t.x0 + t.vx * d, t.y0 + t.vy * d, t.x1 + t.vx * d, t.y1 + t.vy * d)

/-- A detection's box. -/
def Det.box (d : Det) : IBox := (d.x0, d.y0, d.x1, d.y1)

/-- An eligible pair: track, detection, intersection, union. -/
structure Pair where
  t : Track
  d : Det
  i : Nat
  u : Nat
  deriving DecidableEq, Repr

/-- Decreasing IoU, compared by cross-multiplication; ties to the lower track ID, then the lower detection index. -/
def Pair.before (a b : Pair) : Bool :=
  if a.i * b.u ≠ b.i * a.u then b.i * a.u < a.i * b.u
  else if a.t.id ≠ b.t.id then a.t.id < b.t.id else a.d.idx ≤ b.d.idx

/-- The pairs accepted, in decreasing IoU (R364). -/
def associate (iouMin f : Nat) (ts : List Track) (ds : List Det) : List Pair :=
  let all := ts.flatMap fun t => ds.filterMap fun d =>
    let (i, u) := overlap (t.predict f) d.box
    if t.cls == d.cls && iouMin * u ≤ i * 65536 then some ⟨t, d, i, u⟩ else none
  (all.mergeSort Pair.before).foldl (fun acc p => if acc.any fun q => q.t.id == p.t.id || q.d.idx == p.d.idx then acc else acc ++ [p]) []

/-- A matched track (R365): the detection's box, and the velocity of the centres per frame, truncated toward zero. -/
def Track.matched (t : Track) (d : Det) (f : Nat) : Track :=
  let g : Int := 2 * t.gap f
  { t with x0 := d.x0, y0 := d.y0, x1 := d.x1, y1 := d.y1, frame := f, miss := 0
           vx := ((d.x0 + d.x1 : Int) - (t.x0 + t.x1)).tdiv g, vy := ((d.y0 + d.y1 : Int) - (t.y0 + t.y1)).tdiv g }

/-- A TRK record's payload (R478): state 0 continued, 1 new, 2 ended. -/
def trkPayload (t : Track) (state det : Nat) : List Byte :=
  leBytes 4 t.id ++ leBytes 4 t.x0 ++ leBytes 4 t.y0 ++ leBytes 4 t.x1 ++ leBytes 4 t.y1 ++ leBytes 4 (wrapN 32 t.vx) ++ leBytes 4 (wrapN 32 t.vy) ++
    leBytes 2 t.cls ++ leBytes 1 state ++ leBytes 1 (min 255 t.miss) ++ leBytes 4 t.frame ++ leBytes 2 det

/-- The picture that a track command names and its stamp: from its argument, or the not-before stamp (R466). -/
def State.trackStamp (s : State) (c : Cmd) : Nat × Bool :=
  if !c.src.isEmpty then (field c.src 0 8, true)
  else if argKind (c.desc.arg 2) = 6 then match s.picArg (c.desc.arg 2) with
    | some p => (p.stamp, true)
    | none => (c.desc.notBefore, false)
  else (c.desc.notBefore, false)

/-- New tracks for unmatched detections (R365): the lowest free context IDs; answers the tracks with their contexts, and how many could not open. [DEDUCED, log entry 74] -/
def openTracks (free : List Nat) (room : Nat) (next f : Nat) : List Det → List (Track × Nat) × Nat
  | [] => ([], 0)
  | d :: ds => match free, room with
    | id :: rest, r + 1 =>
      let t : Track := ⟨next, id, d.x0, d.y0, d.x1, d.y1, 0, 0, d.cls, f, 0⟩
      let (l, n) := openTracks rest r ((next + 1) % 2 ^ 32) f ds
      ((t, d.idx) :: l, n)
    | _, _ => let (l, n) := openTracks free room next f ds; (l, n + 1)

/-- The association of a dispatched track command (R363 to R366). -/
def State.trackWork (s : State) (slot : Nat) (c : Cmd) (x : Ctx) (bytes : List Byte) : State :=
  let (stamp, fromPic) := s.trackStamp c
  let f := stFrame stamp
  let n := c.desc.shape 0
  let all := (List.range n).map (detAt bytes)
  let bad := (List.range n).any fun i => 2 ≤ field bytes (32 * i + 20) 1 || !zeros bytes (32 * i + 21) 11
  let late := match x.lastFrame with | some l => !seqLt l f | none => false
  if 1024 < n || bad || late then s.dataFault slot 0xA08 .media
  else
    let ds := all.filter fun d => d.valid && d.x0 < d.x1 && d.y0 < d.y1
    let ignored := n - ds.length
    let ps := associate (field x.params 0 2) f x.tracks ds
    let old := (x.tracks.mergeSort fun a b => a.id ≤ b.id).map fun t => match ps.find? fun p => p.t.id == t.id with
      | some p => (t.matched p.d f, 0, p.d.idx)
      | none => let t := { t with miss := t.miss + 1 }; (t, if field x.params 4 1 < t.miss then 2 else 0, 0xFFFF)
    let want := ds.filter fun d => field x.params 2 2 ≤ d.score && !ps.any fun p => p.d.idx == d.idx
    let quota := s.rd (F.ptQuota_contexts.at (ptBase c.desc.part)) - s.partContexts c.desc.part
    let free := (List.range 16384).filter fun i => (tget s.ctxs i).isNone
    let (new, missed) := openTracks free (min quota (1024 - x.tracks.length)) x.nextTrack f want
    let live := (old.filter fun e => e.2.1 == 0).map (·.1) ++ new.map (·.1)
    let ended := (old.filter fun e => e.2.1 == 2).map (·.1)
    let now := if fromPic then stamp else s.now
    let record (type : Nat) (p : List Byte) : List Byte := metaRecord type 0 0 (c.desc.ctx + 2 ^ 14) c.seq now p
    let recs := (old.map fun e => record 2 (trkPayload e.1 e.2.1 e.2.2)) ++ (new.map fun e => record 2 (trkPayload e.1 1 e.2)) ++
      [record 6 (leBytes 1 1 ++ List.replicate 7 (0 : Byte) ++ leBytes 4 ps.length ++ leBytes 4 new.length ++ leBytes 4 ended.length ++ leBytes 4 ignored ++
        leBytes 4 missed ++ leBytes 4 live.length)]
    match s.ringOut slot recs with
    | none => (s.qErr c.desc.part 0x325 (bits (c.desc.arg 1) 0 10)).dataFault slot 0x325 .media
    | some s =>
      let s := (s.inc F.sxTrkCnt_ignored ignored).inc F.sxTrkCnt_exhausted missed
      let s := if missed = 0 then s else s.sayOnce slot 0xA07 .media
      let t := x.tracks.length
      let s := s.addWork slot (20000 + 400 * (ds.length + t) + 20 * ds.length * t) (32 * n) 0
      let x' := { x with tracks := live, lastFrame := some f, nextTrack := (x.nextTrack + new.length) % 2 ^ 32 }
      let changes := (c.desc.ctx, some x') :: (ended.map fun t => (t.ctx, none)) ++
        new.map fun e => (e.1.ctx, some { Ctx.new 5 c.desc.part [] with parent := some c.desc.ctx })
      s.engineCommit slot fun c => { c with newCtx := changes, result := recs.length % 65536 }

/-- Runs a dispatched track command. [DEDUCED, log entry 74] -/
def State.trackRun (s : State) (slot : Nat) (c : Cmd) : State :=
  let n := c.desc.shape 0
  let go (b : List Byte) (s : State) : State := match tget s.ctxs c.desc.ctx with
    | some x => s.trackWork slot c x b
    | none => s.refuseCmd slot 0x329
  if 1024 < n then s.dataFault slot 0xA08 .media
  else if argKind (c.desc.arg 0) = 7 then match s.dramRead c.desc.part (c.aregs.getD 0 0) (32 * n) with
    | .ok b => go b s
    | .denied a => s.dataFault slot 0xB07 .media 0 a
    | .bad a => s.dataFault slot 0xB02 .media 0 a
  else s.withData slot c 0 (c.desc.arg 0) (32 * n) go

/-- TRACK (R363 to R366): the picture's stamp is kept from the first dispatch on. -/
def execTrack (slot : Fin 4096) (s : State) : Host.Outcome State Fault Refusal :=
  finish <| s.engineCommand slot.val 7 (fun c s go =>
    if s.ctxClosed c then s.refuseCmd slot.val 0x329
    else
      let (stamp, fromPic) := s.trackStamp c
      let t := go s
      if fromPic then t.modCmd slot.val fun c => { c with src := leBytes 8 stamp } else t) fun c s => s.trackRun slot.val c

end Sys2Proof.Machine
end

