-- ==== Sys2Proof/Machine/Landing.lean ====
section
/-! DEFINITION. Completion of unit instructions, power gating of scratchpad banks and Landing segments, and scrubs of a Landing slice (05 R181 to R183, R190, 06 R204, R205). -/

namespace Sys2Proof.Machine

/-! ### Completion (R204, R205) -/

/-- What an instruction of a unit does, by its opcode. -/
def unitSpecOf (w : Nat) : UnitSpec := match opOf w with
  | 0x10 => tileSpec
  | 0x18 => mvSpec 0
  | 0x20 => vecSpec w
  | 0x30 => fetchSpec
  | _ => if bits w 22 2 = 0 then putStoreSpec else putReduceSpec

/-- The unit of a number: arrays, MVP, VU, DMA. -/
def unitNo (n : Nat) : ExUnit := match n with
  | 0 => .arrays
  | 1 => .mvp
  | 2 => .vu
  | _ => .dma

/-- Removes the first instruction of a unit. -/
def dropFlight (u : ExUnit) : List InFlight → List InFlight
  | [] => []
  | f :: l => if f.unit = u then l else f :: dropFlight u l

/-- A boom of the context is still on its way (R189). -/
def State.boomOut (s : State) (p x slot : Nat) : Bool :=
  (s.remote.any fun r => r.slot == slot && r.p == p && r.ctx == x && r.src < 64) || s.fills.any fun f => f.slot == slot && f.p == p && f.ctx == x

/-- The oldest instruction of a context on a unit completes: it leaves the queue and signals its token; one that waited for a bank does its work
now, if it can and what it reaches still passes its checks (R182, R204, R205). -/
def execUnitInstructionComplete (p : Fin 68) (x : Fin 4) (u : Fin 4) (e : UnitErr) (s : State) : Host.Outcome State Fault Refusal :=
  let p := p.val
  let x := x.val
  let un := unitNo u.val
  finish <| if s.pow.paused then s else match tget (s.bole p).ctxs x with
    | none => s
    | some c => match c.flight.find? fun f => f.unit == un, tget s.cmds c.slot with
      | some f, some cmd =>
        let done (s : State) : State := match tget (s.bole p).ctxs x with
          | some c' => if c'.slot == c.slot then s.setCtx p x { c' with flight := dropFlight un c'.flight, blocked := false } else s
          | none => s
        if cmd.phase != .running then s
        else match f.held, tget s.lists cmd.desc.op with
          | some r, some l =>
            let op : UnitOp := ⟨p, x, c.slot, cmd, l, r⟩
            match (unitSpecOf r.word).check op s with
            | .error b => s.failInstr p x r.pc c.slot b
            | .ok () => match s.unitWork op un e (unitSpecOf r.word).run with
              | .ok s => done s
              | .error .wait => s
              | .error b => s.failInstr p x r.pc c.slot b
          | _, _ => if un == .dma && s.boomOut p x c.slot then s else done s
      | _, _ => s

/-! ### Gating (R181 to R183) -/

/-- A write of a gate request register (R181): of a bole's banks, low or high word, or of a grove's segments. A bank whose bit is cleared begins to
return to service (R183). [DEDUCED, log entry 85] -/
def execSpadGateRequest (landing hi : Bool) (n : Fin 68) (v : Word) (s : State) : Host.Outcome State Fault Refusal :=
  finish <|
    if landing then
      let g := n.val % 4
      let b := cgBase g
      let s := s.wr (F.lndGateReq_mask.at b) v.toNat
      let back := (maskList 16 (s.rd (F.lndGateStat_mask.at b))).filter fun k => !v.toNat.testBit k
      let s := s.wr (F.lndGateStat_mask.at b) (listMask ((maskList 16 (s.rd (F.lndGateStat_mask.at b))).filter fun k => v.toNat.testBit k))
      s.setLand g { s.land g with ungating := (s.land g).ungating ++ back }
    else
      let b := blBase n.val
      let s := if hi then s.wr (F.spadGateReqHi_banks.at b) v.toNat else s.wr (F.spadGateReqLo_banks.at b) v.toNat
      let req := s.rd2 (F.spadGateReqLo_banks.at b) (F.spadGateReqHi_banks.at b)
      let stat := s.rd2 (F.spadGateStatLo_banks.at b) (F.spadGateStatHi_banks.at b)
      let s := s.wr2 (F.spadGateStatLo_banks.at b) (F.spadGateStatHi_banks.at b) (stat &&& req)
      s.setBole n.val { s.bole n.val with ungating := (s.bole n.val).ungating ++ (maskList 48 stat).filter fun k => !req.testBit k }

/-- A window of a target overlaps a range of its memory. -/
def winOver (t : Tab Win) (hit : Nat → Nat → Bool) : Bool := t.any fun e => e.2.live && hit e.2.base (e.2.limit - e.2.base)

/-- A write is on its way to a window of a target whose range the condition takes (R181). -/
def State.windowWrite (s : State) (dst : Nat) (hit : Nat → Nat → Bool) : Bool :=
  let (landing, p) := s.winTarget dst
  s.remote.any fun r => r.dst == dst && (match tget (s.winTab p landing) r.win with
    | some w => hit (w.base + r.off) r.data.length
    | none => false)

/-- A requested bank or segment gates once no window covers it, no write to it is on its way and the bole is idle; its contents go (R181). -/
def execBankGateEntry (landing : Bool) (n : Fin 68) (k : Fin 48) (s : State) : Host.Outcome State Fault Refusal :=
  let k := k.val
  finish <|
    if landing then
      let g := n.val % 4
      let b := cgBase g
      let l := s.land g
      let hit (a m : Nat) : Bool := (segsOf a m).any fun e => e.2 == k
      if 16 ≤ k || !(s.rd (F.lndGateReq_mask.at b)).testBit k || (s.rd (F.lndGateStat_mask.at b)).testBit k || winOver l.wins hit ||
          (k == 15 && (s.fills.any (fun f => f.p / 17 == g) || s.remote.any fun r => r.stage.any fun t => t.1 == g)) ||
          s.windowWrite (64 + g) (fun a m => (segsOf (g * 2 ^ 23 + a) m).any fun e => e.2 == k) ||
          s.boles.any (fun b => b.2.ctxs.any fun x => x.2.flight.any fun f => f.segs.contains (g, k)) then s
      else
        (s.wr (F.lndGateStat_mask.at b) (s.rd (F.lndGateStat_mask.at b) ||| 2 ^ k)).setLand g
          { l with mem := mclear l.mem (k * 2 ^ 19) ((k + 1) * 2 ^ 19), ungating := l.ungating.filter (· != k)
                   tally := if k = 15 then [] else l.tally }
    else
      let p := n.val
      let f := blBase p
      let b := s.bole p
      let req := s.rd2 (F.spadGateReqLo_banks.at f) (F.spadGateReqHi_banks.at f)
      let stat := s.rd2 (F.spadGateStatLo_banks.at f) (F.spadGateStatHi_banks.at f)
      let busy := match s.logOf p with | some m => s.cmds.any fun e => e.2.on m && e.2.phase != .suspended | none => false
      let coming := match s.logOf p with | some m => s.windowWrite m fun a n => touchesBank a n k | none => false
      if !req.testBit k || stat.testBit k || busy || coming || winOver b.wins (fun a m => touchesBank a m k) then s
      else
        (s.wr2 (F.spadGateStatLo_banks.at f) (F.spadGateStatHi_banks.at f) (stat ||| 2 ^ k)).setBole p
          { b with spad := b.spad.filter (fun c => spadBank c.1 != k), ungating := b.ungating.filter (· != k) }

/-- A bank or segment is back in service, all zero (R183). -/
def execBankUngateComplete (landing : Bool) (n : Fin 68) (k : Fin 48) (s : State) : Host.Outcome State Fault Refusal :=
  finish <|
    if landing then
      let l := s.land (n.val % 4)
      s.setLand (n.val % 4) { l with ungating := l.ungating.filter (· != k.val) }
    else
      let b := s.bole n.val
      s.setBole n.val { b with ungating := b.ungating.filter (· != k.val) }

/-! ### Scrubs of a slice (R27, R190) -/

/-- The scrub of a segment, or of tally group k − 16, ends: it is zero, or a segment goes out of service and its partition is lost (R190). [DEDUCED, log entry 85] -/
def execLandingScrubComplete (g : Fin 4) (k : Fin 32) (ok : Bool) (s : State) : Host.Outcome State Fault Refusal :=
  let g := g.val
  let k := k.val
  let l := s.land g
  finish <|
    if !l.scrubbing.contains k then s
    else
      let l := { l with scrubbing := l.scrubbing.filter (· != k) }
      let l := if 16 ≤ k then { l with tally := l.tally.filter fun t => t.1 / 512 != k - 16 }
        else { l with mem := mclear l.mem (k * 2 ^ 19) ((k + 1) * 2 ^ 19) }
      let s := (s.setLand g l).scrubEnergy (if 16 ≤ k then 64 else 8192)
      if ok then s.groveEnds g
      else
        let b := cgBase g
        let j := k % 16
        let off := if 16 ≤ k then 0x1110 else 0x1100
        let part := bits (s.reg (b + off + 4 * (j / 8))).toNat (4 * (j % 8)) 4
        let owned := (if 16 ≤ k then s.rd (F.tallyOwned_mask.at b) else s.rd (F.lndOwned_mask.at b)).testBit j
        let out := if 16 ≤ k then 15 else k
        let s := s.wr (F.lndFailed_count.at b) (s.rd (F.lndFailed_count.at b) ||| 2 ^ out)
        State.groveEnds (g := g) <| if owned then s.partitionFatal part 0x509 .grove g k else s.logFault { mkFault 0x509 .grove g k with cls := .contained }

end Sys2Proof.Machine
end

