-- ==== Sys2Proof/Machine/Power.lean ====
section
/-! DEFINITION. Power: auxiliary supply, hot-swap controller, rails, ride-through and power-fail stop, power limit and throttle, thermal limits, telemetry, button
and out-of-band management (17, and R446, R447 of 14). -/

namespace Sys2Proof.Machine

/-! ### Events and their signals -/

/-- Sets a bit of PW_EVENT; with its enable bit it sends the vector of PW_IRQ (R528). -/
def State.pwSignal (s : State) (bit : Nat) : State :=
  let o := F.pwEvent_uv.off
  let was := (s.reg o).toNat.testBit bit
  let s := s.setReg o (s.reg o ||| BitVec.ofNat 32 (2 ^ bit))
  if !was && (s.rd F.pwIrq_en).testBit bit then s.raiseVec 0 (s.rd F.pwIrq_vector) else s

/-- Sets a bit of MS_SLOT_STAT; with its enable bit in MS_SLOT_CTRL it sends the slot's vector (R446). Only the attended mode has the capability (R418). -/
def State.slotSignal (s : State) (f en : Fld) : State :=
  if !s.rdB F.msCfg_attended then s
  else
    let was := s.rdB (f.cfg 0)
    let s := s.wr (f.cfg 0) 1
    if !was && s.rdB (en.cfg 0) then s.raiseVec 0 (s.rd (F.slotCtrl_vector.cfg 0)) else s

/-- Presence is mated. -/
def State.mated (s : State) : Bool := s.rdB F.msHs_pres

/-- PW_STAT.level and its parts follow the two controllers' levels (R520). -/
def State.showLevel (s : State) : State :=
  let s := s.wr F.pwStat_level (max s.pow.pwrLevel s.pow.thrLevel)
  (s.wrB F.pwStat_pwrCtl (s.pow.pwrLevel != 0)).wrB F.pwStat_thrCtl (s.pow.thrLevel != 0)

/-- PW_STAT.on_aux: the management domain draws from 3V3_AUX (R509). -/
def State.showAux (s : State) : State := s.wrB F.pwStat_onAux (s.pow.auxOn && s.pow.railsOn.isEmpty)

/-! ### PLDM sensors (R525) -/

/-- Level of a numeric sensor's value by its thresholds (table PLDM sensors and effecters): 0 normal, 1 warning, 2 critical, 3 fatal. -/
def State.sensorLevel (s : State) (id v : Nat) : Nat :=
  let high (w c f : Nat) : Nat := if f ≤ v then 3 else if c ≤ v then 2 else if w ≤ v then 1 else 0
  match id with
  | 1 => if 64000 ≤ v then 3 else if v ≤ 36000 then 2 else if v ≤ 38000 then 1 else 0
  | 2 => if 750 ≤ v then 2 else if s.rd F.pwLimit_eff ≤ v then 1 else 0
  | 3 => high 95 110 120
  | 4 => high 85 105 115
  | 5 => if 80 ≤ v then 2 else if 70 ≤ v then 1 else 0
  | 6 => if v < s.rd F.pwHoldup_min then 1 else 0
  | _ => 0

/-- Reading of a numeric sensor. [DESIGN CHOICE, log entry 53] -/
def State.sensor (s : State) (id : Nat) : Nat :=
  match id with
  | 1 => s.rd F.pwIn_mv
  | 2 => s.rd F.pwInP_p10ms
  | 3 => s.rd F.pwTemp0_die
  | 4 => s.rd F.pwTemp0_dram
  | 5 => s.rd F.pwTemp0_lid
  | 6 => s.rd F.pwHoldup_mj
  | _ => s.rd F.pwStat_level

/-- Each threshold crossing of a numeric sensor since an earlier state is sent as a PlatformEventMessage. [DESIGN CHOICE, log entry 53] -/
def State.crossings (s old : State) : State := ([1, 2, 3, 4, 5, 6].filter fun i => s.sensorLevel i (s.sensor i) != old.sensorLevel i (old.sensor i)).foldl
  (fun (s : State) i => s.emit (.platformEvent i (s.sensorLevel i (s.sensor i)))) s

/-- The module state of state sensor 8: 0 auxiliary, 1 starting, 2 run, 3 pause, 4 stopping, 5 off-latched. [DESIGN CHOICE, log entry 52] -/
def State.moduleState (s : State) : Nat :=
  if s.pow.railsOn.isEmpty then (if s.rd F.msHs_state = 4 then 5 else 0) else s.rd F.pwStat_state

/-- PLDM_SENSOR_READ (R525): numeric sensors 1 to 7, state sensors 8 and 9; in recovery the target does not answer (R576). -/
def execPldmSensorRead (id : Fin 16) (s : State) : Host.Outcome State Fault Refusal :=
  finish <|
    let i := id.val
    if !s.managed || s.boot.stage == 14 || i = 0 || 9 < i then s
    else if i = 8 then s.emit (.pldmReading 8 true s.moduleState)
    else if i = 9 then s.emit (.pldmReading 9 true (s.rd F.pwStat_therm))
    else s.emit (.pldmReading i false (s.sensor i))

/-- MCTP_CONTROL (R524, R576): Set Endpoint ID, Get Endpoint ID, Get Endpoint UUID, Get MCTP Version Support and Get Message Type Support, commands 1 to 5, are
answered whenever the management domain is powered. [PRESUMED, log entry 51] -/
def execMctpControl (cmd arg : Fin 256) (s : State) : Host.Outcome State Fault Refusal :=
  finish <|
    if !s.managed then s
    else
      let s := if cmd.val = 1 then { s with sec := { s.sec with eid := arg.val } } else s
      s.emit (.mctp (Config.mctpAnswer (leBytes 1 cmd.val ++ leBytes 1 arg.val) [s.sec.eid]))

/-! ### Going down -/

/-- All work is lost without completion: what a switch-off without the stop of R513 leaves (R447, R521). -/
def State.loseAll (s : State) : State :=
  let s := (s.cmds.map (·.1)).foldl (fun (s : State) slot => ((s.discardAttempt slot false).releaseHolds slot).freeSlot slot) s
  s.wr F.glStatus_ready 0

/-- The die is without power: links are down, memory is gone and no start-up is under way (R508, R516). -/
def State.dieOff (s : State) : State :=
  let s := (s.wr F.glStatus_memReady 0).wr F.drGStat_memReady 0
  let s := { s with
    ep := { s.ep with
      linkUp := false
      cfgReady := false }
    sky := { s.sky with ports := [] }
    tl := { s.tl with drivesFs := false }
    pow := { s.pow with
      railsOn := []
      paused := false }
    boot := { s.boot with stage := 0 } }
  let s := (List.range 3).foldl (fun (s : State) n => s.wr (F.swPortStat_state.at (0x80100 + 0x40 * n)) 4) s
  s.showAux

/-- The hot-swap switch opens (R510): MS_HS takes a state and the cause of the switch-off. -/
def State.switchOff (s : State) (st cause : Nat) : State :=
  let s := ((s.wr F.msHs_state st).wr F.msHs_last cause).inc F.msHs_trips 1
  { s with pow := { s.pow with switchOn := false } }

/-- The power-fail stop (R513): every command is killed, the event is reported as device-fatal, the steward marks the stop in flash and writes its record, which
`written` says it completes (R556), and the rails fall. [DESIGN CHOICE, log entry 52; DEDUCED, log entry 54] -/
def State.powerStop (s : State) (code : Nat) (written : Bool) (idx : Nat := 0) : State :=
  if s.pow.railsOn.isEmpty then s
  else
    let log := s.flashLog
    let st := s.now
    let s := (s.deviceStop code .power idx).wr F.pwStat_state 4
    let s := if written then s else { s with flashLog := log }
    let s := { s with pow := { s.pow with
      powerFail := true
      marker := if written then none else some st } }
    s.dieOff

/-- After a stop that latches nothing, the controller qualifies the input again while presence is mated and the module is to run (R510, R529). [DEDUCED, log entry 54] -/
def State.requalify (s : State) : State := if s.mated && s.pow.wanted then s.wr F.msHs_state 1 else s

/-- The 48 V side is switched off by the module (R447, R526): commands in flight are lost, and the module stays off. -/
def State.slotOff (s : State) : State :=
  if !s.pow.switchOn then s
  else
    let s := (s.loseAll.hostLast 0 0xD0C 0).log 0xD0C .power
    let s := (s.switchOff 0 6).dieOff
    { s with pow := { s.pow with wanted := false } }

/-- MS_SLOT_OFF (R446, R447): a write of off = 1 in the attended slot mode. -/
def execMsSlotOff (s : State) : Host.Outcome State Fault Refusal := finish (if s.rdB F.msCfg_attended then s.slotOff else s)

/-- PLDM_POWER_OFF (R526): as the write of off = 1, in either slot mode. -/
def execPldmPowerOff (s : State) : Host.Outcome State Fault Refusal := finish (if s.boot.stage = 14 then s else s.slotOff)

/-- The module starts from off, and a latched state clears (R447, R510, R526). -/
def State.powerOn (s : State) : State :=
  if s.pow.switchOn || !s.managed then s
  else
    let s := { s with pow := { s.pow with wanted := true } }
    if s.mated && !s.pow.overV then s.wr F.msHs_state 1 else s.wr F.msHs_state 0

/-- PLDM_POWER_ON (R526): as a press of ATTN_BTN#. -/
def execPldmPowerOn (s : State) : Host.Outcome State Fault Refusal := finish (if s.boot.stage = 14 then s else s.powerOn)

/-- ATTN_BUTTON_PRESS (R443, R446, R447, R526): the press is counted and signalled, wakes where enabled, and starts the module from off. -/
def execAttnButtonPress (s : State) : Host.Outcome State Fault Refusal :=
  finish <|
    if !s.managed then s
    else
      let s := (s.inc F.msBtn_presses 1).slotSignal F.slotStat_abp F.slotCtrl_abpEn
      (s.wake 3).powerOn

/-! ### Supplies (R509, R510, R512, R529) -/

/-- An auxiliary power-on: the management domain is powered for the first time (R44, R509, R529). Everything resets; the flash is as it was. -/
def State.auxReset (s : State) : State :=
  let r := State.reset
  let x := s.sec
  { r with
    pending := s.pending
    dram := { r.dram with
      gen := s.dram.gen + 1
      sub := tmap s.dram.sub fun (c : SubCh) => { SubCh.new with poison := c.poison, repaired := c.repaired } }
    pow := { r.pow with marker := s.pow.marker }
    sec := { x with
      unlockNext := 0
      unlocked := 0
      challenge := none
      updOp := 0
      updBuf := []
      updMissing := 0
      handover := 0
      issued := []
      eid := 0
      reloads := [] }
    ep := { r.ep with perst := s.ep.perst }
    flashLog := s.flashLog
    out := s.out
    fresh := s.fresh }.publishSec

/-- AUX_POWER_ON (R44, R509, R529): with no 48 V the management domain comes up anew; with 48 V present only the auxiliary supply is there. [DEDUCED, log entry 43] -/
def execAuxPowerOn (s : State) : Host.Outcome State Fault Refusal :=
  finish <|
    if s.pow.auxOn then s
    else
      let pres := s.rd F.msHs_pres
      let s := if s.managed then s else (s.auxReset.wr F.msHs_pres pres).wr F.msHs_state pres
      { s with pow := { s.pow with auxOn := true } }.showAux

/-- AUX_POWER_LOSS (R508, R509): with 48 V present only the auxiliary state is lost; without it the module is unpowered and harmless. -/
def execAuxPowerLoss (s : State) : Host.Outcome State Fault Refusal :=
  finish <|
    if !s.pow.auxOn then s
    else
      let s := { s with pow := { s.pow with auxOn := false } }
      if s.pow.switchOn then s.showAux
      else
        let pres := s.rd F.msHs_pres
        s.auxReset.wr F.msHs_pres pres

/-- PRESENCE_MATED (R446, R447, R510): a latched state clears, and the controller qualifies the input. -/
def execPresenceMated (s : State) : Host.Outcome State Fault Refusal :=
  finish <|
    if s.mated then s
    else
      let s := ((s.wr F.msHs_pres 1).wr F.msHs_state 1).wr (F.slotStat_pres.cfg 0) 1
      let s := { s with pow := { s.pow with
        wanted := true
        overV := false } }
      s.slotSignal F.slotStat_presChg F.slotCtrl_presEn

/-- INPUT_QUALIFIED (R510): presence mated and the input at 38 V for 10 ms; the switch closes and the bank charges. -/
def execInputQualified (s : State) : Host.Outcome State Fault Refusal :=
  finish <|
    if !s.mated || s.pow.switchOn || s.rd F.msHs_state != 1 then s
    else
      let s := if s.managed then s else s.auxReset.wr F.msHs_pres 1
      { s.wr F.msHs_state 2 with pow := { s.pow with switchOn := true } }

/-- PRESENCE_LOST (R510, R513): the switch opens, with a power-fail stop. -/
def execPresenceLost (written : Bool) (s : State) : Host.Outcome State Fault Refusal :=
  finish <|
    if !s.mated then s
    else
      let s := (s.wr F.msHs_pres 0).wr (F.slotStat_pres.cfg 0) 0
      let s := s.slotSignal F.slotStat_presChg F.slotCtrl_presEn
      if s.pow.switchOn then (s.powerStop 0x20C written).switchOff 0 5 else s.wr F.msHs_state 0

/-- INPUT_OVERVOLTAGE (R510): above 64 V the switch opens; it recovers by itself. -/
def execInputOvervoltage (written : Bool) (s : State) : Host.Outcome State Fault Refusal :=
  finish <|
    if !s.pow.switchOn then s
    else
      let s := s.slotSignal F.slotStat_pwrFault F.slotCtrl_pfEn
      let s := (s.powerStop 0x203 written).switchOff 0 1
      { s with pow := { s.pow with overV := true } }

/-- OVERVOLTAGE_RECOVERY (R510): below 62 V for 10 ms. -/
def execOvervoltageRecovery (s : State) : Host.Outcome State Fault Refusal :=
  finish <| if s.pow.overV then { s with pow := { s.pow with overV := false } }.requalify else s

/-- OVERCURRENT_TRIP (R510): 2 timed current, 3 fast current, 4 switch temperature; the switch opens and latches. -/
def execOvercurrentTrip (cause : Fin 5) (written : Bool) (s : State) : Host.Outcome State Fault Refusal :=
  finish <|
    if !s.pow.switchOn || cause.val < 2 then s
    else
      let s := s.slotSignal F.slotStat_pwrFault F.slotCtrl_pfEn
      (s.powerStop 0x204 written).switchOff 4 cause.val

/-- INPUT_UNDERVOLTAGE (R388, R512): below 36 V with presence mated the module pauses; nothing is killed. -/
def execInputUndervoltage (s : State) : Host.Outcome State Fault Refusal :=
  finish <|
    if !s.mated || s.pow.railsOn.isEmpty || s.pow.paused then s
    else
      let s := { s with pow := { s.pow with
        paused := true
        pauseAt := s.now
        stableUs := 0 } }
      let s := ((s.wr F.pwStat_state 3).wr F.pwStat_inputStable 0).selfRefreshAll
      (s.log 0x201 .power).pwSignal 0

/-- Length of a ride-through in ns (R512): values of ride_ms above 10 act as 10. -/
def State.rideNs (s : State) : Nat := min 10 (s.rd F.pwCfg_rideMs) * 1000000

/-- INPUT_RECOVERED (R512): above 38 V within ride_ms every unit goes on where it stopped; the ARITH cycles of the pause do not count (R520). [DESIGN CHOICE, log entry 106] -/
def execInputRecovered (s : State) : Host.Outcome State Fault Refusal :=
  finish <|
    if !s.pow.paused || s.rideNs < s.nsSince s.pow.pauseAt then s
    else
      let s := { s with pow := { s.pow with
        paused := false
        gatedNs := s.pow.gatedNs + s.nsSince s.pow.pauseAt } }
      let s := s.wr F.pwStat_state (if s.boot.stage = 13 then 2 else 1)
      let s := if s.rdB F.ckSrcStat_paused then s
        else
          let s := { s with dram := { s.dram with srAll := false } }
          (List.range 16).foldl (fun (s : State) c => s.wr (F.drChStat_sr.at (0x50000 + 0x1000 * c)) 0) s
      (s.log 0x20E .power).pwSignal 1

/-- RIDE_THROUGH_EXPIRY (R512, R513): the pause has lasted ride_ms. [DESIGN CHOICE, log entry 55; DESIGN CHOICE, log entry 106] -/
def execRideThroughExpiry (written : Bool) (s : State) : Host.Outcome State Fault Refusal :=
  finish <| if s.pow.paused && s.rideNs ≤ s.nsSince s.pow.pauseAt then ((s.powerStop 0x202 written).switchOff 0 6).requalify else s

/-- HOLDUP_MEASURE (R514): usable energy of the bank in mJ. [DESIGN CHOICE, log entry 55] -/
def execHoldupMeasure (mj : Fin 65536) (s : State) : Host.Outcome State Fault Refusal :=
  let old := s
  let s := s.wr F.pwHoldup_mj mj.val
  let ok := decide (s.rd F.pwHoldup_min ≤ mj.val)
  let s := s.wrB F.pwStat_holdupOk ok
  finish ((if ok then s else (s.log 0x20B .power).pwSignal 7).crossings old)

/-! ### Rails (R516) -/

/-- RAIL_POWER_GOOD (R516): the next rail of the sequence is good; the switch is on once the bank is charged. -/
def execRailPowerGood (rail : Fin 7) (s : State) : Host.Outcome State Fault Refusal :=
  finish <|
    if s.pow.switchOn && s.pow.railsOn.length == rail.val then
      { s.wr F.msHs_state 3 with pow := { s.pow with railsOn := s.pow.railsOn ++ [rail.val] } }.showAux
    else s

/-- RAIL_FAULT (R516): a regulator leaves regulation while its rail is enabled. -/
def execRailFault (rail : Fin 7) (written : Bool) (s : State) : Host.Outcome State Fault Refusal :=
  finish <| if s.pow.railsOn.contains rail.val then ((s.powerStop 0x20A written rail.val).switchOff 0 6).requalify else s

/-! ### Power limit and throttle (R518 to R520, R522) -/

/-- PW_LIMIT.eff: the lowest of the host's, the out-of-band and the plan's limit (R518). -/
def State.showLimit (s : State) : State :=
  let cap := s.rd F.pwLimitCap_ceiling
  let oob := s.rd F.pwLimitCap_oob
  s.wr F.pwLimit_eff (min (s.rd F.pwLimit_host) (min cap (if oob = 0 then cap else oob)))

/-- A written limit, clamped into 250 W to the ceiling (R518). -/
def State.clampLimit (s : State) (v : Nat) : Nat × State :=
  let x := max 250 (min v (s.rd F.pwLimitCap_ceiling))
  (x, if x = v then s else (s.log 0x20D .power).pwSignal 3)

/-- PW_LIMIT_WRITE (R518): the host limit of the physical function. -/
def execPwLimitWrite (v : Word) (s : State) : Host.Outcome State Fault Refusal :=
  let (x, s) := s.clampLimit (bits v.toNat 0 10)
  finish (s.wr F.pwLimit_host x).showLimit

/-- PLDM_POWER_LIMIT_SET (R518, R526): the out-of-band limit, 0 removes it. -/
def execPldmPowerLimitSet (v : Fin 65536) (s : State) : Host.Outcome State Fault Refusal :=
  finish <|
    if !s.managed || s.boot.stage == 14 then s
    else
      let (x, s) := if v.val = 0 then (0, s) else s.clampLimit v.val
      let old := s.rd F.pwLimitCap_oob
      let s := (s.wr F.pwLimitCap_oob x).showLimit
      if old = x then s else s.pwSignal 8

/-- The power controller on one 10 µs sample of power p (R519). [DESIGN CHOICE, log entry 57] -/
def State.powerControl (s : State) (p : Nat) : State :=
  let l := s.rd F.pwLimit_eff
  let w := s.pow
  let x := if l < p then min 100000 (w.excursion + 100) else if w.pwrLevel = 0 then w.excursion - 10 else w.excursion
  let reached := x == 100000 && w.excursion != 100000
  let past := decide (l < p) && x == 100000
  let up := if past && !reached then w.upUs + 10 else 0
  let step := reached || 100 ≤ up
  let down := if p * 100 < 95 * l then w.downUs + 10 else 0
  let level := if 750 < p then w.pwrLevel + 2 else if step then w.pwrLevel + 1 else if 1000 ≤ down then w.pwrLevel - 1 else w.pwrLevel
  let s := { s with pow := { w with
    excursion := x
    pwrLevel := min 15 level
    upUs := if step then 0 else up
    downUs := if 1000 ≤ down then 0 else down } }
  let s := s.wr F.pwXtime_xUs (x / 10)
  let s := if reached then ((s.inc F.pwXtime_expired 1).log 0x205 .power).pwSignal 2 else s
  s.showLevel

/-- ARITH cycles of every 16 that a throttle level gates (table Throttle levels). -/
def gatedOf16 (level : Nat) : Nat := if level = 15 then 15 else min 12 level

/-- POWER_SAMPLE (R514, R519, R520, R522, R523): every 10 µs, the cycles gated since the last sample, input voltage and current, power over 10 µs and 10 ms, and the energy since the last sample. [DESIGN CHOICE, log entry 57] -/
def execPowerSample (mv ma10 : Fin 65536) (p10us p10ms : Fin 1024) (uj : Nat) (s : State) : Host.Outcome State Fault Refusal :=
  let old := s
  let s := (s.wr F.pwIn_mv mv.val).wr F.pwIn_ma10 ma10.val
  let s := ((s.wr F.pwInP_p10us p10us.val).wr F.pwInP_p10ms p10ms.val).inc2 F.pwEinLo_uj F.pwEinHi_uj uj
  let good := decide (38000 ≤ mv.val) && decide (mv.val ≤ 62000)
  let s := { s with pow := { s.pow with stableUs := if good then min 1000000 (s.pow.stableUs + 10) else 0 } }
  let s := s.wrB F.pwStat_inputStable (s.pow.stableUs == 1000000)
  let s := if s.pow.paused then s
    else
      let g := s.pow.gatedNs + 625 * gatedOf16 (s.rd F.pwStat_level)
      let s := s.powerControl p10us.val
      let s := { s with pow := { s.pow with gatedNs := g } }
      let t := if s.rd F.pwStat_level = 0 then s.pow.thrUs else s.pow.thrUs + 10
      let s := { s with pow := { s.pow with thrUs := t % 1000 } }
      s.inc2 F.pwThrMsLo_ms F.pwThrMsHi_ms (t / 1000)
  finish (s.crossings old)

/-- PW_RAIL_SEL_WRITE (R523, R528): ready clears, and the selected rail's measured voltage and current are snapshotted; number 7 names no rail. [DESIGN CHOICE, log entry 28; DESIGN CHOICE, log entry 57] -/
def execPwRailSelWrite (v : Word) (mv ma100 : Fin 65536) (s : State) : Host.Outcome State Fault Refusal :=
  let r := bits v.toNat 0 3
  let s := (s.wr F.pwRailSel_rail r).wr F.pwRailSel_ready 0
  finish (if r = 7 then s else ((s.wr F.pwRailData_mv mv.val).wr F.pwRailData_ma100 ma100.val).wr F.pwRailSel_ready 1)

/-! ### Thermal limits (R521, R522) -/

/-- Entry values of thermal state t for die and DRAM; a DRAM figure enters above its value. -/
def thermalEntry (t : Nat) : Nat × Nat := [(0, 0), (95, 85), (100, 95), (110, 105), (120, 115)].getD t (0, 0)

/-- A figure reaches state t. -/
def thermalReach (t die dram : Nat) : Bool := (thermalEntry t).1 ≤ die || (thermalEntry t).2 < dram

/-- The highest state that the figures reach. -/
def thermalUp (die dram : Nat) : Nat := ([4, 3, 2, 1].find? fun t => thermalReach t die dram).getD 0

/-- The state after leaving those whose entry values both figures are 3 °C below. [DEDUCED, log entry 58] -/
def thermalDown : Nat → Nat → Nat → Nat
  | 0, _, _ => 0
  | t + 1, die, dram => if die + 3 ≤ (thermalEntry (t + 1)).1 ∧ dram + 3 ≤ (thermalEntry (t + 1)).2 then thermalDown t die dram else t + 1

/-- Enters a thermal state: its code is logged once, with its event. [DEDUCED, log entry 58] -/
def State.thermalEnter (s : State) (t : Nat) : State := (s.log (0x205 + t) .power).pwSignal (3 + t)

/-- The thermal level after one ms in state t (R521). -/
def State.thermalLevel (s : State) (t : Nat) : State :=
  let w := s.pow
  if 2 ≤ t then
    let l := min 15 (w.thrLevel + 1)
    { s with pow := { w with
      thrLevel := if t = 3 then max 13 l else l
      coolMs := 0 } }
  else if 10 ≤ w.coolMs + 1 then { s with pow := { w with
      thrLevel := w.thrLevel - 1
      coolMs := 0 } }
  else { s with pow := { w with coolMs := w.coolMs + 1 } }

/-- THERMAL_SAMPLE (R521 to R523): once every ms the sensors are read, and the thermal state and level follow. -/
def execThermalSample (die lid dram conv sw bank : Fin 256) (hot : Fin 24) (written : Bool) (s : State) : Host.Outcome State Fault Refusal :=
  let old := s
  let s := (((s.wr F.pwTemp0_die die.val).wr F.pwTemp0_lid lid.val).wr F.pwTemp0_dram dram.val).wr F.pwTemp0_conv conv.val
  let s := ((s.wr F.pwTemp1_switch sw.val).wr F.pwTemp1_bank bank.val).wr F.pwTemp1_hotIdx hot.val
  let s := s.crossings old
  finish <|
    let t := s.rd F.pwStat_therm
    let up := thermalUp die.val dram.val
    if up = 4 then (if s.pow.switchOn then (s.powerStop 0x209 written).switchOff 4 7 else s)
    else
      let t' := if t < up then up else max up (thermalDown t die.val dram.val)
      let s := if t < t' then s.thermalEnter t' else s
      let s := s.wr F.pwStat_therm t'
      if s.pow.paused then s else (s.thermalLevel t').showLevel

/-- THERMAL_COMPARATOR_TRIP (R521): the bus converter is disabled whatever the firmware does, and the stop of R513 is not performed. [DEDUCED, log entry 56] -/
def execThermalComparatorTrip (s : State) : Host.Outcome State Fault Refusal :=
  finish <| if s.pow.railsOn.isEmpty then s else { s.loseAll.dieOff with pow := { s.loseAll.dieOff.pow with switchOn := false } }

end Sys2Proof.Machine
end

