-- ==== Sys2Proof/Machine/Saves.lean ====
section
/-! DEFINITION. Group-level saves and restores of suspended commands (05 R180, 08 R284 to R288). -/

namespace Sys2Proof.Machine

/-! ### Group-level save and restore -/

/-- Rank of a logical bole among those its partition owns under the epoch that a command is bound to (R288). -/
def State.saveSlot (s : State) (c : Cmd) (n : Nat) : Nat :=
  let own := if c.epoch = s.rd F.scEpochCur_epoch then s.ownMask c.desc.part else s.sched.ownBefore.getD c.desc.part 0
  ((List.range n).filter own.testBit).length

/-- Data address of a bole's slot in the save area (R288). -/
def State.saveAddr (s : State) (c : Cmd) (n : Nat) : Nat :=
  s.rd2 (F.ptSaveLo_save.at (ptBase c.desc.part)) (F.ptSaveHi_save.at (ptBase c.desc.part)) + 933888 * s.saveSlot c n

/-- The 4 KiB of an accumulator bank as bytes, row-major (R288). -/
def accBytes (b : Bole) (bank : Nat) : List Byte := (List.range 1024).flatMap fun i => leBytes 4 ((tgetD b.acc (bank * 1024 + i) 0).toNat)

/-- Charges the time and the energy of a save or a restore of some bytes by a command's shares (R298). [DESIGN CHOICE, log entry 13] -/
def State.chargeSave (s : State) (c : Cmd) (bytes : Nat) : State :=
  let ns := s.saveNs (compOf c.desc.target) * c.shares.length
  let e := s.calibrated (actEnergy [(0, bytes), (4, bytes / 64)] / 65536)
  let q := tgetD s.acct c.sq ⟨0, 0, 0, 0, 0, 0⟩
  let s := { s with acct := tput s.acct c.sq { q with bole := q.bole + ns, energy := q.energy + e } }
  ((s.acAdd c.desc.part 0 ns).acAdd c.desc.part 0x60 e).acAdd c.desc.part 0x80 ns

/-- Writes the live banks of logical bole n into its save slot and notes what stands there (R284, R285, R288). The bytes of the issue contexts have no layout
in the spec: their region holds free values and the contexts are kept with their commands. [DESIGN CHOICE, log entry 22] -/
def State.saveBole (s : State) (c : Cmd) (n : Nat) : State :=
  let p := c.desc.part
  let b := s.bole (s.physOf n)
  let a := s.saveAddr c n
  let s := b.spadLive.foldl (fun (s : State) k => (s.dramWrite p (a + 16384 * k) (mread 0 b.spad (16384 * k) 16384)).getD s) s
  let s := b.accLive.foldl (fun (s : State) k => (s.dramWrite p (a + 786432 + 4096 * k) (accBytes b k)).getD s) s
  let s := s.dramForget (a + 917504) (a + 933888)
  { s with sched := { s.sched with saved := tput s.sched.saved n ⟨a, b.spadLive, b.accLive, b.redAcc⟩ } }

/-- The errors that the reads of a save can meet: those of scratchpad and accumulator words (R123, R191). -/
def saveErr : UnitErr → UnitErr
  | .sramCorrected false a => .sramCorrected false a
  | .sramUncorrected false a => .sramUncorrected false a
  | .accCorrected a w => .accCorrected a w
  | .accUncorrected a w => .accUncorrected a w
  | _ => .none

/-- The save of a command ends (R97, R233, R285, R288, R298, R302): no check of its boles' arrays is pending, its boles' live banks stand in the save area, its
contexts and its hold of the accumulator banks leave the boles, and it is suspended. An uncorrectable word that the save reads kills it instead (R191). -/
def execGroupSaveComplete (slot : SaveEnd) (s : State) : Host.Outcome State Fault Refusal :=
  finish <| match tget s.cmds slot.slot.val with
    | none => s
    | some c =>
      let boles := c.shares.filter s.boleOnline
      if c.phase != .saving || s.pow.paused || s.windowOpen slot.slot.val || boles.any fun n => !(s.bole (s.physOf n)).tiles.isEmpty then s
      else match s.unitErr slot.bole.val 0 0 slot.slot.val false (saveErr slot.err) with
      | (s, false) => s
      | (s, true) =>
        let s := s.stopIssue slot.slot.val
        let saved := boles.flatMap fun n => ((s.bole (s.physOf n)).ctxs.filter fun (x : Nat × IssueCtx) => x.2.slot == slot.slot.val).map fun x => (n, x.1, x.2)
        let accs := boles.flatMap fun n => ((s.bole (s.physOf n)).accBanks.filter fun (x : Nat × AccBank) => x.2.slot == slot.slot.val).map fun x => (n, x.1, x.2)
        let s := s.chargeSave c (boles.foldl (fun t n => t + (s.bole (s.physOf n)).liveBytes) 0)
        let s := boles.foldl (fun (s : State) n => s.saveBole c n) s
        let s := { s with boles := tmap s.boles fun (b : Bole) =>
          let ctxs := b.ctxs.filter fun (x : Nat × IssueCtx) => x.2.slot != slot.slot.val
          let gone := ctxs.isEmpty && !b.ctxs.isEmpty
          { b with
            ctxs := ctxs, accBanks := b.accBanks.filter fun x => x.2.slot != slot.slot.val
            spadLive := if gone then [] else b.spadLive, accLive := if gone then [] else b.accLive, redAcc := if gone then [] else b.redAcc } }
        (s.countPreempt c.shares).setCmd slot.slot.val { c with phase := .suspended, saved := saved, savedAcc := accs, wasSuspended := true }

/-- Reads the banks of a save slot back into logical bole n (R286, R288); a word that cannot be read, or a gated bank (R182). -/
def State.restoreBole (s : State) (c : Cmd) (n : Nat) : Except Bad State :=
  match tget s.sched.saved n with
  | none => .ok s
  | some w =>
    if let some k := w.spad.find? (s.gated (s.physOf n)) then .error (.data 0x503 (16384 * k)) else
    let p := c.desc.part
    let parts := (w.spad.map fun k => (false, k, s.dramRead p (w.addr + 16384 * k) 16384)) ++
      (w.acc.map fun k => (true, k, s.dramRead p (w.addr + 786432 + 4096 * k) 4096))
    match parts.findSome? fun e => match e.2.2 with | .bad a => some a | .denied a => some a | .ok _ => none with
    | some a => .error (.contained 0x30A a)
    | none =>
      let b := parts.foldl (fun (b : Bole) e => match e.2.2 with
        | .ok data =>
          if e.1 then { b with
            acc := (List.range 1024).foldl (fun m i => wput m (e.2.1 * 1024 + i) (BitVec.ofNat 32 (field data (4 * i) 4))) b.acc
            accLive := if b.accLive.contains e.2.1 then b.accLive else b.accLive ++ [e.2.1] }
          else { b with
            spad := mwrite 0 b.spad (16384 * e.2.1) data
            spadLive := if b.spadLive.contains e.2.1 then b.spadLive else b.spadLive ++ [e.2.1] }
        | _ => b) (s.bole (s.physOf n))
      .ok { s.setBole (s.physOf n) { b with redAcc := w.red } with sched := { s.sched with saved := tdel s.sched.saved n } }

/-- The restore of a suspended command ends (R273, R286, R288): with what its boles' save slots hold it is back on its contexts and its accumulator banks and goes
on from its next instruction; an uncorrectable word kills it instead. Boles whose banks come back run nothing else at that moment. -/
def execGroupRestoreComplete (slot : Fin 4096) (s : State) : Host.Outcome State Fault Refusal :=
  finish <| match tget s.cmds slot.val with
    | none => s
    | some c =>
      let boles := (c.saved.map (·.1)).eraseDups
      let free := c.saved.all (fun e => (tget (s.bole (s.physOf e.1)).ctxs e.2.1).isNone && s.boleOnline e.1) &&
        boles.all fun n => (tget s.sched.saved n).isNone || (s.bole (s.physOf n)).ctxs.isEmpty
      let ahead := s.sched.preempting.any fun x => match tget s.cmds x with
        | some l => compOf l.desc.target == compOf c.desc.target
        | none => false
      if c.phase != .suspended || !free || ahead || !s.computeReady || !s.isNext slot.val c then s
      else
        match boles.foldlM (fun (s : State) n => s.restoreBole c n) s with
        | .error (.data code a _) =>
          let p := blBase (s.physOf (boles.getD 0 0))
          ((s.inc (F.spadDrop_count.at p) 1).setCmd slot.val { c with phase := .running }).dataFault slot.val code .scheduler 0 a
        | .error (.contained code a) => (s.setCmd slot.val { c with phase := .running }).containedKill slot.val code .scheduler 0 a
        | .error .wait => s
        | .ok s =>
          let s := c.savedAcc.foldl (fun (s : State) e =>
            let b := s.bole (s.physOf e.1)
            s.setBole (s.physOf e.1) { b with accBanks := tput b.accBanks e.2.1 e.2.2 }) s
          let s := c.saved.foldl (fun (s : State) e =>
            let ph := s.physOf e.1
            let b := s.bole ph
            s.setBole ph { b with ctxs := tput b.ctxs e.2.1 { e.2.2 with startAt := s.now, gatedAt := s.pow.gatedNs, stopped := false } }) s
          let s := s.chargeSave c (boles.foldl (fun t n => t + (s.bole (s.physOf n)).liveBytes) 0)
          s.modCmd slot.val fun c => { c with phase := .running, saved := [], savedAcc := [] }

/-- Two microseconds pass with a window of a saved command still open (R180): the command is killed and re-run instead, PREEMPT_DEMOTED. [DESIGN CHOICE, log entry 106] -/
def execSaveWindowWaitExpiry (slot : Fin 4096) (s : State) : Host.Outcome State Fault Refusal :=
  finish <| match tget s.cmds slot.val with
    | none => s
    | some c =>
      if c.phase == .saving && s.windowOpen slot.val then (s.logCmd 0x306 slot.val).killCmd slot.val .preempt else s

end Sys2Proof.Machine
end

