-- ==== Sys2Proof/Machine/Service.lean ====
section
/-! DEFINITION. Watchdogs, the service requests of FT_SVC_CTRL and the reads of the fault logs (19). -/

namespace Sys2Proof.Machine

/-- WATCHDOG_EXPIRY (R347, R557): 16 µs without progress of an engine are an engine fault. [DEDUCED, log entry 59] -/
def execWatchdogExpiry (e : Fin 6) (s : State) : Host.Outcome State Fault Refusal := finish (s.engineFault e.val false)

/-! ### Service requests (R567 to R570) -/

/-- A service request begins, or is refused with result 1 or 2 (R570). -/
def State.service (s : State) (valid : Bool) (run : State → State) : State :=
  if s.rdB F.ftSvcStat_busy || s.rdB F.ftStat_recovering then s.wr F.ftSvcStat_result 1
  else if !valid then s.wr F.ftSvcStat_result 2
  else run (s.wr F.ftSvcStat_busy 1)

/-- BOLE_OUT_OF_SERVICE (R567): a reserve bole goes out at once; one that serves a logical address drains first; one that is out already stays so. [DESIGN CHOICE, log entry 60] -/
def execBoleOutOfService (p : Fin 128) (s : State) : Host.Outcome State Fault Refusal :=
  let p := p.val
  finish <| s.service (p < 68) fun s =>
    match s.logOf p with
    | some n => if s.boleOnline n then s.setBole p { s.bole p with draining := true } else s.serviceDone p 0
    | none =>
      if p % 17 = 16 ∧ s.rd (F.status_state.at (blBase p)) = 3 then
        (((s.wr (F.spare_spareOk.at (cgBase (p / 17))) 0).wr (F.status_state.at (blBase p)) 0).mapChanged (p / 17)).serviceDone p 0
      else s.serviceDone p 0

/-- SERVICE_DRAIN_COMPLETE (R23, R567): the commands on the bole have committed; the understory bole is prepared, or the bole goes offline. -/
def execServiceDrainComplete (p : Fin 68) (s : State) : Host.Outcome State Fault Refusal :=
  let p := p.val
  let g := p / 17
  finish <|
    if !(s.bole p).draining || !(s.slotsOn p).isEmpty || (s.bole (17 * g + 16)).standFor.isSome then s
    else match s.logOf p with
      | none => s.serviceDone p 0
      | some n =>
        if p % 17 = 16 then
          let s := (s.wr (F.spare_spareOk.at (cgBase g)) 0).wr (F.status_state.at (blBase p)) 0
          let s := (s.wr (F.spare_active.at (cgBase g)) 0).showOwner n (blBase p)
          ((s.wr (F.owner_owned.at (blBase p)) 0).goOffline n).serviceDone p 5
        else if s.spareFree g then s.prepareSpare n
        else (s.goOffline n).serviceDone p 5

/-- BOLE_INTO_SERVICE (R172, R568): a bole that is out runs its self-test and is scrubbed; one that is in service stays so. [DESIGN CHOICE, log entry 60; DEDUCED, log entry 61] -/
def execBoleIntoService (p : Fin 128) (s : State) : Host.Outcome State Fault Refusal :=
  let p := p.val
  finish <| s.service (p < 68) fun s =>
    let st := s.rd (F.status_state.at (blBase p))
    if st ≠ 0 ∧ st ≠ 5 then s.serviceDone p 0
    else
      let s := s.setBole p { s.bole p with testing := true, scrubFor := 3 }
      (s.wr (F.status_state.at (blBase p)) 2).wr (F.scrub_busy.at (blBase p)) 1

/-- BOLE_SELFTEST_COMPLETE (R568): with its scrub done as well, the bole is back in service; a test that fails leaves it offline with result 3. [DEDUCED, log entry 94] -/
def execBoleSelftestComplete (p : Fin 68) (ok : Bool) (s : State) : Host.Outcome State Fault Refusal :=
  let p := p.val
  finish <|
    let b := s.bole p
    if !b.testing then s
    else if !ok then ((s.wr (F.status_state.at (blBase p)) 0).wr (F.scrub_busy.at (blBase p)) 0).serviceDone p 3
    else
      let s := s.setBole p { b with testing := false }
      if b.scrubFor = 0 then s.returnBole p else s

/-- ROW_REPAIR_REQUEST (R392, R569): the row that holds the data address in FT_SVC_ADDR is due for repair in both devices. -/
def execRowRepairRequest (s : State) : Host.Outcome State Fault Refusal :=
  let a := s.rd2 F.ftSvcAddrLo_addr F.ftSvcAddrHi_addr
  finish <| s.service (a < dramSize) fun s =>
    let (sc, p) := dramMap a
    let row := rankRow p
    let c := s.subch sc
    let s := s.setSubch sc { c with repairDue := c.repairDue ++ [2 * row, 2 * row + 1].filter fun k => !c.repairDue.contains k }
    { s with dram := { s.dram with svcRow := some (sc, row) } }

/-! ### Reading the logs (R555, R556) -/

/-- The record that FT_RSEL selects, as 64 bytes; none where the log does not hold it. -/
def State.selRecord (s : State) (index : Nat) (flash : Bool) : Option (List Byte) :=
  if flash then (s.flashLog[index]?).map fun r =>
    let body := r.take 56 ++ leBytes 4 (field r 56 4 ||| 16)
    body ++ leBytes 4 (crc32c body)
  else
    let n := s.rd F.ftLogSize_kib * 16
    let head := s.rd F.ftLogHead_head
    let back := (head + 2 ^ 32 - index) % 2 ^ 24
    if n = 0 ∨ back = 0 ∨ n < back ∨ head < back then none
    else
      let a := s.rd2 F.ftLogBaseLo_base F.ftLogBaseHi_base + ((head - back) % n) * 64
      match s.dramRead moduleKey a 64 with
      | .ok r => some r
      | _ => none

/-- FT_RSEL_WRITE (R555, R556): ready clears and the record is snapshotted into FT_RDATA; a record that is not held reads 0. -/
def execFtRselWrite (v : Word) (s : State) : Host.Outcome State Fault Refusal :=
  let n := v.toNat
  let s := (s.wr F.ftRsel_index (bits n 0 24)).wr F.ftRsel_flash (bits n 24 1)
  let r := (s.selRecord (bits n 0 24) (n.testBit 24)).getD []
  let s := (List.range 16).foldl (fun (s : State) i => s.wr (F.ftRdata_data.at (4 * i)) (field r (4 * i) 4)) s
  finish (s.wr F.ftRsel_ready 1)

end Sys2Proof.Machine
end

