-- ==== Sys2Proof/Machine/Secure.lean ====
section
/-! DEFINITION. Attestation, debug access, owner transfer, firmware updates, steward hand-over and the entropy source (20). -/

namespace Sys2Proof.Machine

/-! ### The mailbox (R603) -/

/-- The request bytes of the SE_ mailbox. -/
def State.mbRequest (s : State) : List Byte :=
  let n := s.rd F.seMbCtrl_len
  ((List.range (cdiv n 4)).flatMap fun i => leBytes 4 (s.rd (F.seMbBuf_data.at (4 * i)))).take n

/-- Answers a mailbox request: the response bytes, their length, and done. -/
def State.mbAnswer (s : State) (data : List Byte) : State :=
  let s := (List.range (cdiv data.length 4)).foldl (fun (s : State) i => s.wr (F.seMbBuf_data.at (4 * i)) (field data (4 * i) 4)) s
  ((s.wr F.seMbRlen_len data.length).wr F.seMbCtrl_done 1).wr F.seMbCtrl_busy 0

/-- Refuses a mailbox request. -/
def State.mbRefuse (s : State) : State := (s.wr F.seMbCtrl_error 1).wr F.seMbCtrl_busy 0

/-- The steward serves the mailbox: it runs and no request is out of its length. -/
def State.mbServes (s : State) : Bool :=
  3 ≤ s.boot.stage && s.boot.stage ≤ 13 && 1 ≤ s.rd F.seMbCtrl_len && s.rd F.seMbCtrl_len ≤ 4096

/-! ### Attestation (R583, R584) -/

/-- Requests whose answer carries a fresh nonce: CHALLENGE and GET_MEASUREMENTS. [PRESUMED, log entry 51] -/
def spdmFresh (req : List Byte) : Bool := field req 1 1 == 0x83 || field req 1 1 == 0xE0

/-- What the responder answers (R582 to R584): GET_DIGESTS and GET_CERTIFICATE from the certificate slot, other requests with the measurements of this moment. [PRESUMED, log entry 51] -/
def State.spdmAnswer (s : State) (d : Nat) (req : List Byte) : List Byte :=
  let slot := s.certSlot
  let off := field req 4 2
  let n := min (field req 6 2) (slot.length - off)
  if field req 1 1 == 0x81 then leBytes 4 0x01000112 ++ Config.sha384 slot
  else if field req 1 1 == 0x82 && field req 2 1 == 0 && off < slot.length then
    leBytes 4 0x0212 ++ leBytes 2 n ++ leBytes 2 (slot.length - off - n) ++ bytesAt slot off n
  else Config.spdmAnswer d req slot s.measurements

/-- SPDM_REQUEST (R579, R583, R584): over MCTP with its bytes, or through the mailbox; one that needs fresh randomness is refused while the entropy source
fails. In recovery the target does not answer (R576). [PRESUMED, log entry 51] -/
def execSpdmRequest (mctp : Option (List Byte)) (s : State) : Host.Outcome State Fault Refusal :=
  let req := mctp.getD s.mbRequest
  let (d, s) := s.draw
  let ans := s.spdmAnswer d req
  let refused := spdmFresh req && !s.rdB F.seStat_entropyOk
  finish <| match mctp with
    | some _ => if !s.managed || s.boot.stage == 14 || refused then s else s.emit (.mctp ans)
    | none => if !s.mbServes then s.mbRefuse else if refused then s.mbRefuse else s.mbAnswer (ans.take 4096)

/-! ### Debug access and owner (R588, R589, R592) -/

/-- DEBUG_UNLOCK_REFUSED: the challenge is discarded (R592). -/
def State.debugRefuse (s : State) : State := { s.log 0xF08 .steward with sec := { s.sec with challenge := none } }.mbRefuse

/-- DEBUG_CHALLENGE (R579, R589, R592): level 1 or 2 in the first byte, 3 for the owner reset; a second challenge before the first is answered is refused. [DESIGN CHOICE, log entry 46] -/
def execDebugChallenge (s : State) : Host.Outcome State Fault Refusal :=
  let level := field s.mbRequest 0 1
  finish <|
    if !s.mbServes || level == 0 || 3 < level then s.mbRefuse
    else if s.sec.challenge.isSome then s.debugRefuse
    else if !s.rdB F.seStat_entropyOk then s.mbRefuse
    else
      let (d, s) := s.draw
      let nonce := (List.range 32).map fun i => Config.entropy d i
      let c := (nonce ++ leBytes 8 Config.serial.toNat ++ leBytes 1 level ++ leBytes 2 s.sec.ownerGen ++ List.replicate 21 (0 : Byte)).take 64
      { s with sec := { s.sec with challenge := some (level, c), challengedAt := s.now } }.mbAnswer c

/-- The owner changes (R588, R589): the new hash, the next generation, and both plan slots and the content area are free. -/
def State.newOwner (s : State) (owner : Option (List Byte)) : State :=
  { s.wr F.glStatus_staged 0 with sec := { s.sec with
    owner := owner
    ownerGen := s.sec.ownerGen + 1
    slotA := []
    slotB := []
    content := [] } }.publishSec

/-- DEBUG_RESPONSE (R589, R592): a correct response within 10 s makes the unlock pending, or resets the owner; a wrong or late one, or one without a challenge, is refused. [DESIGN CHOICE, log entry 46] -/
def execDebugResponse (s : State) : Host.Outcome State Fault Refusal :=
  let sig := s.mbRequest.take 96
  finish <|
    if !s.mbServes then s.mbRefuse
    else match s.sec.challenge with
      | none => s.debugRefuse
      | some (level, c) =>
        let ok := if level = 1 then s.sec.owner.any fun o => Config.ownerDebugSigned o c sig else Config.debugSigned c sig
        if !ok || 10000000000 < s.nsSince s.sec.challengedAt then s.debugRefuse
        else
          let s := { s with sec := { s.sec with challenge := none } }
          if level = 3 then (if s.sec.unlocked = 0 then (s.newOwner none).mbAnswer [] else s.mbRefuse)
          else { s with sec := { s.sec with unlockNext := level } }.publishSec.mbAnswer []

/-- DEBUG_CHALLENGE_TIMEOUT (R592): after 10 s the challenge is discarded, and a response to it is late. [DESIGN CHOICE, log entry 106] -/
def execDebugChallengeTimeout (s : State) : Host.Outcome State Fault Refusal :=
  finish (if s.nsSince s.sec.challengedAt < 10000000000 then s else { s with sec := { s.sec with challenge := none } })

/-- OWNER_TRANSFER (R588, R593): the record names the current generation and this module, and the current owner has signed it. -/
def execOwnerTransfer (s : State) : Host.Outcome State Fault Refusal :=
  let r := s.mbRequest
  let (hash, gen, serial) := Config.transferFields r
  finish <|
    if !s.mbServes || r.length != 256 || s.sec.unlocked != 0 || gen != s.sec.ownerGen || serial != Config.serial.toNat ||
        !(s.sec.owner.any fun o => Config.transferSigned o r) then s.mbRefuse
    else (s.newOwner (some hash)).mbAnswer []

/-! ### Updates (R594 to R602) -/

/-- Component, flags, security version, image length, pieces and version of a manifest. -/
def manComp (m : List Byte) : Nat := field m 6 1
/-- The manifest carries an owner countersignature. -/
def manCounter (m : List Byte) : Bool := (field m 7 1).testBit 0
/-- Security version or plan serial. -/
def manSvn (m : List Byte) : Nat := field m 8 8
/-- Image bytes. -/
def manLen (m : List Byte) : Nat := field m 16 8
/-- Pieces. -/
def manPieces (m : List Byte) : Nat := field m 24 4
/-- Bytes of a manifest (R594). -/
def manSize (m : List Byte) : Nat := 256 + 48 * manPieces m + 256 + (if manCounter m then 256 else 0)
/-- Bytes of piece n. -/
def pieceLen (m : List Byte) (n : Nat) : Nat := min 65536 (manLen m - 65536 * n)
/-- Largest image of a component (table Update components). [DEDUCED, log entry 62] -/
def compMax (c : Nat) : Nat := [0, 2 ^ 24, 2 ^ 23, 2 ^ 24, 2 ^ 32].getD c 0

/-- Check 1 of R595: format, signature and, where the kind needs it, owner. -/
def State.manifestOk (s : State) (m : List Byte) : Bool :=
  let c := manComp m
  let n := 256 + 48 * manPieces m
  let body := m.take n
  let block := bytesAt m n 256
  let owner := s.sec.owner
  field m 0 4 == 0x544E464D && field m 4 2 == 1 && 1 ≤ c && c ≤ 4 && 1 ≤ manLen m && manLen m ≤ compMax c && manPieces m == cdiv (manLen m) 65536 &&
    manPieces m ≤ 65536 && manSize m ≤ m.length &&
    (if c ≤ 2 then Config.graoloSigned body block
     else if c = 3 then ownerSigned (owner.getD (Config.sha384 (block.take 97))) body block
     else owner.any fun o => ownerSigned o body block) &&
    (!manCounter m || owner.any fun o => ownerSigned o (m.take (n + 256)) (bytesAt m (n + 256) 256))

/-- The counter of a component (R595); content has none. -/
def State.compCounter (s : State) (c : Nat) : Nat := [0, s.sec.fwSvn, s.sec.ucSvn, s.sec.planCtr, 0].getD c 0

/-- A partition is on air: its function says so and it holds a LIVE submission queue (R598). [DEDUCED, log entry 32] -/
def State.onAir (s : State) (p : Nat) : Bool := s.rdB (F.upOnair_onAir.fn p) && s.sqs.any fun e => e.2.part == p && e.2.cls == 0

/-- The causes of R597 as UP_REFUSE shows them, but for busy: owner_lock where no countersigned manifest is being collected, hold-up, input, thermal, on_air, recovering, debug. [DEDUCED, log entry 32] -/
def State.refuseCauses (s : State) : List Bool :=
  [planFlag s.boot.plan 1 && !manCounter s.sec.manifest, !s.rdB F.pwStat_holdupOk, !s.rdB F.pwStat_inputStable, 3 ≤ s.rd F.pwStat_therm, (List.range 16).any s.onAir,
   s.rdB F.ftStat_recovering, s.sec.unlocked != 0]

/-- Updates are refused (R597): owner_lock counts only without a countersignature. [DEDUCED, log entry 62] -/
def State.updateRefused (s : State) (m : List Byte) : Bool :=
  (s.refuseCauses.drop 1).any (·) || (planFlag s.boot.plan 1 && !manCounter m)

/-- Logs a code of an update operation and shows it in UP_STAT. -/
def State.upCode (s : State) (code : Nat) (d0 : Nat := 0) : State := (s.log code .steward 0 d0).wr F.upStat_code code

/-- UP_STAT, UP_COUNT and the state of the collection. -/
def State.showUpdate (s : State) : State :=
  let m := s.sec.manifest
  let st := if m.isEmpty then 0 else if s.sec.held.length = manPieces m then 2 else 1
  ((s.wr F.upStat_state st).wr F.upStat_component (if m.isEmpty then 0 else manComp m)).wr F.upCount_held s.sec.held.length

/-- The PLDM agent asks for the first piece whose bit is clear (R600). -/
def State.askPiece (s : State) : State :=
  match (List.range (manPieces s.sec.manifest)).find? fun n => !s.sec.held.contains n with
  | some n => s.emit (.requestFirmware (65536 * n) (pieceLen s.sec.manifest n))
  | none => s

/-- Submits a manifest (R595, R600): checked in order, stored, or resumed where it is the one being collected, from
then on by the agent that sent it. In recovery only steward firmware is accepted. [DEDUCED, log entry 62] -/
def State.submitManifest (s : State) (data : List Byte) (pldm : Bool) : State :=
  let m := data.take (manSize data)
  let cur := s.sec.manifest
  let go (s : State) : State := if pldm then s.askPiece else s
  if !s.manifestOk data || (s.boot.stage == 14 && manComp data != 1) then s.upCode 0xF03
  else if manSvn m < s.compCounter (manComp m) then s.upCode 0xF04
  else if s.updateRefused m then s.upCode 0xF05
  else if !cur.isEmpty && cur != m then s.upCode 0xF05
  else if cur = m then go (State.showUpdate { s with sec := { s.sec with byPldm := pldm } })
  else
    let s := { s with sec := { s.sec with
      manifest := m
      held := []
      pieces := []
      byPldm := pldm } }
    go s.showUpdate

/-- Submits a piece (R596, R597): ignored where its bit is set, refused in a refusal state, discarded where its hash differs, else written. -/
def State.submitPiece (s : State) (n : Nat) (data : List Byte) : State :=
  let m := s.sec.manifest
  let d := data.take (pieceLen m n)
  if m.isEmpty || manPieces m ≤ n || s.sec.held.contains n then s
  else if s.updateRefused m then s.upCode 0xF05 n
  else if d.length != pieceLen m n || Config.sha384 d != bytesAt m (256 + 48 * n) 48 then s.upCode 0xF02 n
  else { s with sec := { s.sec with held := s.sec.held ++ [n], pieces := tput s.sec.pieces n d } }.showUpdate

/-- The image that the pieces make. -/
def State.stagedImage (s : State) : List Byte := (List.range (manPieces s.sec.manifest)).flatMap fun n => tgetD s.sec.pieces n []

/-- The collection is erased. -/
def State.dropUpdate (s : State) : State :=
  { s with sec := { s.sec with
    manifest := []
    held := []
    pieces := []
    byPldm := false } }.showUpdate

/-- A plan is installed in the slot that the running plan does not occupy, and staged once it passes R538 (R549). [DESIGN CHOICE, log entry 38; DEDUCED, log entry 62] -/
def State.installPlan (s : State) (b : List Byte) : State :=
  let i := if s.rdB F.glStatus_planned then 1 - s.rd F.glStatus_slot else if s.sec.slotA.isEmpty then 0 else 1
  let s := { s.wr F.glStatus_staged 0 with sec := s.sec.setSlot i b }
  match s.planTest i with
  | some (code, k) => s.planErr code k i
  | none =>
    let s := if s.sec.owner.isNone then { s with sec := { s.sec with owner := some (planOwner b) } }.publishSec else s
    s.wr F.glStatus_staged 1

/-- A verified component takes effect (table Update components, R599, R601, R602). [DESIGN CHOICE, log entry 45] -/
def State.activateComponent (s : State) : State :=
  let m := s.sec.manifest
  let img := s.stagedImage
  let b : Bank := ⟨img, BitVec.ofNat 32 (field m 28 4), manSvn m⟩
  match manComp m with
  | 1 =>
    let bank := s.rdB F.seStat_bank
    let s := { s with sec := { s.sec with
      stewA := if bank then b else s.sec.stewA
      stewB := if bank then s.sec.stewB else b } }
    if s.boot.stage = 14 then { s with sec := { s.sec with
      bankB := !bank
      trial := true
      trialFails := 0
      newImage := true } }.publishSec
    else { s with sec := { s.sec with handover := 1 } }
  | 2 =>
    let x := s.sec
    let s := State.publishSec { s with sec := { x with
      ucA := if x.ucBankB then b else x.ucA
      ucB := if x.ucBankB then x.ucB else b
      ucBankB := !x.ucBankB
      ucSvn := max x.ucSvn (manSvn m)
      reloads := List.range 6 } }
    s.nextReload
  | 3 => s.installPlan img
  | _ =>
    let c : Content := ⟨Config.sha384 (img.take 512), img⟩
    { s with sec := { s.sec with content := (s.sec.content.filter fun x => x.hash != c.hash) ++ [c] } }

/-- Activates the collected component (R597, R599): every bit must be set; a piece that reads back wrong loses its bit and ends the activation. [DESIGN CHOICE, log entry 63] -/
def State.activateUpdate (s : State) (bad : Option Nat) : State :=
  let m := s.sec.manifest
  if m.isEmpty || s.sec.held.length != manPieces m then s
  else if s.updateRefused m then s.upCode 0xF05
  else match bad.filter s.sec.held.contains with
    | some n => ({ s with sec := { s.sec with held := s.sec.held.filter (· != n), pieces := tdel s.sec.pieces n } }.upCode 0xF02 n).showUpdate
    | none =>
      let s := s.activateComponent
      (s.upCode 0xF06 (manComp m)).dropUpdate

/-- An operation of UP_CTRL that reads host memory (R603, R604): asked for once, then carried out when the data is there. [DEDUCED, log entry 30] -/
def State.hostOp (s : State) (op piece : Nat) (run : List Byte → State → State) : State :=
  let len := s.rd F.upLen_len
  if s.rdB F.upStat_busy then
    if s.sec.updOp = op && s.sec.updPiece == piece && s.sec.updMissing == 0 then
      let data := (List.range len).map fun i => (tget s.sec.updBuf i).getD 0
      let s := { s with sec := { s.sec with
        updOp := 0
        updBuf := [] } }
      run data (s.wr F.upStat_busy 0)
    else s
  else if !s.rdB (F.cfgCmd_busMaster.cfg 0) then (s.inc F.glHostErr2_readErr 1).logFault { mkFault 0xD04 .function with part := some 0 }
  else
    let a := s.rd2 F.upSrcLo_addr F.upSrcHi_addr
    let s := { s.wr F.upStat_busy 1 with sec := { s.sec with
      updOp := op
      updPiece := piece
      updBuf := []
      updMissing := len } }
    s.requestHost 0 a len fun o => .update o

/-- UPDATE_MANIFEST (R595): UP_CTRL op 1. -/
def execUpdateManifest (s : State) : Host.Outcome State Fault Refusal := finish (s.hostOp 1 0 fun d s => s.submitManifest d false)

/-- UPDATE_PIECE (R596, R597): UP_CTRL op 2. -/
def execUpdatePiece (n : Fin 65536) (s : State) : Host.Outcome State Fault Refusal :=
  finish (s.hostOp 2 n.val fun d s => if s.sec.byPldm then s.upCode 0xF05 n.val else s.submitPiece n.val d)

/-- UPDATE_ACTIVATE (R597, R599): UP_CTRL op 3. [DESIGN CHOICE, log entry 31] -/
def execUpdateActivate (bad : Option (Fin 65536)) (s : State) : Host.Outcome State Fault Refusal :=
  finish (if s.rdB F.upStat_busy || s.sec.byPldm then s else s.activateUpdate (bad.map (·.val)))

/-- UPDATE_ABORT (R595): UP_CTRL op 4, whichever agent collects. -/
def execUpdateAbort (s : State) : Host.Outcome State Fault Refusal :=
  finish { s.wr F.upStat_busy 0 with sec := { s.sec with
    updOp := 0
    updBuf := []
    updMissing := 0 } }.dropUpdate

/-- PLDM_FW_UPDATE (R597, R600): a component handled as one manifest; the module then asks for the pieces whose bits are clear. [DEDUCED, log entry 62] -/
def execPldmFwUpdate (r : PldmFw) (s : State) : Host.Outcome State Fault Refusal :=
  finish <|
    if !s.managed then s
    else match r with
      | .manifest b => s.submitManifest b true
      | .piece n b => if s.sec.byPldm then (s.submitPiece n b).askPiece else s.upCode 0xF05 n
      | .activate bad => if s.sec.byPldm then s.activateUpdate bad else s
      | .cancel => if s.sec.byPldm then s.dropUpdate else s

/-- STEWARD_HANDOVER (R532, R578, R582, R601): the new image is verified under step 4 of R575 and takes over with its own certificates; `heartbeat` says whether
it has written its heartbeat, which within 100 ms ends the hand-over well, or has still to. [DESIGN CHOICE, log entry 63] -/
def execStewardHandover (heartbeat : Bool) (s : State) : Host.Outcome State Fault Refusal :=
  finish <|
    if s.rdB F.seMbCtrl_busy then s
    else
      let bank := s.rdB F.seStat_bank
      let new := if bank then s.sec.stewA else s.sec.stewB
      let done (s : State) : State :=
        { (s.log 0xF07 .steward 0 0) with sec := { s.sec with
          handover := 0
          bankB := s.rdB F.seStat_bank
          trial := true
          trialFails := 0
          newImage := true } }.publishSec
      if s.sec.handover = 1 then
        if !new.passes s.sec.fwSvn then { s.log 0xF07 .steward 0 1 with sec := { s.sec with handover := 0 } }
        else
          let s := (s.wrB F.seStat_bank !bank).wr F.idFw_ver new.ver.toNat
          let s := State.issueCerts { s with sec := { s.sec with handover := 2, switchedAt := s.now } }
          if heartbeat then done s else s
      else if s.sec.handover = 2 && heartbeat && s.nsSince s.sec.switchedAt ≤ 100000000 then done s
      else s

/-- HANDOVER_HEARTBEAT_TIMEOUT (R601): 100 ms after the switch the hardware returns to the old slot, whose image serves with its own certificates. [DESIGN CHOICE, log entry 63; DESIGN CHOICE, log entry 106] -/
def execHandoverHeartbeatTimeout (s : State) : Host.Outcome State Fault Refusal :=
  finish <|
    if s.sec.handover != 2 || s.nsSince s.sec.switchedAt < 100000000 then s
    else
      let bank := s.rdB F.seStat_bank
      let old := if bank then s.sec.stewA else s.sec.stewB
      let s := ((s.wrB F.seStat_bank !bank).wr F.idFw_ver old.ver.toNat).log 0xF07 .steward 0 1
      State.issueCerts { s with sec := { s.sec with handover := 0 } }

/-- UP_ONAIR_WRITE (R598). -/
def execUpOnairWrite (fn : Fin 16) (v : Bool) (s : State) : Host.Outcome State Fault Refusal := finish (s.wrB (F.upOnair_onAir.fn fn.val) v)

/-- ENTROPY_HEALTH_FAIL (R579): before ready it stops the start-up; after ready it is informational, and fresh randomness is refused. -/
def execEntropyHealthFail (s : State) : Host.Outcome State Fault Refusal :=
  finish <|
    let s := s.wr F.seStat_entropyOk 0
    if 1 ≤ s.boot.stage ∧ s.boot.stage ≤ 7 then s.startFails 0xF0B .steward
    else if s.boot.stage = 13 then s.logFault { mkFault 0xF0B .steward with cls := .informational } else s

/-- ENTROPY_HEALTH_RECOVERED (R579): the tests have passed for 1 s. -/
def execEntropyHealthRecovered (s : State) : Host.Outcome State Fault Refusal := finish (s.wr F.seStat_entropyOk 1)

end Sys2Proof.Machine
end

