-- ==== Sys2Proof/Machine/Sync.lean ====
section
/-! DEFINITION. How the timeline follows its sources: frame and line pulses, FRAME_SYNC, PTM and Skidway frame numbers, and the events that a forward step
passes (02 R48, R51 to R60). -/

namespace Sys2Proof.Machine

/-! ### Events that a forward step passes (R47, R48) -/

/-- A timeline event of R47. -/
inductive TlEvent where
  | ckSwitch
  | tlSwitch
  | epoch
  | alarm (n : Nat)
  | eligible (slot : Nat)
  deriving DecidableEq, Repr

/-- The events whose stamps are reached, with their stamps, in the order of R47. -/
def State.dueEvents (s : State) : List (Nat × TlEvent) :=
  (if s.rdB F.ckSwitchCtrl_pending && !stLt s.now s.ck.pendAt then [(s.ck.pendAt, TlEvent.ckSwitch)] else []) ++
  (if s.rdB F.tlCtrl_pending && !stLt s.now s.tl.pendAt then [(s.tl.pendAt, TlEvent.tlSwitch)] else []) ++
  (if s.epochDue then [(s.sched.epochAt, TlEvent.epoch)] else []) ++
  ((List.range 16).filter s.alarmDue).map (fun n => (s.alarmAt n, TlEvent.alarm n)) ++
  (((s.cmds.filter fun e => e.2.desc.notBefore != noStamp && s.mayBeEligible e.2).mergeSort fun a b =>
    a.2.sq < b.2.sq || (a.2.sq == b.2.sq && a.2.order ≤ b.2.order)).map fun e => (e.2.desc.notBefore, TlEvent.eligible e.1))

/-- The event that takes effect first: the earliest stamp, and among equal stamps the order of R47 (R48). -/
def firstEvent : List (Nat × TlEvent) → Option (Nat × TlEvent)
  | [] => none
  | e :: l => match firstEvent l with
    | none => some e
    | some f => some (if stLt f.1 e.1 then f else e)

/-- One event takes effect. -/
def State.runEvent (s : State) (e : TlEvent) : State := match e with
  | .ckSwitch => s.ckSwitch
  | .tlSwitch => s.tlSwitch
  | .epoch => s.epochSwitch
  | .alarm n => s.fireAlarm n
  | .eligible slot => s.becomeEligible slot

/-- The events due take effect one after another (R48). -/
def State.runEvents : Nat → State → State
  | 0, s => s
  | n + 1, s => match firstEvent s.dueEvents with
    | none => s
    | some e => (s.runEvent e.2).runEvents n

/-- After a forward step every event whose stamp it passed takes effect (R48); `old` is where the timeline stood before. -/
def State.stepped (s : State) (old : Nat) : State := if s.now = old then s else s.runEvents s.dueEvents.length

/-! ### Frame edges -/

/-- A forward step to the start of the next frame (R52). -/
def State.stepFrame (s : State) : State :=
  ((s.frameStart).wr F.tlStatus_stepped 1)

/-- The value of TL_STATUS.phase_err for an error in sublines. -/
def phaseErr (e : Int) : Nat := wrapN 16 (max (-32767) (min 32767 e))

/-- An edge or dialog inside the window: lock follows the second one after the acquisition (R52, R56). [DEDUCED, log entry 109] -/
def State.lockStep (s : State) : State :=
  if s.rd F.tlStatus_lock = 1 then
    let s := { s with tl := { s.tl with inWin := s.tl.inWin + 1 } }
    if s.tl.inWin < 2 then s else s.wr F.tlStatus_lock 2
  else s.wr F.tlStatus_lock 2

/-- The position at which an edge found the counter, as a timeline word, when the edge happened `late` sublines before now (R51, R59). -/
def Timeline.edgeAt (t : Timeline) (late : Nat) : Nat :=
  let n := t.lines * 65536
  let u := t.now % 2 ^ 32
  if late = 0 then t.now
  else if late ≤ u then mkStamp (stFrame t.now) ((u - late) / 65536) ((u - late) % 65536)
  else mkStamp (wrapN 32 ((stFrame t.now : Int) - 1)) ((n + u - late) / 65536) ((n + u - late) % 65536)

/-- The forward step of an edge that happened `late` sublines ago: the counter stands where it would if it had read (F+1):0.0 at the edge. -/
def State.stepEdge (s : State) (late : Nat) : State :=
  if late = 0 then s.stepFrame
  else
    let crossed := s.tl.now % 2 ^ 32 < late
    let s := if crossed then s.wr F.tlStatus_stepped 1 else s.stepFrame
    { s with tl := { s.tl with now := mkStamp (stFrame s.tl.now) (late / 65536) (late % 65536), frac := 0 } }

/-- The rules of R51 and R52 for a frame edge of the current source; `trim` is what the frequency loop measured, limited to 1/1,024 of the
increment; `late` is by how many sublines the edge is advanced (R59), 0 but for FRAME_SYNC. Where the two windows overlap the last lines are tested first;
phase_err follows the edges inside the window that do not acquire, and is positive when the counter is behind. [DEDUCED, log entry 109; DESIGN CHOICE, log entry 112] -/
def State.frameEdge (s : State) (trim : Int) (late : Nat := 0) : State :=
  let t := s.tl
  let w := s.syncWindow
  let lim : Int := t.increment / 1024
  let trim := max (-lim) (min lim trim)
  let p := t.edgeAt late
  let line := stLine p
  if s.rd F.tlStatus_lock = 1 && !t.acquired then
    let s := (s.stepEdge late).log 0x105 .clocks
    { s with tl := { s.tl with acquired := true, inWin := 0, framesSinceEdge := 0, slew := 0 } }
  else if t.lines ≤ line + w then
    let e : Int := ((t.lines - line) * 65536 - stSub p : Nat)
    let s := ((s.stepEdge late).wr F.tlStatus_phaseErr (phaseErr e)).inc F.tlPulseCnt_inside 1
    let s := s.lockStep
    { s with tl := { s.tl with framesSinceEdge := 0, slew := 0, trim := trim } }
  else if line < w then
    let e : Nat := p % 2 ^ 32
    let s := ((s.wr F.tlStatus_phaseErr (phaseErr (-(e : Int)))).inc F.tlPulseCnt_inside 1).lockStep
    { s with tl := { s.tl with framesSinceEdge := 0, slew := -((e * 2 ^ 32 : Nat) : Int), trim := trim } }
  else (s.inc F.tlPulseCnt_outside 1).log 0x10A .clocks

/-- Lock is regained from holdover by acquisition (R53). -/
def State.reacquire (s : State) : State :=
  if s.rd F.tlStatus_lock = 3 then { s.wr F.tlStatus_lock 1 with tl := { s.tl with acquired := false } } else s

/-- Lines between two stamps, the later first, where they are less than 2^31 frames apart. -/
def State.linesBetween (s : State) (a b : Nat) : Int :=
  sgn 32 (stFrame a + 2 ^ 32 - stFrame b) * s.tl.lines + stLine a - stLine b

/-- A frame pulse (R49, R51, R52): its spacing from the pulse before, which no step changes, decides whether source 1 is ready; on source 1 it is the frame
edge. When pulses stop, source 1 stays ready. [DESIGN CHOICE, log entry 112] -/
def State.framePulse (s : State) (trim : Int) : State :=
  let t := s.tl
  let good : Bool := match t.sincePulse with
    | some n => decide (((n : Int) - (t.lines * 65536 : Nat)).natAbs ≤ s.syncWindow * 65536)
    | none => false
  let n := if good then t.goodPulses + 1 else 1
  let s := { s with tl := { t with sincePulse := some 0, goodPulses := n } }
  let s := s.wrB F.tlStatus_pinPresent (decide (2 ≤ n))
  if s.rd F.tlCtrl_src = 1 then s.reacquire.frameEdge trim else s

/-- A line pulse (R54): on source 1 it corrects the line phase within 1/8 line, by a forward step where the counter is behind and by slewing, in place of a
correction still under way, where it is ahead. [DESIGN CHOICE, log entry 112] -/
def State.linePulse (s : State) : State :=
  if s.rd F.tlCtrl_src = 1 then
    let u := stSub s.tl.now
    if 65536 - 8192 ≤ u then
      let s := s.wr F.tlStatus_phaseErr (phaseErr (65536 - u : Nat))
      if stLine s.tl.now + 1 < s.tl.lines then
        { s.wr F.tlStatus_stepped 1 with tl := { s.tl with now := mkStamp (stFrame s.tl.now) (stLine s.tl.now + 1) 0, frac := 0 } }
      else s.stepFrame
    else if u ≤ 8192 then
      { s.wr F.tlStatus_phaseErr (phaseErr (-(u : Int))) with tl := { s.tl with slew := -((u * 2 ^ 32 : Nat) : Int) } }
    else s
  else s

/-- A pulse of `w` ns is longer than a quarter of the nominal line (R54). -/
def Timeline.longPulse (t : Timeline) (w : Nat) : Bool := decide (t.den * 1000000000 < 4 * w * t.num * t.lines)

/-- A pulse on TL_SYNC_IN (R54): an edge of the polarity that TL_SYNC_CFG.pol does not name is
no pulse; with line pulses configured the width tells the two kinds apart, without them every pulse is a frame pulse. [DEDUCED, log entry 115] -/
def State.syncPulse (s : State) (x : SyncPulse) : State :=
  if x.fall != s.rdB F.tlSyncCfg_pol then s
  else if s.rdB F.tlSyncCfg_linePulses && !s.tl.longPulse x.ns then s.linePulse.stepped s.now
  else (s.framePulse x.trim).stepped s.now

/-- TL_SYNC_IN_FRAME_PULSE (R51, R52, R54). -/
def execTlSyncInFramePulse (x : SyncPulse) (s : State) : Host.Outcome State Fault Refusal := finish (s.syncPulse x)

/-- TL_SYNC_IN_LINE_PULSE (R54): a pulse of a quarter line or less; a pin that carries no line pulses has none. -/
def execTlSyncInLinePulse (s : State) : Host.Outcome State Fault Refusal :=
  finish (if s.rdB F.tlSyncCfg_linePulses then s.linePulse.stepped s.now else s)

/-- The board trace delay of FRAME_SYNC in sublines at the nominal rate (R59). -/
def State.fsLate (s : State) : Nat := s.rd F.tlMs_fsDelayNs * s.tl.num * s.tl.lines * 65536 / (s.tl.den * 1000000000)

/-- A falling edge on FRAME_SYNC that another module drives (R59, R61): a conflict for a module that leads, the frame edge on source 3,
advanced by the board trace delay. -/
def execFrameSyncEdge (trim : Int) (s : State) : Host.Outcome State Fault Refusal :=
  finish <|
    let old := s.now
    let s := { s.wr F.tlStatus_fsPresent 1 with tl := { s.tl with fsSilent := 0 } }
    if s.leads then s.log 0x108 .clocks
    else if s.rd F.tlCtrl_src = 3 then (s.reacquire.frameEdge trim s.fsLate).stepped old
    else s

/-- The stamp of a PTM local time (R55). -/
def Timeline.ptmStamp (t : Timeline) (ns : Nat) : Nat :=
  let num : Int := ((ns : Int) - t.ptmOrigin) * t.num
  let den : Int := (t.den * 1000000000 : Nat)
  let f := num / den
  let r := (num % den).toNat
  let line := r * t.lines / den.toNat
  let sub := (r * t.lines % den.toNat) * 65536 / den.toNat
  mkStamp (wrapN 32 (t.ptmFrame + f)) line sub

/-- The first stamp after the counter that has the line and subline of the reference, or the reference itself where it is later (R56). -/
def Timeline.ptmTarget (t : Timeline) (ref : Nat) : Nat :=
  let same := mkStamp (stFrame t.now) (stLine ref) (stSub ref)
  if stLt t.now ref then ref else if stLt t.now same then same else mkStamp (stFrame t.now + 1) (stLine ref) (stSub ref)

/-- The step of an acquisition of source 2 (R52, R56); where it passes a frame boundary, the pending raster, rate and mapping take effect there, and the
reference is read under them (R38, R57). [DEDUCED, log entry 115] -/
def State.ptmStep (s : State) (ns : Nat) : State :=
  let dst := s.tl.ptmTarget (s.tl.ptmStamp ns)
  if stFrame dst = stFrame s.tl.now then { s with tl := { s.tl with now := dst, frac := 0 } }
  else
    let s := s.frameStart
    let ref := s.tl.ptmStamp ns
    { s with tl := { s.tl with
      now := if stLt s.tl.now ref then ref else mkStamp (stFrame s.tl.now) (stLine ref) (stSub ref)
      frac := 0 } }

/-- The phase error of R56 in sublines; where the mapping gives a lower frame number than the counter holds, only the phase counts (R57): the error to the
nearest position with the reference's line and subline. [DEDUCED, log entry 115] -/
def Timeline.ptmError (t : Timeline) (ref : Nat) : Int :=
  if seqLt (stFrame ref) (stFrame t.now) then
    let n : Int := (t.lines * 65536 : Nat)
    let d : Int := (ref % 2 ^ 32 : Nat) - (t.now % 2 ^ 32 : Nat)
    if n < 2 * d then d - n else if 2 * d < -n then d + n else d
  else t.errSub ref t.now

/-- A PTM dialog completes with host time `ns` (R55, R56, R445): the first one of an acquisition steps, one inside the window slews, any other
is ignored; TL_PULSE_CNT.inside counts those inside the window. [DESIGN CHOICE, log entry 112] -/
def execPtmDialog (ns : Nat) (trim : Int) (s : State) : Host.Outcome State Fault Refusal :=
  finish <|
    if !s.rdB (F.cfgPtmCtl_enable.cfg 0) then s.wr F.tlStatus_ptmValid 0
    else if !s.ep.linkUp then s
    else
      let s := (s.leaveL1.emit .ptmRequest).wr F.tlStatus_ptmValid 1
      if s.rd F.tlCtrl_src != 2 then s
      else
        let s := s.reacquire
        let old := s.now
        if s.rd F.tlStatus_lock = 1 && !s.tl.acquired then
          let s := s.ptmStep ns
          let s := { s with tl := { s.tl with acquired := true, inWin := 0, framesSinceEdge := 0, slew := 0 } }
          ((s.wr F.tlStatus_stepped 1).log 0x105 .clocks).stepped old
        else
          let e := s.tl.ptmError (s.tl.ptmStamp ns)
          let lim : Int := s.tl.increment / 1024
          if e.natAbs ≤ s.syncWindow * 65536 then
            let s := (s.lockStep.wr F.tlStatus_phaseErr (phaseErr e)).inc F.tlPulseCnt_inside 1
            { s with tl := { s.tl with slew := e * 2 ^ 32, trim := max (-lim) (min lim trim), framesSinceEdge := 0 } }
          else (s.inc F.tlPulseCnt_outside 1).log 0x10A .clocks

/-- A Frame block on a Skidway port (R60, R493): a follower takes the frame number of the lowest hop count, never a lower one than its own,
and passes it on with the hop count raised by one, unless the count is already 2. The line and the raster in effect stay. [DEDUCED, log entry 115] -/
def execSkidwayFrameBlock (port : Fin 3) (hop : Fin 4) (frame : Word) (s : State) : Host.Outcome State Fault Refusal :=
  finish <|
    if s.rd (F.swPortStat_state.at (0x80100 + 0x40 * port.val)) != 2 || s.rdB F.tlMs_master || s.rd F.tlCtrl_src != 3 then s
    else
      let better := match s.tl.fsHop with
        | none => true
        | some h => hop.val < h
      if !better then s
      else
        let s := { s.wr F.tlStatus_swFrameValid 1 with tl := { s.tl with fsHop := some hop.val, fsFrame := frame.toNat } }
        let old := s.now
        let s := if seqLt (stFrame s.tl.now) frame.toNat then
            { s.wr F.tlStatus_stepped 1 with tl := { s.tl with now := mkStamp frame.toNat (stLine s.tl.now) (stSub s.tl.now) } }
          else s
        (if hop.val < 2 then s.sendFrameBlocks (hop.val + 1) false else s).stepped old

end Sys2Proof.Machine
end

