-- ==== Sys2Proof/Machine/Views.lean ====
section
/-! DEFINITION. What the host reads and writes through BAR0, BAR4 and configuration space: the registers that mirror other state, what a virtual function
sees, the writes that have an effect of their own, and the rows REGISTER_WRITE, BAR0_ACCESS and CONFIG_REQUEST (01, 14). -/

namespace Sys2Proof.Machine

/-! ### Where a register stands (R28, R30, R449, R450) -/

/-- The compartment block an offset of BAR0 lies in: a bole's by physical index, or a group's by compartment number, and the offset within the block. -/
def compSite (x : Nat) : Option (Bool × Nat × Nat) :=
  if x < 0x100000 || 0x264000 ≤ x then none
  else if x < 0x210000 then some (true, (x - 0x100000) / 0x4000, (x - 0x100000) % 0x4000)
  else some (false, 64 + (x - 0x210000) / 0x4000, (x - 0x210000) % 0x4000)

/-- Registers that every function has of its own (R300, R407, R449, R482, R598). -/
def perFn (x : Nat) : Bool :=
  [0x404, 0x408, 0x40C, 0x410, 0x414, 0x41C, 0x33000, 0x40020, 0x40024, 0x40028, 0xA0200].contains x ||
    (0x30800 ≤ x && x < 0x3081C) || (0x33008 ≤ x && x < 0x33038)

/-- Where a function's copy of the register at an offset is kept. -/
def fnReg (fn x : Nat) : Nat := if perFn x then fn * fnStride + x else x

/-- The owner that a compartment shows: a bole's register; a group's where every bole shows the same one (R26, R30). -/
def State.compOwner (s : State) (k : Nat) : Option Nat := match (compBoles k).map s.shownOwner with
  | some p :: rest => if rest.all (· == some p) then some p else none
  | _ => none

/-- A virtual function may write the register at an offset (R29, R301, R319, R413, R450, R481, R603). [DEDUCED, log entry 25; DEDUCED, log entry 26] -/
def State.vfWrites (s : State) (fn x : Nat) : Bool :=
  perFn x || (0x31000 + 0x100 * fn ≤ x && x < 0x31100 + 0x100 * fn) || (0x30400 + 0x40 * fn ≤ x && x < 0x30440 + 0x40 * fn) ||
    x == 0x30200 + 8 * fn || x == 0x30204 + 8 * fn || (0x42000 ≤ x && x < 0x43000 && x % 0x40 == 4 * fn) ||
    match compSite x with
    | some (true, p, _) => (match s.logOf p with | some n => s.shownOwner n == some fn | none => false)
    | some (false, k, _) => s.compOwner k == some fn
    | none => false

/-- A virtual function may read the register at an offset (table Virtual function view of BAR0). [DEDUCED, log entry 25] -/
def State.vfReads (s : State) (fn x : Nat) : Bool :=
  x < 0x100 || s.vfWrites fn x || (0x34000 + 0x100 * fn ≤ x && x < 0x34100 + 0x100 * fn) || (0x43000 ≤ x && x < 0x44000 && x % 0x40 == 4 * fn) ||
    [0x104, 0x10104, 0x10108, 0x1010C, 0x10110, 0x10114, 0x10120, 0x20000, 0x20028, 0x30004, 0x60000, 0x60004, 0x68000, 0x68004, 0x6C004, 0x70000,
     0xA0000].contains x

/-! ### Compartment blocks -/

/-- Compartment number that a block stands for; none for a bole that serves no logical address. -/
def State.siteComp (s : State) (bole : Bool) (i : Nat) : Option Nat := if bole then s.logOf i else some i

/-- xx_ID (R30). -/
def State.idWord (s : State) (bole : Bool) (i : Nat) : Nat :=
  let at' := if bole then (match s.logOf i with
      | some n => n / 16 * 256 + n / 4 % 4 * 1024 + n % 4 * 4096 + 32768
      | none => i / 17 * 256)
    else if i < 80 then (i - 64) / 4 * 256 + (i - 64) % 4 * 1024 + 32768
    else if i < 84 then (i - 80) * 256 + 32768 else 32768
  at' + (if bole then 0 else compLevel i) + (if bole && i % 17 == 16 then 16384 else 0) + (if bole then i else 0x7F) * 65536

/-- State of a group (R18, R27, R30): scrubbing while a bole of it is in hand-over, offline where no bole of it is in service, degraded where a bole of a quad
or grove is offline without a stand-in, else online. -/
def State.groupState (s : State) (k : Nat) : Nat :=
  let l := compBoles k
  if s.sched.handover.any fun h => l.contains h.1 then 2
  else if l.all fun n => s.boleOff n || s.rd (F.status_state.at (blBase (s.physOf n))) == 0 then 0
  else if k < 84 && l.any s.boleOff then 6 else 1

/-- The oldest command in flight on a compartment. -/
def State.oldestOn (s : State) (k : Nat) : Option Cmd :=
  (s.cmds.filter fun e => e.2.on k).foldl (fun o e => match o with
    | some c => if e.2.order < c.order then some e.2 else o
    | none => some e.2) none

/-- The compartment header (R30). -/
def State.headerView (s : State) (bole : Bool) (i rel : Nat) : Option Nat :=
  let k := s.siteComp bole i
  let n := match k with | some k => s.inFlightOn k | none => 0
  let c := k.bind s.oldestOn
  let busy : Bool := match k with
    | some k => s.cmds.any fun e => e.2.on k && e.2.phase != .suspended
    | none => false
  match rel with
  | 0x0 => some (s.idWord bole i)
  | 0x4 => some ((if bole then s.rd (F.status_state.at (blBase i)) else s.groupState i) + (if busy then 8 else 0) + n * 65536)
  | 0xC => if bole then none else some (match s.compOwner i with | some p => p + 16 | none => 0)
  | 0x10 => some (match c with | some c => c.sq % 16384 + 32768 | none => 0)
  | 0x14 => some (match c with | some c => c.seq | none => 0)
  | _ => none

/-- Windows of a block: a bole's scratchpad or a grove's slice; quads and the die have none (R174). -/
def State.siteWins (s : State) (bole : Bool) (i : Nat) : Option (Tab Win) :=
  if bole then some (s.bole i).wins else if 80 ≤ i && i < 84 then some (s.land (i - 80)).wins else none

/-- One word of a window entry (table Window entry). [DEDUCED, log entry 84] -/
def Win.word (w : Win) (r : Nat) : Nat := match r with
  | 0 => w.base
  | 4 => w.limit
  | 8 => w.src % 2 ^ 32
  | 0xC => w.src / 2 ^ 32
  | 0x10 => w.modMask + w.modPart * 256
  | 0x14 => w.expiry % 2 ^ 32
  | 0x18 => w.expiry / 2 ^ 32
  | 0x1C => w.wlim
  | 0x20 => w.wcnt
  | 0x24 => w.bytes
  | 0x28 => w.state + w.rejects % 65536 * 65536
  | 0x2C => w.part + (if w.live then 16 else 0) + w.slot * 65536
  | _ => 0

/-- The window registry view (R192). -/
def State.winView (s : State) (bole : Bool) (i rel : Nat) : Option Nat :=
  if rel < 0x400 || 0x708 ≤ rel then none
  else
    let t := s.siteWins bole i
    if rel = 0x700 then some (if t.isSome then 16 else 0)
    else if rel = 0x704 then some (match t with | some t => listMask ((t.filter fun e => e.2.live).map (·.1)) | none => 0)
    else some (match t.bind fun t => tget t ((rel - 0x400) / 48) with | some w => w.word ((rel - 0x400) % 48) | none => 0)

/-- The accounting counters of a group are the sums over its members (R302). -/
def State.acctView (s : State) (k rel : Nat) : Option Nat :=
  let sum (f : Nat → Nat) : Nat := (compBoles k).foldl (fun n m => n + f (blBase (s.physOf m))) 0
  let busy := sum fun b => s.rd2 (F.acBusyLo_busy.at b) (F.acBusyHi_busy.at b)
  let energy := sum fun b => s.rd2 (F.acEnergyLo_energy.at b) (F.acEnergyHi_energy.at b)
  match rel with
  | 0x800 => some busy
  | 0x804 => some (busy / 2 ^ 32)
  | 0x808 => some (sum fun b => s.rd (F.acCommit_committed.at b))
  | 0x80C => some (sum fun b => s.rd (F.acKill_killed.at b))
  | 0x810 => some (sum fun b => s.rd (F.acPreempt_preempted.at b))
  | 0x814 => some energy
  | 0x818 => some (energy / 2 ^ 32)
  | _ => none

/-- A context waits on WAIT, tokens or instruction fetch (R234); a COMMIT or SIG that waits does not count. -/
def State.ctxWaits (s : State) (c : IssueCtx) : Bool := match (tget s.cmds c.slot).bind fun m => tget s.lists m.desc.op with
  | some l =>
    let w := l.code.getD c.pc 0
    !c.reported && (c.fetchedTo ≤ c.pc || !tokensClear c w || (c.blocked && opOf w == 0x58))
  | none => false

/-- The registers of a bole that mirror its state (R125, R161, R234, R266). -/
def State.boleView (s : State) (p rel : Nat) : Option Nat :=
  let b := s.bole p
  let arrays := if b.tiles.isEmpty then 0 else 65535
  let quartered := if b.tiles.any fun t => t.shape == 6 then 65535 else 0
  if rel = 0x1000 then some (listMask (tkeys b.ctxs) + 16 * listMask ((b.ctxs.filter fun e => s.ctxWaits e.2).map (·.1)))
  else if 0x1010 ≤ rel && rel < 0x1020 then some (match tget b.ctxs ((rel - 0x1010) / 4) with
    | some c => c.pc % 65536 + c.loops.length * 65536 + 2 ^ 19 + c.slot * 2 ^ 20
    | none => 0)
  else if 0x1040 ≤ rel && rel < 0x1140 then some (match tget b.ctxs ((rel - 0x1040) / 64) with
    | some c => c.sems.getD ((rel - 0x1040) / 4 % 16) 0
    | none => 0)
  else if rel = 0x2004 then some (arrays + 65536 * quartered)
  else if rel = 0x2008 then some (if b.tiles.any fun t => t.shape == 6 then 65535 else listMask ((List.range 16).filter (s.arrayResidue p)))
  else if rel = 0x2100 then
    let busy := b.ctxs.any fun e => e.2.flight.any fun f => f.unit == .mvp
    some (if busy then 1 + 2 * s.rd (F.mvpStat_mode.at (blBase p)) else 0)
  else if rel = 0x2218 then some (listMask (tkeys b.stats))
  else if rel = 0x2408 then some (match b.plane with
    | some d => d.wb % 512 + d.hb % 256 * 512 + b2n d.forced * 2 ^ 17 + 2 ^ 18
    | none => 0)
  else none

/-- A share of a controller runs: one of a command whose division passes through it (R234). -/
def State.shareRuns (s : State) (k : Nat) : Bool := (compBoles k).any fun n => (s.bole (s.physOf n)).ctxs.any fun e =>
  !e.2.reported && (match tget s.cmds e.2.slot with | some c => (ctlDepth c k).isSome | none => false)

/-- xx_DIV_STAT of a controller (R234). -/
def State.divView (s : State) (k : Nat) : Nat :=
  let on := ((compMembers k).zipIdx.filter fun e => (s.onlineMembers k).contains e.1).map (·.2)
  listMask on + 16 * s.rd (F.divStat_mode.at (s.compBase k)) + (if s.shareRuns k then 64 else 0)

/-- A register of a compartment block that mirrors other state. [DESIGN CHOICE, log entry 7] -/
def State.compView (s : State) (bole : Bool) (i rel : Nat) : Option Nat :=
  ((s.headerView bole i rel).or (s.winView bole i rel)).or
    (if bole then s.boleView i rel else if rel = 0x1200 then some (s.divView i) else s.acctView i rel)

/-! ### The other blocks -/

/-- Timeline and start-up (R77, R550): the running counter, and the seal. [DESIGN CHOICE, log entry 3] -/
def State.timeView (s : State) (x : Nat) : Option Nat := match x with
  | 0x100 => some (b2n s.sealed)
  | 0x10110 => some (s.now % 2 ^ 32)
  | 0x10114 => some (s.now / 2 ^ 32)
  | _ => none

/-- Scheduler, partitions, seeds and control queues (R301, R311, R318, R481). [DEDUCED, log entry 20] -/
def State.schedView (s : State) (x : Nat) : Option Nat :=
  if x = 0x30000 then some (s.cmds.length + (if s.rdB F.scStat_switching then 65536 else 0))
  else if 0x30400 ≤ x && x < 0x30800 then
    let p := (x - 0x30400) / 0x40
    let q := tget s.sqs (ctlSq p)
    let k := tget s.cqs (ctlCq p)
    match (x - 0x30400) % 0x40 with
    | 0x1C => some (match q with | some q => q.tail | none => 0)
    | 0x20 => some (match k with | some k => k.cons | none => 0)
    | 0x24 => some (match q with | some q => q.head | none => 0)
    | 0x28 => some (match k with | some k => k.prod | none => 0)
    | _ => none
  else if 0x31000 ≤ x && x < 0x32000 then
    let p := (x - 0x31000) / 0x100
    let r := (x - 0x31000) % 0x100
    let seed := tgetD s.seeds (p * 256 + s.rd (F.ptSeedIdx_index.at (ptBase p))) ⟨0, false⟩
    if r = 0x0 then some (setBits (s.reg x).toNat 3 1 (b2n (s.groupOk p)))
    else if r = 0x2C then
      let cls := match s.sched.slices.find? fun e => s.owns p e.1 with | some e => e.2.cls | none => 0
      some (s.partInFlight p + cls * 8192 + s.partContexts p * 65536)
    else if r = 0x30 then some (match tget s.sched.preemptAt p with
      | some (st, ns) => if s.nsSince st < ns then 2 else 0
      | none => 0)
    else if r = 0xC4 then some (seed.value % 2 ^ 32)
    else if r = 0xC8 then some (seed.value / 2 ^ 32)
    else if 0xD0 ≤ r && r < 0xF0 then some (listMask ((List.range 32).filter fun m => match tget s.seeds (p * 256 + 8 * (r - 0xD0) + m) with
      | some e => e.valid
      | none => false))
    else none
  else none

/-- Decks (R413). -/
def State.deckView (s : State) (x : Nat) : Option Nat :=
  if 0x41000 ≤ x && x < 0x42000 then
    let d := (x - 0x41000) / 0x40
    match (x - 0x41000) % 0x40 with
    | 0x2C => some ((s.deck d).available)
    | 0x30 => some ((s.deck d).resvFree)
    | 0x34 => some ((s.deck d).waiters.length)
    | _ => none
  else if 0x43000 ≤ x && x < 0x44000 then some ((s.deck ((x - 0x43000) / 0x40)).heldBy ((x - 0x43000) % 0x40 / 4))
  else none

/-- xx_ENG_STAT (R348). -/
def State.engView (s : State) (e : Nat) : Nat :=
  let k := s.engine e
  let off := s.rdB (F.engCtrl_offlineReq.at (engBase e))
  match k.mode, k.job with
  | 1, some j => (if off || k.reloadDue then 3 else 2) + (if j.live then 8 else 0) + j.ctx * 16
  | 1, none => if off then 0 else if k.reloadDue then 4 else 1
  | m, _ => m

/-- A command of a class runs (R267, R367). -/
def State.classBusy (s : State) (cls : Nat) : Nat := b2n (s.cmds.any fun e => e.2.desc.cls == cls && e.2.phase == .running)

/-- xx_STAT of the decoders or the encoders (R348). -/
def State.mediaStat (s : State) (es : List Nat) (kind : Nat) : Nat :=
  let sel (m : Nat) : Nat := listMask ((es.zipIdx.filter fun e => (s.engine e.1).mode == m).map (·.2))
  sel 1 + 16 * sel 4 + 256 * (s.ctxs.filter fun e => e.2.kind == kind).length

/-- Media and input registers (R267, R348, R367); the backlog of SX_LOAD is free while there is a batch command. -/
def State.mediaView (s : State) (x d : Nat) : Option Nat := match x with
  | 0x60004 => some (s.mediaStat [0, 1, 2, 3] 0)
  | 0x68004 => some (s.mediaStat [4, 5] 1)
  | 0x60104 => some (s.engView 0)
  | 0x60144 => some (s.engView 1)
  | 0x60184 => some (s.engView 2)
  | 0x601C4 => some (s.engView 3)
  | 0x68104 => some (s.engView 4)
  | 0x68144 => some (s.engView 5)
  | 0x6C000 => some (s.classBusy 4 + 65536 * s.rd F.sxStat_done)
  | 0x6C004 => some (s.rd F.sxLoad_busy + (if s.cmds.any fun e => e.2.desc.cls == 4 then 65536 * ((Config.freeWord d).toNat % 65536) else 0))
  | 0x6D000 => some ((s.ctxs.filter fun e => e.2.parent.isSome).length)
  | 0x70000 => some (s.classBusy 6 + 2 * s.dicts.length)
  | 0x7E000 => some (s.classBusy 5 + 65536 * s.rd F.sxRoiStat_done)
  | _ => none

/-- MS_BTN (R528): whether the button is held is free, the presses are counted. [DESIGN CHOICE, log entry 120] -/
def State.powView (s : State) (x d : Nat) : Option Nat :=
  if x = 0x20808 then some (s.rd F.msBtn_presses + 65536 * ((Config.freeWord d).toNat % 2)) else none

/-- DRAM, security and update registers (R393, R598, R603). -/
def State.secView (s : State) (fn x : Nat) : Option Nat :=
  let onAir (p : Nat) : Bool := s.rdB (F.upOnair_onAir.fn p)
  if x = 0x50800 then some (s.rd F.drGStat_memReady + 2 * s.rd F.drGStat_warm + (if s.rdB F.drGScrub_en && s.rdB F.drGStat_memReady then 4 else 0))
  else if x = 0xA0118 then
    some (listMask ((s.refuseCauses.zipIdx.filter (·.1)).map (·.2)) + (if s.sec.manifest.isEmpty then 0 else 128))
  else if x = 0xA0200 then some (b2n (onAir fn) + (if fn = 0 then 65536 * listMask ((List.range 16).filter onAir) else 0))
  else if 0xA2000 ≤ x && x < 0xA4000 then
    some (listMask ((List.range 32).filter fun i => s.sec.held.contains (8 * (x - 0xA2000) + i)))
  else none

/-- The bits of the register at an offset that a read does not see: its write-only fields (R7). [DESIGN CHOICE, log entry 7] -/
def woMask (o : Nat) : Nat := (fldsAt o).foldl (fun m f => if f.acc == .wo then m ||| (2 ^ f.w - 1) <<< f.lo else m) 0

/-- The value that a function reads at an offset of BAR0 (R7, R28, R450); `d` names the free values of this read. [DESIGN CHOICE, log entry 7; DESIGN CHOICE, log entry 28; DEDUCED, log entry 29] -/
def State.regView (s : State) (fn x d : Nat) : Nat :=
  if fn ≠ 0 && !s.vfReads fn x then 0
  else
    let o := fnReg fn x
    let v := (s.reg o).toNat
    let own := v - (v &&& woMask o)
    let r := match compSite x with
      | some (bole, i, rel) => (s.compView bole i rel).getD own
      | none =>
        if x = 0x4 && fn ≠ 0 then 0x81291F6A
        else if x = 0x404 || x = 0x408 then (if x = 0x404 then s.aptBase fn % 2 ^ 32 else s.aptBase fn / 2 ^ 32)
        else ((((s.timeView x).or (s.schedView x)).or (s.deckView x)).or ((s.mediaView x d).or ((s.powView x d).or (s.secView fn x)))).getD own
    r % 2 ^ 32

/-! ### Writes that have an effect of their own -/

/-- The state after a meaning. -/
def nextOr (s : State) : Host.Outcome State Fault Refusal → State
  | .next t => t
  | _ => s

/-- Clocks and timeline. -/
def State.storeTime (s : State) (x : Nat) (v : Word) : Option State :=
  if x = 0x10014 then some (nextOr s (execCkSwitchArm v s))
  else if x = 0x10030 then some (nextOr s (execCkClkoutWrite v s))
  else if x = 0x10100 then some (nextOr s (execTlSwitchArm v s))
  else if x = 0x10128 then some (nextOr s (execTlPtmMappingWrite 0 v s))
  else if x = 0x1012C then some (nextOr s (execTlPtmMappingWrite 1 v s))
  else if x = 0x10130 then some (nextOr s (execTlPtmMappingWrite 2 v s))
  else if 0x10200 ≤ x && x < 0x10300 && x % 16 = 0 then some (nextOr s (execTlAlarmLoWrite (Fin.ofNat 16 ((x - 0x10200) / 16)) v s))
  else if 0x10200 ≤ x && x < 0x10300 && x % 16 = 4 then some (nextOr s (execTlAlarmHiWrite (Fin.ofNat 16 ((x - 0x10200) / 16)) v s))
  else none

/-- Global control, power and thermal. [DEDUCED, log entry 35] -/
def State.storePower (s : State) (fn : Fin 16) (x : Nat) (v : Word) : Option State :=
  if x = 0x100 then
    let s := if v.toNat.testBit 0 then nextOr s (execGlSeal fn s) else s
    some (if v.toNat.testBit 1 then nextOr s (execGlRestart fn (Fin.ofNat 65536 (bits v.toNat 16 16)) s) else s)
  else if x = 0x20004 then some (nextOr s (execPwLimitWrite v s))
  else if x = 0x20008 then some (s.regWrite x v.toNat).showLimit
  else if x = 0x20024 then
    let s := s.regWrite x v.toNat
    some (s.wrB F.pwStat_holdupOk (s.rdB F.pwStat_holdupOk && decide (s.rd F.pwHoldup_min ≤ s.rd F.pwHoldup_mj)))
  else if x = 0x20030 then
    let (d, s) := s.draw
    some (nextOr s (execPwRailSelWrite v (Fin.ofNat 65536 (Config.freeWord d).toNat) (Fin.ofNat 65536 ((Config.freeWord d).toNat / 65536)) s))
  else none

/-- Scheduler, partitions and control queues. -/
def State.storeSched (s : State) (fn : Fin 16) (x : Nat) (v : Word) : Option State :=
  if x = 0x30010 then some (nextOr s (execScEpochArm v s))
  else if x = 0x30800 then some (nextOr s (execScQselWrite fn v s))
  else if x = 0x33000 then some (nextOr s (execAcQselWrite fn v s))
  else if 0x30400 ≤ x && x < 0x30800 then
    let p : Fin 16 := Fin.ofNat 16 ((x - 0x30400) / 0x40)
    let r := (x - 0x30400) % 0x40
    if r = 0x18 then some (nextOr s (execScCtlEnable p v s))
    else if r = 0x1C then some (nextOr s (execScCtlSqTailWrite p v s))
    else if r = 0x20 then some (nextOr s (execScCtlCqHeadWrite p v s))
    else some (if s.rdB (F.ctlCfg_en.at (ctlBase p.val)) then s else s.regWrite x v.toNat)
  else if 0x31000 ≤ x && x < 0x32000 then
    let p : Fin 16 := Fin.ofNat 16 ((x - 0x31000) / 0x100)
    let r := (x - 0x31000) % 0x100
    if r = 0x30 then some (if v.toNat.testBit 0 then nextOr s (execPtPreemptRequest p s) else s)
    else if 0x80 ≤ r && r < 0xA0 then some (nextOr s (execEpochShadowWrite p (Fin.ofNat 8 ((r - 0x80) / 4)) v s))
    else if r = 0xC8 then some (nextOr s (execPtSeedHiWrite p v s))
    else if 0xD0 ≤ r && r < 0xF0 then some (nextOr s (execPtSeedInvalidate p (Fin.ofNat 8 ((r - 0xD0) / 4)) v s))
    else none
  else none

/-- Decks. -/
def State.storeDeck (s : State) (fn : Fin 16) (x : Nat) (v : Word) : Option State :=
  if x = 0x40020 then some (s.setReg (fnReg fn.val x) v)
  else if x = 0x40024 then some (nextOr s (execDkReturn fn v s))
  else if x = 0x40030 then some (nextOr s (execDkReclaim fn v s))
  else if 0x41000 ≤ x && x < 0x42000 && x % 0x40 = 0x3C then some (nextOr s (execDkMinFreeRearm (Fin.ofNat 64 ((x - 0x41000) / 0x40)) v s))
  else none

/-- Control register of an engine (R346). -/
def State.storeEngine (s : State) (e : Fin 6) (v : Word) : State :=
  let s := nextOr s (execEngineOfflineRequest e (v.toNat.testBit 0) s)
  if v.toNat.testBit 1 then nextOr s (execEngineReload e s) else s

/-- A write of DR_G_SCRUB (R390): a pass that follows en being set again starts from the beginning. -/
def State.scrubStore (s : State) (v : Word) : State :=
  let was := s.rdB F.drGScrub_en
  let s := s.regWrite F.drGScrub_en.off v.toNat
  if !was && s.rdB F.drGScrub_en then { s.wr F.drGScrubPos_progress 0 with dram := { s.dram with scrubPos := 0 } } else s

/-- Media engines, DRAM scrub, Skidway. -/
def State.storeMedia (s : State) (x : Nat) (v : Word) : Option State :=
  match ([0, 1, 2, 3, 4, 5] : List (Fin 6)).find? fun e => x == engBase e.val with
  | some e => some (s.storeEngine e v)
  | none =>
    if x = 0x80000 then some (s.regWrite x v.toNat).skyConfig
    else if x = 0x50818 then some (s.scrubStore v)
    else if 0x82000 ≤ x && x < 0x82200 && x % 0x20 = 0x10 then some (nextOr s (execSwRxwCtlWrite (Fin.ofNat 16 ((x - 0x82000) / 0x20)) v s))
    else none

/-- FT_SVC_CTRL (R567 to R570): operations 1 to 3; a reserved operation is refused as invalid. [DEDUCED, log entry 30] -/
def State.storeService (s : State) (v : Word) : State :=
  let p : Fin 128 := Fin.ofNat 128 (bits v.toNat 3 7)
  match bits v.toNat 0 3 with
  | 1 => nextOr s (execBoleOutOfService p s)
  | 2 => nextOr s (execBoleIntoService p s)
  | 3 => nextOr s (execRowRepairRequest s)
  | _ => s.service false id

/-- SE_MB_CTRL (R603): kind and length, then the request that go submits; while the steward slots switch the write waits. [DEDUCED, log entry 30] -/
def State.storeMailbox (s : State) (v : Word) : State :=
  let s := (s.regWrite F.seMbCtrl_go.off v.toNat).wr F.seMbCtrl_go 0
  if !v.toNat.testBit 0 then s
  else match s.rd F.seMbCtrl_kind with
    | 1 => nextOr s (execSpdmRequest none s)
    | 2 => nextOr s (execDebugChallenge s)
    | 3 => nextOr s (execDebugResponse s)
    | 4 => nextOr s (execOwnerTransfer s)
    | _ => s.mbRefuse

/-- UP_CTRL (R595, R596, R599, R603). [DESIGN CHOICE, log entry 31] -/
def State.storeUpdate (s : State) (v : Word) : State := match bits v.toNat 0 3 with
  | 1 => nextOr s (execUpdateManifest s)
  | 2 => nextOr s (execUpdatePiece (Fin.ofNat 65536 (bits v.toNat 3 16)) s)
  | 3 => nextOr s (execUpdateActivate none s)
  | 4 => nextOr s (execUpdateAbort s)
  | _ => s

/-- Faults, service, security and updates. -/
def State.storeSecure (s : State) (fn : Fin 16) (x : Nat) (v : Word) : Option State :=
  if x = 0x90040 then some (nextOr s (execFtRselWrite v s))
  else if x = 0x90100 then some (s.storeService v)
  else if x = 0xA0010 then some (s.storeMailbox v)
  else if x = 0xA0100 then some (s.storeUpdate v)
  else if x = 0xA0200 then some (nextOr s (execUpOnairWrite fn (v.toNat.testBit 0) s))
  else none

/-- Compartment blocks: array diagnosis and gating requests. -/
def State.storeComp (s : State) (x : Nat) (v : Word) : Option State := match compSite x with
  | some (true, p, 0x2030) => some (nextOr s (execBlArrDiagStart (Fin.ofNat 68 p) v s))
  | some (true, p, 0x2300) => some (nextOr s (execSpadGateRequest false false (Fin.ofNat 68 p) v s))
  | some (true, p, 0x2304) => some (nextOr s (execSpadGateRequest false true (Fin.ofNat 68 p) v s))
  | some (false, k, 0x110C) => if 80 ≤ k && k < 84 then some (nextOr s (execSpadGateRequest true false (Fin.ofNat 68 (k - 80)) v s)) else none
  | _ => none

/-- A write of a function to an offset of BAR0 (R7, R8, R28, R450): one that has a row of its own acts as that row, any other by its access codes; a virtual
function's write to what it does not see is ignored. -/
def State.barWrite (s : State) (fn : Fin 16) (x : Nat) (v : Word) : State :=
  if fn.val ≠ 0 && !s.vfWrites fn.val x then s
  else ((((s.storeComp x v).or (s.storeTime x v)).or ((s.storePower fn x v).or (s.storeSched fn x v))).or
    (((s.storeDeck fn x v).or (s.storeMedia x v)).or (s.storeSecure fn x v))).getD (s.regWrite (fnReg fn.val x) v.toNat)

/-! ### BAR4 (R420, R424, R425, R434, R454) -/

/-- A 4-byte write in the doorbell range (R454): one at another offset, or for an object beyond the range, is ignored as R425 lays down. -/
def State.doorbell (s : State) (fn : Fin 16) (x : Nat) (v : Word) : State :=
  let q := x / 256
  if x % 256 = 0 then nextOr s (execSqDoorbell fn (Fin.ofNat 16384 q) v s)
  else if x % 256 = 8 && q < 4096 then nextOr s (execCqDoorbell fn (Fin.ofNat 4096 q) v s)
  else if x % 256 = 16 && q < 1024 then nextOr s (execRingDoorbell fn (Fin.ofNat 1024 q) v s)
  else s.doorbellIgnored fn.val q

/-- A 4-byte write of BAR4: a doorbell, or a word of the MSI-X table; clearing a mask bit sends a pending message (R436). [DEDUCED, log entry 33] -/
def State.bar4Write (s : State) (fn : Fin 16) (x : Nat) (v : Word) : State :=
  if x < 0x400000 then s.doorbell fn x v
  else
    let vec := (x - 0x400000) / 16
    if fnVectors fn.val ≤ vec then s
    else
      let e := s.msixEnt fn.val vec
      match x % 16 with
      | 0 => s.setMsix fn.val vec { e with addr := e.addr / 2 ^ 32 * 2 ^ 32 + v.toNat / 4 * 4 }
      | 4 => s.setMsix fn.val vec { e with addr := e.addr % 2 ^ 32 + v.toNat * 2 ^ 32 }
      | 8 => s.setMsix fn.val vec { e with data := v.toNat }
      | _ => (s.setMsix fn.val vec { e with masked := v.toNat.testBit 0 }).sendPending fn.val vec

/-- A word of BAR4 as a read sees it: doorbells read 0, then the MSI-X table and the pending bits. [DEDUCED, log entry 33] -/
def State.bar4View (s : State) (fn x : Nat) : Nat :=
  if x < 0x400000 then 0
  else if x < 0x600000 then
    let vec := (x - 0x400000) / 16
    if fnVectors fn ≤ vec then 0
    else
      let e := s.msixEnt fn vec
      match x % 16 with
      | 0 => e.addr % 2 ^ 32
      | 4 => e.addr / 2 ^ 32
      | 8 => e.data
      | _ => b2n e.masked
  else
    let w := (x - 0x600000) / 4
    if fnVectors fn ≤ 32 * w then 0 else listMask ((List.range 32).filter fun i => (s.msixEnt fn (32 * w + i)).pend)

/-! ### The rows -/

/-- A 4-byte write of BAR0 or BAR4. -/
def State.hostStore (s : State) (fn : Fin 16) (bar4 : Bool) (x : Nat) (v : Word) : State := if bar4 then s.bar4Write fn x v else s.barWrite fn x v

/-- A 4-byte read of BAR0 or BAR4. -/
def State.hostLoad (s : State) (fn : Nat) (bar4 : Bool) (x d : Nat) : Nat := if bar4 then s.bar4View fn x else s.regView fn x d

/-- Size of a BAR (R420). -/
def barSize (bar4 : Bool) : Nat := if bar4 then 2 ^ 23 else 2 ^ 26

/-- REGISTER_WRITE (R7, R8, R9, R28, R29): a 4-byte write of a function at an offset of BAR0 or BAR4. -/
def execRegisterWrite (fn : Fin 16) (bar4 : Bool) (off : Nat) (v : Word) (s : State) : Host.Outcome State Fault Refusal :=
  finish (if s.barOpen fn.val && off % 4 == 0 && off < barSize bar4 then s.leaveL1.hostStore fn bar4 off v else s)

/-- An access of 4 bytes at a multiple of 4 or of 8 bytes at a multiple of 8 (R424). -/
def accessOk (off size : Nat) : Bool := (size == 4 && off % 4 == 0) || (size == 8 && off % 8 == 0)

/-- BAR0_ACCESS (R5, R7, R424, R425, R441): a read or write of 1 to 4,096 bytes at an offset of BAR0 or, as R424 also says, of BAR4. A read of a function that
cannot be reached completes with Unsupported Request; an illegal size or alignment of BAR0 with Completer Abort. An aligned 8-byte read sees one state. [DESIGN CHOICE, log entry 27; DEDUCED, log entry 33] -/
def execBar0Access (fn : Fin 16) (bar4 write : Bool) (off size : Nat) (v : Nat) (s : State) : Host.Outcome State Fault Refusal :=
  let f := fn.val
  finish <|
    if !s.ep.linkUp then s
    else
      let s := s.leaveL1
      if !s.barOpen f || barSize bar4 < off + size then (if write then s else s.emit (.unsupported f))
      else if !accessOk off size || (bar4 && write && off < 0x400000 && size != 4) then
        if bar4 then (if !write then s.emit (.readData f (List.replicate size 0)) else if off < 0x400000 then s.doorbellIgnored f (off / 256) else s)
        else
          let s := (s.hostLast f 0xD0A 0).logFault { mkFault 0xD0A .function f off size with part := some f }
          if write then s else s.emit (.completerAbort f)
      else if write then
        let s := s.hostStore fn bar4 off (BitVec.ofNat 32 v)
        if size = 8 then s.hostStore fn bar4 (off + 4) (BitVec.ofNat 32 (v / 2 ^ 32)) else s
      else
        let (d, s) := s.draw
        let lo := s.hostLoad f bar4 off d
        s.emit (.readData f (leBytes size (if size = 8 then lo + s.hostLoad f bar4 (off + 4) d * 2 ^ 32 else lo)))

/-! ### Configuration space (R416 to R419, R423, R426, R446) -/

/-- Extended capabilities of the physical function, in the order of the table Capability list: offset and ID. [PRESUMED, log entry 2] -/
def pfCaps : List (Nat × Nat) :=
  [(0x100, 1), (0x150, 0x19), (0x180, 0x26), (0x1C0, 0x2A), (0x200, 0x31), (0x240, 0x27), (0x280, 0x25), (0x2A0, 0x1F), (0x2B0, 0x1E), (0x2C0, 0x18),
   (0x2D0, 0x15), (0x2E0, 0x24), (0x2F0, 0x0E), (0x300, 0x10), (0x340, 3)]

/-- Extended capabilities of a virtual function. [PRESUMED, log entry 2] -/
def vfCaps : List (Nat × Nat) := [(0x100, 1), (0x148, 0x0E)]

/-- Header word of an extended capability: its ID, version 1 but for error reporting, and the next one's offset (R418). [PRESUMED, log entry 2] -/
def capWord (caps : List (Nat × Nat)) (o : Nat) : Option Nat := match caps.dropWhile fun c => c.1 != o with
  | c :: rest => some (c.2 + (if c.2 = 1 then 2 else 1) * 65536 + (match rest with | n :: _ => n.1 | [] => 0) * 2 ^ 20)
  | [] => none

/-- The bits of a 64-bit BAR of `size` bytes that can be written. [PRESUMED, log entry 34] -/
def barMask (size v : Nat) : Nat := v - v % size

/-- Offsets of configuration space that only the physical function implements. -/
def pfOnly (o : Nat) : Bool := (0x10 ≤ o && o < 0x28) || (o ≠ 0x148 && 0x148 ≤ o)

/-- The value of a word of configuration space (R417 to R420, R426, R446). [PRESUMED, log entry 2; PRESUMED, log entry 34] -/
def State.cfgView (s : State) (fn o : Nat) : Nat :=
  let own := (s.reg (cfgOff fn + o)).toNat
  let vf := fn != 0
  let slot := s.rdB F.msCfg_attended
  let caps := if vf then vfCaps else if slot then pfCaps ++ [(0x350, 0xB)] else pfCaps
  let bar2 := s.rd (F.cfgBar2_addr.cfg fn) * 2 ^ 28 + s.rd (F.cfgBar3_addr.cfg fn) * 2 ^ 32
  match capWord caps o with
  | some w => w
  | none =>
    if vf && pfOnly o then 0
    else if 0x350 ≤ o && !slot then 0
    else match o with
      | 0x0 => if vf then 2 ^ 32 - 1 else own
      | 0x18 => barMask (s.aptSize 0) bar2 % 2 ^ 32 + 0xC
      | 0x1C => barMask (s.aptSize 0) bar2 / 2 ^ 32
      | 0x40 => if vf then own % 2 ^ 27 else own
      | 0x60 => own + (s.rd F.glLink_speed + 16 * s.rd F.glLink_width) * 65536
      | 0x90 => if vf then own - 0x7FF * 65536 + 63 * 65536 else own
      | 0x344 => Config.serial.toNat % 2 ^ 32
      | 0x348 => Config.serial.toNat / 2 ^ 32
      | _ => own

/-- The bytes of a word that a request enables, as a mask. -/
def byteMask (be : Nat) : Nat := (List.range 4).foldl (fun m i => if be.testBit i then m + 255 * 256 ^ i else m) 0

/-- Stores the enabled bytes of a word by the access codes of its fields; bits written by 1 only act in enabled bytes. -/
def State.cfgStore (s : State) (fn o be v : Nat) : State :=
  let r := cfgOff fn + o
  let m := byteMask be
  let old := (s.reg r).toNat
  let full := (v &&& m) ||| (old - (old &&& m))
  match fldsAt r with
  | [] => s
  | fs => s.setReg r (BitVec.ofNat 32 (fs.foldl (fun x f => fldWrite s.sealed (if f.acc == .w1c || f.acc == .w1s then v &&& m else full) x f) old))

/-- Pending vectors of a function are sent where nothing masks them any more (R436). -/
def State.sendAllPending (s : State) (fn : Nat) : State :=
  ((s.ep.msix.filter fun e => e.1 / 2048 == fn && e.2.pend).map fun e => e.1 % 2048).foldl (fun (s : State) v => s.sendPending fn v) s

/-- A write of MS_SLOT_CTRL (R446, R447): an indicator written as 0b00 keeps its value, and off = 1 powers the module off. [PRESUMED, log entry 34] -/
def State.slotWrite (s : State) (be v : Nat) : State :=
  if !s.rdB F.msCfg_attended then s
  else
    let a := s.rd (F.slotCtrl_attn.cfg 0)
    let p := s.rd (F.slotCtrl_pwr.cfg 0)
    let s := s.cfgStore 0 0x35C be v
    let s := if s.rd (F.slotCtrl_attn.cfg 0) = 0 then s.wr (F.slotCtrl_attn.cfg 0) a else s
    let s := if s.rd (F.slotCtrl_pwr.cfg 0) = 0 then s.wr (F.slotCtrl_pwr.cfg 0) p else s
    if s.rdB (F.slotCtrl_off.cfg 0) then s.slotOff else s

/-- A write of a BAR Size field: sizes 256 MiB to 512 GiB exist (R420, R423). [PRESUMED, log entry 34] -/
def State.rebarWrite (s : State) (o be v : Nat) : State :=
  let x := bits v 8 6
  if be.testBit 1 && 8 ≤ x && x ≤ 19 then s.cfgStore 0 o be v else s

/-- A configuration write (R418, R423, R426, R427, R436, R438, R441, R446, R604). [PRESUMED, log entry 34] -/
def State.cfgWrite (s : State) (fn o be v : Nat) : State :=
  let w := v &&& byteMask be
  if fn ≠ 0 && pfOnly o then s
  else match o with
    | 0x4 =>
      let bme := s.rdB (F.cfgCmd_busMaster.cfg fn)
      let s := s.cfgStore fn o be v
      let now := s.rdB (F.cfgCmd_busMaster.cfg fn)
      let s := if fn = 0 then s else s.wr (F.cfgCmd_memSpace.cfg fn) 0
      if bme = now then s else s.busMaster fn now
    | 0x44 =>
      let old := s.rd (F.cfgPmcsr_state.cfg fn)
      let s := (s.cfgStore fn o be v).wr (F.cfgPmcsr_state.cfg fn) old
      if be.testBit 0 && bits v 0 2 != old then s.powerState fn (bits v 0 2) else s
    | 0x58 =>
      let s := (s.cfgStore fn o be v).wr (F.cfgDevCtl_flr.cfg fn) 0
      if w.testBit 15 then s.flr fn else s
    | 0x90 => (s.cfgStore fn o be v).sendAllPending fn
    | 0x2A8 =>
      let s := s.cfgStore fn o be v
      if s.rdB (F.cfgPtmCtl_enable.cfg 0) then s else s.wr F.tlStatus_ptmValid 0
    | 0x2D8 | 0x2E8 => s.rebarWrite o be v
    | 0x308 =>
      let on := s.rdB (F.cfgSriovCtl_vfEnable.cfg 0)
      let s := s.cfgStore 0 o be v
      if on && !s.rdB (F.cfgSriovCtl_vfEnable.cfg 0) then (s.wr (F.cfgSriovCtl_vfEnable.cfg 0) 1).vfClear else s
    | 0x310 => if be % 4 = 3 then s.numVfs (bits v 0 16) else s
    | 0x35C => s.slotWrite be v
    | 0x360 => if s.rdB F.msCfg_attended then s.cfgStore 0 o be v else s
    | _ => s.cfgStore fn o be v

/-- CONFIG_REQUEST (R416): with the link up and PERST# released, a request before the endpoint is ready completes with Request Retry Status, one for a function
that does not exist with Unsupported Request; otherwise it reads or writes the word at dword `r`, byte by byte as enabled. [DEDUCED, log entry 33] -/
def execConfigRequest (fn : Fin 16) (write : Bool) (r : Fin 1024) (be : Fin 16) (v : Word) (s : State) : Host.Outcome State Fault Refusal :=
  let f := fn.val
  finish <|
    if !s.ep.linkUp || s.ep.perst then s
    else
      let s := s.leaveL1
      if !s.ep.cfgReady then s.emit (.retryStatus f)
      else if !s.fnExists f then s.emit (.unsupported f)
      else if write then (s.emit (.readData f [])).cfgWrite f (4 * r.val) be.val v.toNat
      else s.emit (.readData f (leBytes 4 (s.cfgView f (4 * r.val))))

end Sys2Proof.Machine
end

