-- ==== Sys2Proof/Machine/Dispatch.lean ====
section
/-! DEFINITION. The one dispatch: every command's arm is one call of its meaning. -/

namespace Sys2Proof.Machine

/-- The effect of a command on everything but the queue. -/
def exec (i : Instr) (s : State) : Host.Outcome State Fault Refusal :=
  match i with
  | .registerWrite fn bar4 off v => Sys2Proof.Machine.execRegisterWrite fn bar4 off v s
  | .frameBoundary => Sys2Proof.Machine.execFrameBoundary s
  | .commandEligible slot => Sys2Proof.Machine.execCommandEligible slot s
  | .deadlinePass slot => Sys2Proof.Machine.execDeadlinePass slot s
  | .tlSwitchArm v => Sys2Proof.Machine.execTlSwitchArm v s
  | .tlSwitchAtStamp => Sys2Proof.Machine.execTlSwitchAtStamp s
  | .tlSyncInFramePulse x => Sys2Proof.Machine.execTlSyncInFramePulse x s
  | .tlSyncInLinePulse => Sys2Proof.Machine.execTlSyncInLinePulse s
  | .frameSyncEdge trim => Sys2Proof.Machine.execFrameSyncEdge trim s
  | .tlHoldoverEntry => Sys2Proof.Machine.execTlHoldoverEntry s
  | .ptmDialog ns trim => Sys2Proof.Machine.execPtmDialog ns trim s
  | .ptmValidTimeout => Sys2Proof.Machine.execPtmValidTimeout s
  | .tlPtmMappingWrite r v => Sys2Proof.Machine.execTlPtmMappingWrite r v s
  | .skidwayFrameBlock port hop frame => Sys2Proof.Machine.execSkidwayFrameBlock port hop frame s
  | .tlAlarmLoWrite n v => Sys2Proof.Machine.execTlAlarmLoWrite n v s
  | .tlAlarmHiWrite n v => Sys2Proof.Machine.execTlAlarmHiWrite n v s
  | .tlAlarmFire n => Sys2Proof.Machine.execTlAlarmFire n s
  | .ckSwitchArm v => Sys2Proof.Machine.execCkSwitchArm v s
  | .ckSwitchAtStamp => Sys2Proof.Machine.execCkSwitchAtStamp s
  | .clockLoss src => Sys2Proof.Machine.execClockLoss src s
  | .fallbackClockLost => Sys2Proof.Machine.execFallbackClockLost s
  | .ckClkoutWrite v => Sys2Proof.Machine.execCkClkoutWrite v s
  | .sqFetch sq => Sys2Proof.Machine.execSqFetch sq s
  | .computeCommand slot => Sys2Proof.Machine.execComputeCommand slot s
  | .shareStart slot n => Sys2Proof.Machine.execShareStart slot n s
  | .instrBlockFetched p x => Sys2Proof.Machine.execInstrBlockFetched p x s
  | .unitInstructionComplete p x u e => Sys2Proof.Machine.execUnitInstructionComplete p x u e s
  | .cmdBudgetExceeded p x => Sys2Proof.Machine.execCmdBudgetExceeded p x s
  | .nop site => Sys2Proof.Machine.execNop site s
  | .loop p x => Sys2Proof.Machine.execLoop p x s
  | .endl p x => Sys2Proof.Machine.execEndl p x s
  | .skip p x => Sys2Proof.Machine.execSkip p x s
  | .skipChangeMap p x => Sys2Proof.Machine.execSkipChangeMap p x s
  | .tile p x e => Sys2Proof.Machine.execTile p x e s
  | .tileCheckComplete p fails => Sys2Proof.Machine.execTileCheckComplete p fails s
  | .diagnosisComplete p d => Sys2Proof.Machine.execDiagnosisComplete p d s
  | .blArrDiagStart p v => Sys2Proof.Machine.execBlArrDiagStart p v s
  | .boleScrubComplete p ok => Sys2Proof.Machine.execBoleScrubComplete p ok s
  | .mvDot p x e stall => Sys2Proof.Machine.execMvDot p x e stall s
  | .mvAxpy p x e stall => Sys2Proof.Machine.execMvAxpy p x e stall s
  | .vecArith p x e => Sys2Proof.Machine.execVecArith p x e s
  | .vecConvert p x e => Sys2Proof.Machine.execVecConvert p x e s
  | .vecRequantize p x e => Sys2Proof.Machine.execVecRequantize p x e s
  | .vecFloatRequantize p x e => Sys2Proof.Machine.execVecFloatRequantize p x e s
  | .vecBlockQuantize p x e => Sys2Proof.Machine.execVecBlockQuantize p x e s
  | .vecFunction p x e => Sys2Proof.Machine.execVecFunction p x e s
  | .vecReduce p x e => Sys2Proof.Machine.execVecReduce p x e s
  | .vecReduceStore p x e => Sys2Proof.Machine.execVecReduceStore p x e s
  | .vecDropout p x e => Sys2Proof.Machine.execVecDropout p x e s
  | .vecDraw p x e => Sys2Proof.Machine.execVecDraw p x e s
  | .scaleBind p x => Sys2Proof.Machine.execScaleBind p x s
  | .scaleUnbind p x => Sys2Proof.Machine.execScaleUnbind p x s
  | .statOpen p x => Sys2Proof.Machine.execStatOpen p x s
  | .statClose p x => Sys2Proof.Machine.execStatClose p x s
  | .fetch p x e => Sys2Proof.Machine.execFetch p x e s
  | .fetchBoom p x e => Sys2Proof.Machine.execFetchBoom p x e s
  | .boomStagingLineFilled g => Sys2Proof.Machine.execBoomStagingLineFilled g s
  | .putStore p x e => Sys2Proof.Machine.execPutStore p x e s
  | .putReduce p x e => Sys2Proof.Machine.execPutReduce p x e s
  | .winOpen p x => Sys2Proof.Machine.execWinOpen p x s
  | .winClose p x => Sys2Proof.Machine.execWinClose p x s
  | .waitSemaphore p x => Sys2Proof.Machine.execWaitSemaphore p x s
  | .waitWindow p x => Sys2Proof.Machine.execWaitWindow p x s
  | .waitTokens p x => Sys2Proof.Machine.execWaitTokens p x s
  | .sigLocal p x => Sys2Proof.Machine.execSigLocal p x s
  | .sigRemote p x => Sys2Proof.Machine.execSigRemote p x s
  | .tallyInit site => Sys2Proof.Machine.execTallyInit site s
  | .tallyTake p x e => Sys2Proof.Machine.execTallyTake p x e s
  | .tallyRead p x => Sys2Proof.Machine.execTallyRead p x s
  | .div slot k => Sys2Proof.Machine.execDiv slot k s
  | .commit p x => Sys2Proof.Machine.execCommit p x s
  | .sendPhase slot => Sys2Proof.Machine.execSendPhase slot s
  | .commandCommit slot kill => Sys2Proof.Machine.execCommandCommit slot kill s
  | .remoteWrite k => Sys2Proof.Machine.execRemoteWrite k s
  | .windowExpiry dst w => Sys2Proof.Machine.execWindowExpiry dst w s
  | .saveWindowWaitExpiry slot => Sys2Proof.Machine.execSaveWindowWaitExpiry slot s
  | .spadGateRequest landing hi n v => Sys2Proof.Machine.execSpadGateRequest landing hi n v s
  | .bankGateEntry landing n k => Sys2Proof.Machine.execBankGateEntry landing n k s
  | .bankUngateComplete landing n k => Sys2Proof.Machine.execBankUngateComplete landing n k s
  | .landingScrubComplete g k ok => Sys2Proof.Machine.execLandingScrubComplete g k ok s
  | .compartmentHandOver n => Sys2Proof.Machine.execCompartmentHandOver n s
  | .sliceExpiry k => Sys2Proof.Machine.execSliceExpiry k s
  | .groupSaveComplete slot => Sys2Proof.Machine.execGroupSaveComplete slot s
  | .groupRestoreComplete slot => Sys2Proof.Machine.execGroupRestoreComplete slot s
  | .ptPreemptRequest p => Sys2Proof.Machine.execPtPreemptRequest p s
  | .epochShadowWrite p k v => Sys2Proof.Machine.execEpochShadowWrite p k v s
  | .scEpochArm v => Sys2Proof.Machine.execScEpochArm v s
  | .epochSwitchStamp => Sys2Proof.Machine.execEpochSwitchStamp s
  | .unitEpochSwitch u => Sys2Proof.Machine.execUnitEpochSwitch u s
  | .energyCalibration eIn eStatic eDyn => Sys2Proof.Machine.execEnergyCalibration eIn eStatic eDyn s
  | .acQselWrite fn v => Sys2Proof.Machine.execAcQselWrite fn v s
  | .ptSeedHiWrite p v => Sys2Proof.Machine.execPtSeedHiWrite p v s
  | .ptSeedInvalidate p w v => Sys2Proof.Machine.execPtSeedInvalidate p w v s
  | .decodeAccessUnit slot => Sys2Proof.Machine.execDecodeAccessUnit slot s
  | .decodeFlush slot order => Sys2Proof.Machine.execDecodeFlush slot order s
  | .pictureEngineStart slot h => Sys2Proof.Machine.execPictureEngineStart slot h s
  | .segmentCheckpoint e => Sys2Proof.Machine.execSegmentCheckpoint e s
  | .pictureBudgetExpiry e => Sys2Proof.Machine.execPictureBudgetExpiry e s
  | .pictureComplete e r => Sys2Proof.Machine.execPictureComplete e r s
  | .engineFault e bounds => Sys2Proof.Machine.execEngineFault e bounds s
  | .engineReload e => Sys2Proof.Machine.execEngineReload e s
  | .engineReloadComplete e => Sys2Proof.Machine.execEngineReloadComplete e s
  | .engineOfflineRequest e v => Sys2Proof.Machine.execEngineOfflineRequest e v s
  | .encodePicture e read => Sys2Proof.Machine.execEncodePicture e read s
  | .batchCommand slot => Sys2Proof.Machine.execBatchCommand slot s
  | .tokenize slot => Sys2Proof.Machine.execTokenize slot s
  | .track slot => Sys2Proof.Machine.execTrack slot s
  | .roiCommand slot => Sys2Proof.Machine.execRoiCommand slot s
  | .dramRead src a chk e1 e2 => Sys2Proof.Machine.execDramRead src a chk e1 e2 s
  | .dramWrite src a data => Sys2Proof.Machine.execDramWrite src a data s
  | .bankRefresh sc rank bank => Sys2Proof.Machine.execBankRefresh sc rank bank s
  | .dramTempReport sc temp => Sys2Proof.Machine.execDramTempReport sc temp s
  | .retrainDue sc drift => Sys2Proof.Machine.execRetrainDue sc drift s
  | .retrainStart sc => Sys2Proof.Machine.execRetrainStart sc s
  | .retrainForced sc => Sys2Proof.Machine.execRetrainForced sc s
  | .retrainComplete sc ok => Sys2Proof.Machine.execRetrainComplete sc ok s
  | .writeCrcError sc fails => Sys2Proof.Machine.execWriteCrcError sc fails s
  | .powerDownEntry sc rank => Sys2Proof.Machine.execPowerDownEntry sc rank s
  | .selfRefreshEntry sc => Sys2Proof.Machine.execSelfRefreshEntry sc s
  | .selfRefreshExit sc drift => Sys2Proof.Machine.execSelfRefreshExit sc drift s
  | .patrolScrubRead e1 e2 => Sys2Proof.Machine.execPatrolScrubRead e1 e2 s
  | .pprRepair sc => Sys2Proof.Machine.execPprRepair sc s
  | .deckInitComplete d => Sys2Proof.Machine.execDeckInitComplete d s
  | .deckWaiterServed d => Sys2Proof.Machine.execDeckWaiterServed d s
  | .dkReturn fn v => Sys2Proof.Machine.execDkReturn fn v s
  | .dkReclaim fn v => Sys2Proof.Machine.execDkReclaim fn v s
  | .dkMinFreeRearm d v => Sys2Proof.Machine.execDkMinFreeRearm d v s
  | .deckRingRebuildComplete d => Sys2Proof.Machine.execDeckRingRebuildComplete d s
  | .configRequest fn write r be v => Sys2Proof.Machine.execConfigRequest fn write r be v s
  | .linkTrained speed width flit => Sys2Proof.Machine.execLinkTrained speed width flit s
  | .bar0Access fn bar4 write off size v => Sys2Proof.Machine.execBar0Access fn bar4 write off size v s
  | .apertureRead fn off n => Sys2Proof.Machine.execApertureRead fn off n s
  | .apertureWrite fn off data => Sys2Proof.Machine.execApertureWrite fn off data s
  | .sqDoorbell fn n v => Sys2Proof.Machine.execSqDoorbell fn n v s
  | .cqDoorbell fn n v => Sys2Proof.Machine.execCqDoorbell fn n v s
  | .ringDoorbell fn n v => Sys2Proof.Machine.execRingDoorbell fn n v s
  | .numvfsWrite v => Sys2Proof.Machine.execNumvfsWrite v s
  | .vfEnableClear => Sys2Proof.Machine.execVfEnableClear s
  | .hostCompletion fn tag st data => Sys2Proof.Machine.execHostCompletion fn tag st data s
  | .completionTimeout fn tag => Sys2Proof.Machine.execCompletionTimeout fn tag s
  | .tagQuarantineEnd fn tag => Sys2Proof.Machine.execTagQuarantineEnd fn tag s
  | .poisonedTlpReceived fn => Sys2Proof.Machine.execPoisonedTlpReceived fn s
  | .busMasterEnableChange fn v => Sys2Proof.Machine.execBusMasterEnableChange fn v s
  | .msixUnmask fn vec => Sys2Proof.Machine.execMsixUnmask fn vec s
  | .functionLevelReset fn => Sys2Proof.Machine.execFunctionLevelReset fn s
  | .flrComplete fn => Sys2Proof.Machine.execFlrComplete fn s
  | .linkDown => Sys2Proof.Machine.execLinkDown s
  | .powerStateWrite fn st => Sys2Proof.Machine.execPowerStateWrite fn st s
  | .skidwayWake port => Sys2Proof.Machine.execSkidwayWake port s
  | .aspmL1Entry => Sys2Proof.Machine.execAspmL1Entry s
  | .msSlotOff => Sys2Proof.Machine.execMsSlotOff s
  | .createSq slot => Sys2Proof.Machine.execCreateSq slot s
  | .deleteSq slot => Sys2Proof.Machine.execDeleteSq slot s
  | .deleteSqComplete n => Sys2Proof.Machine.execDeleteSqComplete n s
  | .createCq slot => Sys2Proof.Machine.execCreateCq slot s
  | .deleteCq slot => Sys2Proof.Machine.execDeleteCq slot s
  | .createRing slot => Sys2Proof.Machine.execCreateRing slot s
  | .deleteRing slot => Sys2Proof.Machine.execDeleteRing slot s
  | .openContext slot => Sys2Proof.Machine.execOpenContext slot s
  | .closeContext slot => Sys2Proof.Machine.execCloseContext slot s
  | .writeContext slot => Sys2Proof.Machine.execWriteContext slot s
  | .readContext slot => Sys2Proof.Machine.execReadContext slot s
  | .loadCutList slot => Sys2Proof.Machine.execLoadCutList slot s
  | .unloadCutList slot => Sys2Proof.Machine.execUnloadCutList slot s
  | .loadDictionary slot => Sys2Proof.Machine.execLoadDictionary slot s
  | .unloadDictionary slot => Sys2Proof.Machine.execUnloadDictionary slot s
  | .scCtlEnable p v => Sys2Proof.Machine.execScCtlEnable p v s
  | .scCtlSqTailWrite p v => Sys2Proof.Machine.execScCtlSqTailWrite p v s
  | .scCtlCqHeadWrite p v => Sys2Proof.Machine.execScCtlCqHeadWrite p v s
  | .scQselWrite fn v => Sys2Proof.Machine.execScQselWrite fn v s
  | .helloReceived port l modId peerPort ups => Sys2Proof.Machine.execHelloReceived port l modId peerPort ups s
  | .skidwayWriteReceived port l w data => Sys2Proof.Machine.execSkidwayWriteReceived port l w data s
  | .doneReceived port l src dst hops slot idx result => Sys2Proof.Machine.execDoneReceived port l src dst hops slot idx result s
  | .lnakReceived port ack => Sys2Proof.Machine.execLnakReceived port ack s
  | .lackReceived port ack => Sys2Proof.Machine.execLackReceived port ack s
  | .skidwayBadMessage port => Sys2Proof.Machine.execSkidwayBadMessage port s
  | .lackTimer port => Sys2Proof.Machine.execLackTimer port s
  | .portSilenceTimeout port => Sys2Proof.Machine.execPortSilenceTimeout port s
  | .portRetryTraining port => Sys2Proof.Machine.execPortRetryTraining port s
  | .swAckTimeout slot idx => Sys2Proof.Machine.execSwAckTimeout slot idx s
  | .swRxwCtlWrite n v => Sys2Proof.Machine.execSwRxwCtlWrite n v s
  | .auxPowerOn => Sys2Proof.Machine.execAuxPowerOn s
  | .presenceMated => Sys2Proof.Machine.execPresenceMated s
  | .inputQualified => Sys2Proof.Machine.execInputQualified s
  | .presenceLost written => Sys2Proof.Machine.execPresenceLost written s
  | .inputOvervoltage written => Sys2Proof.Machine.execInputOvervoltage written s
  | .overvoltageRecovery => Sys2Proof.Machine.execOvervoltageRecovery s
  | .overcurrentTrip cause written => Sys2Proof.Machine.execOvercurrentTrip cause written s
  | .inputUndervoltage => Sys2Proof.Machine.execInputUndervoltage s
  | .inputRecovered => Sys2Proof.Machine.execInputRecovered s
  | .rideThroughExpiry written => Sys2Proof.Machine.execRideThroughExpiry written s
  | .holdupMeasure mj => Sys2Proof.Machine.execHoldupMeasure mj s
  | .railFault rail written => Sys2Proof.Machine.execRailFault rail written s
  | .railPowerGood rail => Sys2Proof.Machine.execRailPowerGood rail s
  | .powerSample mv ma10 p10us p10ms uj => Sys2Proof.Machine.execPowerSample mv ma10 p10us p10ms uj s
  | .pwLimitWrite v => Sys2Proof.Machine.execPwLimitWrite v s
  | .thermalSample die lid dram conv sw bank hot written => Sys2Proof.Machine.execThermalSample die lid dram conv sw bank hot written s
  | .thermalComparatorTrip => Sys2Proof.Machine.execThermalComparatorTrip s
  | .attnButtonPress => Sys2Proof.Machine.execAttnButtonPress s
  | .mctpControl cmd arg => Sys2Proof.Machine.execMctpControl cmd arg s
  | .pldmSensorRead id => Sys2Proof.Machine.execPldmSensorRead id s
  | .pldmPowerLimitSet v => Sys2Proof.Machine.execPldmPowerLimitSet v s
  | .pldmPowerOff => Sys2Proof.Machine.execPldmPowerOff s
  | .pldmPowerOn => Sys2Proof.Machine.execPldmPowerOn s
  | .pldmFwUpdate r => Sys2Proof.Machine.execPldmFwUpdate r s
  | .modReset => Sys2Proof.Machine.execModReset s
  | .perstAssert => Sys2Proof.Machine.execPerstAssert s
  | .startUp => Sys2Proof.Machine.execStartUp s
  | .startupStageComplete n f => Sys2Proof.Machine.execStartupStageComplete n f s
  | .preloadComplete k => Sys2Proof.Machine.execPreloadComplete k s
  | .glSeal fn => Sys2Proof.Machine.execGlSeal fn s
  | .glRestart fn key => Sys2Proof.Machine.execGlRestart fn key s
  | .watchdogExpiry e => Sys2Proof.Machine.execWatchdogExpiry e s
  | .boleOutOfService p => Sys2Proof.Machine.execBoleOutOfService p s
  | .serviceDrainComplete p => Sys2Proof.Machine.execServiceDrainComplete p s
  | .boleIntoService p => Sys2Proof.Machine.execBoleIntoService p s
  | .boleSelftestComplete p ok => Sys2Proof.Machine.execBoleSelftestComplete p ok s
  | .rowRepairRequest => Sys2Proof.Machine.execRowRepairRequest s
  | .ftRselWrite v => Sys2Proof.Machine.execFtRselWrite v s
  | .spdmRequest mctp => Sys2Proof.Machine.execSpdmRequest mctp s
  | .debugChallenge => Sys2Proof.Machine.execDebugChallenge s
  | .debugResponse => Sys2Proof.Machine.execDebugResponse s
  | .debugChallengeTimeout => Sys2Proof.Machine.execDebugChallengeTimeout s
  | .ownerTransfer => Sys2Proof.Machine.execOwnerTransfer s
  | .updateManifest => Sys2Proof.Machine.execUpdateManifest s
  | .updatePiece n => Sys2Proof.Machine.execUpdatePiece n s
  | .updateActivate bad => Sys2Proof.Machine.execUpdateActivate bad s
  | .updateAbort => Sys2Proof.Machine.execUpdateAbort s
  | .stewardHandover heartbeat => Sys2Proof.Machine.execStewardHandover heartbeat s
  | .handoverHeartbeatTimeout => Sys2Proof.Machine.execHandoverHeartbeatTimeout s
  | .upOnairWrite fn v => Sys2Proof.Machine.execUpOnairWrite fn v s
  | .entropyHealthFail => Sys2Proof.Machine.execEntropyHealthFail s
  | .entropyHealthRecovered => Sys2Proof.Machine.execEntropyHealthRecovered s
  | .clockSourceReady src => Sys2Proof.Machine.execClockSourceReady src s
  | .perstDeassert => Sys2Proof.Machine.execPerstDeassert s
  | .auxPowerLoss => Sys2Proof.Machine.execAuxPowerLoss s
  | .skidwayPortTrained port ok => Sys2Proof.Machine.execSkidwayPortTrained port ok s
  | .pwRailSelWrite v mv ma100 => Sys2Proof.Machine.execPwRailSelWrite v mv ma100 s
  | .pictureSetAside e => Sys2Proof.Machine.execPictureSetAside e s

end Sys2Proof.Machine
end

