-- ==== Sys2Proof/Machine/Step.lean ====
section
/-! DEFINITION. One step of the block: the command at the front of the queue is carried out; on an empty queue the timeline ticks. -/

namespace Sys2Proof.Machine

/-- The state with a table word's command put in front of its queue. The table gives no row any bits, so no word spells a command. [DESIGN CHOICE, log entry 107] -/
def State.withFetchWord (s : State) (nbits w : Nat) : State :=
  match Sys2Proof.decodeTableWord nbits w with
  | some c => { s with pending := c :: s.pending }
  | none => s

/-- One step: the front command on the rest of the queue, or one tick of the timeline while no command waits. [DESIGN CHOICE, log entry 1] -/
def step (s : State) : Host.Outcome State Fault Refusal :=
  match s.pending with
  | c :: rest => exec c { s with pending := rest }
  | [] => finish s.tick

end Sys2Proof.Machine
end

