-- ==== Sys2Proof/Safety.lean ====
section
/-! DEFINITION. What a safe run is, in the terms the statements use: nothing waits to be settled, what one command may change, and which words of a
cut list each row of an instruction stands for. -/

namespace Sys2Proof.Safety

open Sys2Proof.Machine

/-- No refused queue write waits for its partition-fatal fault (R605). -/
def quiet (s : State) : Prop := s.sched.pfailDue = []

/-- Nothing is due at the end of a command: no refused queue write waits (R605), no bole begins or ends a time with a share on it (R302), and no function's
latency tolerance has changed (R444). -/
def settled (s : State) : Prop :=
  s.sched.pfailDue = [] ∧ (∀ p ∈ tkeys s.boles, ((s.bole p).busyAt = none ↔ (s.bole p).ctxs = [])) ∧ ∀ fn, fn < 16 → s.ltr fn = tget s.ep.ltr fn

/-- `t` is `s` but for the registers at the offsets listed. -/
def onlyRegs (s t : State) (offs : List Nat) : Prop := t = { s with regs := t.regs } ∧ ∀ o, o ∉ offs → t.reg o = s.reg o

/-! ### Issue -/

/-- The rows of the scalar instructions of a bole, with the words that each stands for (R209, table Opcodes). -/
def scalarRows (p : Fin 68) (x : Fin 4) (e : UnitErr) : List (Instr × (Nat → Bool)) :=
  [(.nop (.bole p x), fun w => opOf w == 0 || !opcodes.contains (opOf w)),
   (.loop p x, isOp 0x01),
   (.endl p x, isOp 0x02),
   (.skip p x, fun w => opOf w == 0x40 && bits w 20 4 != 4),
   (.skipChangeMap p x, fun w => opOf w == 0x40 && bits w 20 4 == 4),
   (.scaleBind p x, fun w => opOf w == 0x38 && !w.testBit 23),
   (.scaleUnbind p x, fun w => opOf w == 0x38 && w.testBit 23),
   (.tallyInit (.bole p x), fun w => opOf w == 0x48 && bits w 20 2 == 0),
   (.tallyTake p x e, fun w => opOf w == 0x48 && bits w 20 2 == 1),
   (.tallyRead p ⟨x, e⟩, fun w => opOf w == 0x48 && 2 ≤ bits w 20 2),
   (.winOpen p ⟨x, e⟩, fun w => opOf w == 0x50 && !w.testBit 20),
   (.winClose p x, fun w => opOf w == 0x50 && w.testBit 20),
   (.waitSemaphore p x, fun w => opOf w == 0x58 && (bits w 20 3 == 0 || 2 < bits w 20 3)),
   (.waitWindow p x, fun w => opOf w == 0x58 && bits w 20 3 == 1),
   (.waitTokens p x, fun w => opOf w == 0x58 && bits w 20 3 == 2),
   (.sigLocal p x, fun w => opOf w == 0x59 && !w.testBit 20),
   (.sigRemote p x, fun w => opOf w == 0x59 && w.testBit 20),
   (.statOpen p x, fun w => opOf w == 0x60 && !w.testBit 20),
   (.statClose p x, fun w => opOf w == 0x60 && w.testBit 20),
   (.commit p x, isOp 0x70)]

/-- The rows of the unit instructions of a bole, with the words that each stands for and what each does (R204, table Opcodes). -/
def unitRows (p : Fin 68) (x : Fin 4) (e : UnitErr) (stall : Nat) : List (Instr × (Nat → Bool) × UnitSpec) :=
  [(.tile p x e, isOp 0x10, tileSpec),
   (.mvDot p x e stall, fun w => opOf w == 0x18 && !w.testBit 20, mvSpec stall),
   (.mvAxpy p x e stall, fun w => opOf w == 0x18 && w.testBit 20, mvSpec stall),
   (.vecArith p x e, fun w => opOf w == 0x20 && (vecArithOps (bits w 20 8) || !vecOps (bits w 20 8)), ⟨vecArithCheck, vecArithRun⟩),
   (.vecConvert p x e, isVec 0x20, ⟨vecConvertCheck, vecConvertRun⟩),
   (.vecRequantize p x e, isVec 0x28, ⟨vecRequantCheck, vecRequantRun⟩),
   (.vecFloatRequantize p x e, isVec 0x29, ⟨vecFloatRequantCheck, vecFloatRequantRun⟩),
   (.vecBlockQuantize p x e, isVec 0x2A, ⟨vecBlockCheck, vecBlockRun⟩),
   (.vecFunction p x e, fun w => opOf w == 0x20 && bits w 22 6 == 0xC, ⟨vecFuncCheck, vecFuncRun⟩),
   (.vecReduce p x e, fun w => opOf w == 0x20 && 0x40 ≤ bits w 20 8 && bits w 20 8 ≤ 0x42, ⟨vecReduceCheck, vecReduceRun⟩),
   (.vecReduceStore p x e, isVec 0x48, ⟨vecStoreCheck, vecStoreRun⟩),
   (.vecDropout p x e, isVec 0x50, ⟨vecDropCheck, vecDropRun⟩),
   (.vecDraw p x e, isVec 0x51, ⟨vecDrawCheck, vecDrawRun⟩),
   (.fetch p x e, fun w => opOf w == 0x30 && !w.testBit 20, fetchSpec),
   (.fetchBoom p x e, fun w => opOf w == 0x30 && w.testBit 20, fetchSpec),
   (.putStore p x e, fun w => opOf w == 0x34 && bits w 22 2 == 0, putStoreSpec),
   (.putReduce p x e, fun w => opOf w == 0x34 && bits w 22 2 != 0, putReduceSpec)]

/-- Instruction `i` of a row is the next to issue on a context, and its word is legal (R203, R209). -/
def issues (s : State) (p : Fin 68) (x : Fin 4) (sel : Nat → Bool) (i : Iss) : Prop := s.issuable p.val x.val sel = some i ∧ wordOk i.w = true

/-- What a unit instruction that issues works with. -/
def opOfIss (i : Iss) : UnitOp := ⟨i.p, i.x, i.c.slot, i.cmd, i.code, i.c.regs i.w⟩

/-- The state after a scalar instruction has left its context as `c` (R203, R234). -/
def after (s : State) (p : Fin 68) (x : Fin 4) (c : IssueCtx) : State := ((s.setCtx p.val x.val c).issued p.val x.val).settle

/-- The state after a unit instruction whose work gives `t` (R203, R204). -/
def afterUnit (t : State) (i : Iss) : State :=
  (((t.unitClean i.p (unitOf i.w)).pushFlight i.p i.x i.c.slot (inFlight (i.c.regs i.w) false)).issued i.p i.x).settle

/-! ### Control operations -/

/-- The rows of the control operations with their operation numbers (R458, table Control operations). -/
def controlRows (slot : Fin 4096) : List (Instr × Nat) :=
  [(.createSq slot, 0x001), (.deleteSq slot, 0x002), (.createCq slot, 0x003), (.deleteCq slot, 0x004), (.createRing slot, 0x005), (.deleteRing slot, 0x006),
   (.openContext slot, 0x010), (.closeContext slot, 0x011), (.writeContext slot, 0x012), (.readContext slot, 0x013), (.loadCutList slot, 0x020),
   (.unloadCutList slot, 0x021), (.loadDictionary slot, 0x022), (.unloadDictionary slot, 0x023)]

/-- Command `c` in a slot is control operation `op`, and it is its turn: it waits or runs, its conditions hold, its epoch has come, and no older command of its queue is in a
slot (R458, R468). -/
def controlTurn (s : State) (slot : Fin 4096) (op : Nat) (c : Cmd) : Prop :=
  tget s.cmds slot.val = some c ∧ c.desc.cls = 0 ∧ c.desc.op = op ∧ (c.phase = .waiting ∨ c.phase = .running) ∧ s.canBeEligible c = true ∧
    s.epochWait c = false ∧ ∀ e ∈ s.cmds, e.2.sq = c.sq → c.order ≤ e.2.order

/-- The operation runs: it is its turn, the checks that every class shares pass, and `r` is the state in which it runs. -/
def controlRuns (s : State) (slot : Fin 4096) (op : Nat) (c : Cmd) (r : State) : Prop :=
  controlTurn s slot op c ∧ s.commonCheck c = 0 ∧ r = s.setCmd slot.val { c with phase := .running }

/-- A command of an input engine of class `cls` may be taken up: the module is ready and does not pause, the command is not dropped as late, its epoch has
come, and the engine's class does not switch epoch (R276, R293, R295, R512). -/
def inputMay (s : State) (cls : Nat) (c : Cmd) : Bool :=
  s.rdB F.glStatus_ready && !s.pow.paused && !s.lateDrop c && !s.epochWait c && !s.sched.switching.contains (66 + cls)

end Sys2Proof.Safety
end

