-- ==== Sys2Proof/Certificates/Slice0/Obligations.lean ====
section
/-! DEFINITION. The statements for the provers, by chapter of the spec. A next state is written `State.settle u`: the state `u` that the rules
give, after which refused queue writes, if the command made any, take their effect (R605); `Obligations.RefusedQueueWrites` says that nothing
happens where there are none. -/

open Sys2Proof Sys2Proof.Machine Sys2Proof.Safety


/-! ### The block as a whole -/

/-- One step carries out the command at the front of the queue on the rest of the queue; on an empty queue the timeline ticks once (the
model's choice, log entry 1).
Rests on the model's choices of log entries 1, 108. -/
def Obligations.StepRunsFrontCommand : Prop :=
  (∀ (c : Instr) (rest : List Instr) (s : State), s.pending = c :: rest → step s = exec c { s with pending := rest }) ∧
  ∀ s : State, s.pending = [] → step s = .next s.tick.settle

/-- No condition of the spec stops the block: every command answers a next state from every state, and no refused queue write is left
waiting for its partition-fatal fault when a step ends (R551, R605).
Rests on the model's choices of log entry 1. -/
def Obligations.EveryStepCompletesAndSettles : Prop :=
  (∀ (c : Instr) (s : State), ∃ t, exec c s = .next t ∧ t.sched.pfailDue = []) ∧
  ∀ s : State, ∃ t, step s = .next t ∧ t.sched.pfailDue = []

/-- What the spec states of the block right after reset: nothing waits, the tables are in canonical form, and registers read their reset values.
Rests on the model's choices of log entry 3. -/
def Obligations.ResetState : Prop :=
  State.reset.pending = [] ∧ State.reset.sched.pfailDue = [] ∧ Memory.wfOpen State.reset.dram.mem = true ∧ Tab.wf State.reset.regs = true ∧
  State.reset.rd F.tlRaster_lines = 1125 ∧ State.reset.rd F.tlRateNum_num = 30 ∧ State.reset.rd F.tlRateDen_den = 1 ∧
  State.reset.rd F.tlSyncCfg_window = 8 ∧ State.reset.rd F.ckSrcSel_mgmt = 1 ∧ State.reset.rd F.glStatus_sealed = 0 ∧
  State.reset.rd F.glStatus_ready = 0 ∧ State.reset.rd F.pwLimit_host = 600 ∧
  (∀ n : Fin 64, State.reset.rd (F.dkCfg_sizeLog2.at (dkBase n.val)) = 8) ∧
  ∀ n : Fin 448, State.reset.keyOf (n.val * 2 ^ 30) = moduleKey

/-- The laws of registers: a field just written reads the value cut to its width, every other field of its register and every other register
keep theirs, and nothing but the register changes.
R7, R8: what a write of a register makes of each of its fields, RWP fields keeping their value after seal. -/
def Obligations.RegisterLaws : Prop :=
  (∀ (s : State) (f : Fld) (v : Nat), f.lo + f.w ≤ 32 →
    (s.wr f v).rd f = v % 2 ^ f.w ∧
    (∀ g : Fld, g.off = f.off → g.lo + g.w ≤ 32 → (g.lo + g.w ≤ f.lo ∨ f.lo + f.w ≤ g.lo) → (s.wr f v).rd g = s.rd g) ∧
    (∀ o, o ≠ f.off → (s.wr f v).reg o = s.reg o) ∧
    (∀ i, i < 32 → (i < f.lo ∨ f.lo + f.w ≤ i) → ((s.wr f v).reg f.off).getLsbD i = (s.reg f.off).getLsbD i) ∧
    s.wr f v = { s with regs := (s.wr f v).regs }) ∧
  ∀ (s : State) (o v : Nat) (f : Fld), f ∈ fldsAt o →
    (fldsAt o).Pairwise (fun a b => a.lo + a.w ≤ b.lo) → (∀ g ∈ fldsAt o, g.off = o ∧ g.lo + g.w ≤ 32) →
    (f.acc = .rw → (s.regWrite o v).rd f = bits v f.lo f.w) ∧
    (f.acc = .rwp → (s.regWrite o v).rd f = if s.sealed then s.rd f else bits v f.lo f.w) ∧
    (f.acc = .w1c → (s.regWrite o v).rd f = s.rd f - (s.rd f &&& bits v f.lo f.w)) ∧
    (f.acc = .w1s → (s.regWrite o v).rd f = s.rd f ||| bits v f.lo f.w) ∧
    (f.acc = .ro → (s.regWrite o v).rd f = s.rd f) ∧
    ∀ a, a ≠ o → (s.regWrite o v).reg a = s.reg a

/-- The memory operations keep the canonical form and change the bytes they store to and no other.
Rests on the model's choices of log entries 10, 11. -/
def Obligations.MemoryLaws : Prop :=
  (∀ (s : State) (a : Nat) (d : List Byte), Memory.wfOpen s.dram.mem = true → Memory.wfOpen (s.dramPut a d).dram.mem = true) ∧
  (∀ (s : State) (lo hi : Nat), Memory.wfOpen s.dram.mem = true → Memory.wfOpen (s.dramForget lo hi).dram.mem = true) ∧
  (∀ (s : State) (a i : Nat) (d : List Byte), i < d.length → (s.dramPut a d).dramByte (a + i) = d.getD i 0) ∧
  (∀ (s : State) (a x : Nat) (d : List Byte), x < a ∨ a + d.length ≤ x → (s.dramPut a d).dramByte x = s.dramByte x) ∧
  (∀ (s t : State) (p a : Nat) (d : List Byte), s.dramWrite p a d = some t → t = s.dramPut a d ∧ ∀ b ∈ burstsOf a d.length, s.dramOk p b = true) ∧
  (∀ (d : Byte) (m : Mem) (a : Nat) (bs : List Byte), Memory.wf d m = true → Memory.wf d (mwrite d m a bs) = true) ∧
  (∀ (d : Byte) (m : Mem) (a x : Nat) (bs : List Byte), x < a ∨ a + bs.length ≤ x → mget d (mwrite d m a bs) x = mget d m x) ∧
  ∀ (d : Byte) (m : Mem) (a i : Nat) (bs : List Byte), i < bs.length → mget d (mwrite d m a bs) (a + i) = bs.getD i 0

/-- R375, R378: a request with an owner tag reaches only granules keyed to it, and buffers it owns in granules of the module's key; a refused
write changes nothing.
Rests on the model's choices of log entry 11. -/
def Obligations.DramProtection : Prop :=
  (∀ (s : State) (p a : Nat), p ≠ moduleKey → s.dramOk p a = true → s.keyOf a = p ∨
    (s.keyOf a = moduleKey ∧ ∃ b o, s.bufAt a = some b ∧ s.ownerOf b = some o ∧ o.part = p)) ∧
  (∀ (s : State) (a : Nat), s.dramOk moduleKey a = true → s.keyOf a = moduleKey) ∧
  (∀ (s : State) (p a : Nat), s.dramOk p a = true → a < 448 * 2 ^ 30) ∧
  (∀ (s : State) (p a : Nat) (d : List Byte), (∃ b ∈ burstsOf a d.length, s.dramOk p b = false) → s.dramWrite p a d = none) ∧
  ∀ (s : State) (p a n : Nat), (∃ b ∈ burstsOf a n, s.dramOk p b = false) → ∃ b, s.dramRead p a n = .denied b ∧ b ∈ burstsOf a n ∧ s.dramOk p b = false

/-- What logging a fault may change: the log sequence, registers, DRAM, the flash log, outward messages, the endpoint's held messages and
pending bits, rings and the list of refused writes; and always FT_LAST and log_seq as R554 and R555 say.
Rests on the model's choices of log entry 114. -/
def Obligations.LoggingFrame : Prop :=
  (∀ (s : State) (f : FaultInfo), s.logFault f = { s with
    logSeq := (s.logFault f).logSeq, regs := (s.logFault f).regs, dram := (s.logFault f).dram, flashLog := (s.logFault f).flashLog,
    out := (s.logFault f).out, ep := (s.logFault f).ep, mrings := (s.logFault f).mrings,
    sched := { s.sched with pfailDue := (s.logFault f).sched.pfailDue } }) ∧
  (∀ (s : State) (f : FaultInfo), (s.logFault f).logSeq = (s.logSeq + 1) % 2 ^ 32) ∧
  (∀ (s : State) (f : FaultInfo), s.mrings = [] →
    (s.logFault f).rd F.ftLast_code = f.code % 2 ^ 16 ∧ (s.logFault f).rd F.ftLast_class = f.cls.num ∧ (s.logFault f).rd F.ftLast_valid = 1) ∧
  ∀ (s : State) (f : FaultInfo), s.mrings = [] → (f.cls = .partitionFatal ∨ f.cls = .deviceFatal) →
    (s.logFault f).flashLog = (s.flashLog ++ [s.faultRecord f]).drop ((s.flashLog.length + 1) - 64)

/-- R302, R444, R605: what is due when a command ends: every partition that it gave a refused queue write is partition-fatal, the boles' busy times and the
functions' latency tolerances are brought up to date, and nothing else changes; where nothing is due, nothing happens.
Rests on the model's choices of log entries 14, 50, 108. -/
def Obligations.RefusedQueueWrites : Prop :=
  (∀ s : State, settled s → s.settle = s) ∧
  (∀ s : State, s.settle.sched.pfailDue = []) ∧
  (∀ (s : State) (p a : Nat) (d : List Byte), (∃ b ∈ burstsOf a d.length, s.dramOk p b = false) →
    s.queueWrite p a false d = { s with sched := { s.sched with pfailDue := s.sched.pfailDue ++ [p] } }) ∧
  (∀ (s : State) (p : Nat), s.sched.pfailDue = [p] → (s.rd F.ftStat_pfail).testBit p = true →
    s.settleWrites = { s with sched := { s.sched with pfailDue := [] } }) ∧
  (∀ (s : State) (p : Nat), (s.rd F.ftStat_pfail).testBit p = false → s.settleOne p = s.partitionFatal p 0xB07) ∧
  (∀ s : State, s.sched.pfailDue = [] → s.settle = { s with
    regs := s.settle.regs, boles := s.settle.boles, out := s.settle.out, ep := { s.ep with ltr := s.settle.ep.ltr } }) ∧
  (∀ (s : State) (p : Nat), s.sched.pfailDue = [] → (s.settle.bole p) = { s.bole p with busyAt := (s.settle.bole p).busyAt }) ∧
  ∀ (s : State) (fn : Fin 16), s.sched.pfailDue = [] → s.rd (F.cfgDevCtl2_ltrEn.cfg 0) = 1 → tget s.settle.ep.ltr fn.val = s.ltr fn.val

/-- Whatever a step does, DRAM contents and the register file stay in their canonical forms: addresses and offsets strictly rising. That they
are so right after reset is part of `Obligations.ResetState`.
Rests on the model's choices of log entry 1. -/
def Obligations.StepsKeepCanonicalForms : Prop :=
  ∀ s t : State, Memory.wfOpen s.dram.mem = true → Tab.wf s.regs = true → step s = .next t →
    Memory.wfOpen t.dram.mem = true ∧ Tab.wf t.regs = true

/-! ### Timeline and clocks (02) -/

/-- R49, R50: TL_CTRL.arm latches source and stamp where the new source is ready and is refused with 0x0109 otherwise; at the stamp the
source is tested again and taken, or the switch is cancelled.
R38, R39, R57: the start of a frame takes the settings of raster, rate and PTM mapping into effect and the counter reads (F+1):0.0. FRAME_BOUNDARY is the tick
in which the last line ends, and carries the counter into the next frame with the line and subline that the tick leaves; before it there is no boundary.
Rests on the model's choices of log entries 1, 108, 112. -/
def Obligations.TimelineSwitchesAtFrames : Prop :=
  ((∀ (s : State) (v : Word), v.toNat.testBit 4 = true → s.tlReady (bits v.toNat 2 2) = true →
    exec (.tlSwitchArm v) s = .next (State.settle { (s.wr F.tlCtrl_srcNext (bits v.toNat 2 2)).wr F.tlCtrl_pending 1 with
      tl := { s.tl with pendSrc := bits v.toNat 2 2, pendAt := s.rd2 F.tlSwitchAtLo_stamp F.tlSwitchAtHi_stamp } })) ∧
  (∀ (s : State) (v : Word), v.toNat.testBit 4 = true → s.tlReady (bits v.toNat 2 2) = false →
    exec (.tlSwitchArm v) s = .next (State.settle (((s.wr F.tlCtrl_srcNext (bits v.toNat 2 2)).wr F.tlStatus_refused 1).log 0x109 .clocks))) ∧
  (∀ (s : State) (v : Word), v.toNat.testBit 4 = false →
    exec (.tlSwitchArm v) s = .next (State.settle (s.wr F.tlCtrl_srcNext (bits v.toNat 2 2)))) ∧
  (∀ s : State, s.rd F.tlCtrl_pending = 1 → stLt s.now s.tl.pendAt = false → s.tlReady s.tl.pendSrc = true →
    exec .tlSwitchAtStamp s = .next (State.settle { ((s.wr F.tlCtrl_pending 0).wr F.tlCtrl_src s.tl.pendSrc).wr F.tlStatus_lock
        (if s.tl.pendSrc = 0 then 0 else 1) with tl := { s.tl with slew := 0, acquired := false, framesSinceEdge := 0 } })) ∧
  ∀ s : State, s.rd F.tlCtrl_pending = 1 → stLt s.now s.tl.pendAt = false → s.tlReady s.tl.pendSrc = false →
    exec .tlSwitchAtStamp s = .next (State.settle (((s.wr F.tlCtrl_pending 0).wr F.tlStatus_refused 1).log 0x109 .clocks))) ∧
  (∀ s : State, s.mrings = [] →
    s.frameStart.tl.now = mkStamp (stFrame s.tl.now + 1) 0 0 ∧ s.frameStart.tl.frac = 0 ∧
    s.frameStart.tl.lines = (if s.rd F.tlRaster_lines = 0 then 1 else s.rd F.tlRaster_lines) ∧
    s.frameStart.tl.num = (if s.rd F.tlRateNum_num = 0 then 1 else s.rd F.tlRateNum_num) ∧
    s.frameStart.tl.den = (if s.rd F.tlRateDen_den = 0 then 1 else s.rd F.tlRateDen_den) ∧
    s.frameStart.tl.ptmOrigin = s.rd2 F.tlPtmOriginLo_origin F.tlPtmOriginHi_origin ∧ s.frameStart.tl.ptmFrame = s.rd F.tlPtmFrame_frame ∧
    s.frameStart.rd F.tlStatus_swFrameValid = 0 ∧
    s.frameStart = { s with tl := s.frameStart.tl, regs := s.frameStart.regs, out := s.frameStart.out }) ∧
  (∀ s : State, s.tl.nextLine < s.tl.lines → exec .frameBoundary s = .next s.settle) ∧
  ∀ s : State, s.mrings = [] → s.ck.window + 1 < 2000 → s.tl.lines ≤ s.tl.nextLine →
    s.tl.nextLine < s.tl.lines + (if s.rd F.tlRaster_lines = 0 then 1 else s.rd F.tlRaster_lines) →
    exec .frameBoundary s = .next s.tick.settle ∧
    s.tick.tl.now = mkStamp (stFrame s.tl.now + 1) (s.tl.nextLine - s.tl.lines) (stSub s.tl.now + s.tl.advance.2 / 2 ^ 32) ∧
    s.tick.tl.lines = (if s.rd F.tlRaster_lines = 0 then 1 else s.rd F.tlRaster_lines) ∧
    s.tick.tl.num = (if s.rd F.tlRateNum_num = 0 then 1 else s.rd F.tlRateNum_num) ∧
    s.tick.tl.den = (if s.rd F.tlRateDen_den = 0 then 1 else s.rd F.tlRateDen_den) ∧
    s.tick.tl.ptmOrigin = s.rd2 F.tlPtmOriginLo_origin F.tlPtmOriginHi_origin ∧ s.tick.tl.ptmFrame = s.rd F.tlPtmFrame_frame ∧
    s.tick = { s with tl := s.tick.tl, regs := s.tick.regs, out := s.tick.out, ck := s.tick.ck, fresh := s.tick.fresh }

/-- R51, R52, R54, R59: a pulse on TL_SYNC_IN of the other polarity does nothing; with line pulses configured the width tells frame from line pulses, and the
row of line pulses does nothing where none are configured; a frame pulse off source 1 decides only whether the source is present, and on source 1 it is the
frame edge; a line pulse early in a line slews the counter, late in a line it ends the line; an edge that another module drives on FRAME_SYNC is a conflict
for a module that leads, and the frame edge on source 3, advanced by TL_MS.fs_delay_ns. A forward step lets the events take effect whose stamps it passes
(`State.stepped`).
Rests on the model's choices of log entries 108, 109, 112. -/
def Obligations.TimelinePulses : Prop :=
  (∀ (s : State) (w : Nat) (fall : Bool) (trim : Int), fall ≠ s.rdB F.tlSyncCfg_pol →
    exec (.tlSyncInFramePulse ⟨w, fall, trim⟩) s = .next s.settle) ∧
  (∀ s : State, s.rd F.tlSyncCfg_linePulses = 0 → exec .tlSyncInLinePulse s = .next s.settle) ∧
  (∀ (s : State) (w : Nat) (fall : Bool) (trim : Int), fall = s.rdB F.tlSyncCfg_pol → (s.rd F.tlSyncCfg_linePulses = 0 ∨ s.tl.longPulse w = true) →
    s.rd F.tlCtrl_src ≠ 1 → s.tl.sincePulse = none →
    exec (.tlSyncInFramePulse ⟨w, fall, trim⟩) s = .next (State.settle { s.wr F.tlStatus_pinPresent 0 with
      tl := { s.tl with sincePulse := some 0, goodPulses := 1 } })) ∧
  (∀ (s : State) (w : Nat) (fall : Bool) (trim : Int) (n : Nat), fall = s.rdB F.tlSyncCfg_pol →
    (s.rd F.tlSyncCfg_linePulses = 0 ∨ s.tl.longPulse w = true) → s.rd F.tlCtrl_src ≠ 1 → s.tl.sincePulse = some n →
    ((n : Int) - (s.tl.lines * 65536 : Nat)).natAbs ≤ s.syncWindow * 65536 → 1 ≤ s.tl.goodPulses →
    exec (.tlSyncInFramePulse ⟨w, fall, trim⟩) s = .next (State.settle { s.wr F.tlStatus_pinPresent 1 with
      tl := { s.tl with sincePulse := some 0, goodPulses := s.tl.goodPulses + 1 } })) ∧
  (∀ (s : State) (w : Nat) (fall : Bool) (trim : Int) (n : Nat), fall = s.rdB F.tlSyncCfg_pol →
    (s.rd F.tlSyncCfg_linePulses = 0 ∨ s.tl.longPulse w = true) → s.rd F.tlCtrl_src = 1 → s.tl.sincePulse = some n →
    ((n : Int) - (s.tl.lines * 65536 : Nat)).natAbs ≤ s.syncWindow * 65536 → 1 ≤ s.tl.goodPulses →
    exec (.tlSyncInFramePulse ⟨w, fall, trim⟩) s = .next (State.settle (((State.reacquire { s.wr F.tlStatus_pinPresent 1 with
      tl := { s.tl with sincePulse := some 0, goodPulses := s.tl.goodPulses + 1 } }).frameEdge trim).stepped s.now))) ∧
  (∀ (s : State) (w : Nat) (fall : Bool) (trim : Int), fall = s.rdB F.tlSyncCfg_pol → s.rd F.tlSyncCfg_linePulses = 1 → s.tl.longPulse w = false →
    exec (.tlSyncInFramePulse ⟨w, fall, trim⟩) s = exec .tlSyncInLinePulse s) ∧
  (∀ s : State, s.rd F.tlSyncCfg_linePulses = 1 →
    s.rd F.tlCtrl_src = 1 → stSub s.tl.now ≤ 8192 →
    exec .tlSyncInLinePulse s = .next (State.settle { s.wr F.tlStatus_phaseErr (phaseErr (-(stSub s.tl.now : Int))) with
      tl := { s.tl with slew := -((stSub s.tl.now * 2 ^ 32 : Nat) : Int) } })) ∧
  (∀ s : State, s.rd F.tlSyncCfg_linePulses = 1 →
    s.rd F.tlCtrl_src = 1 → 57344 ≤ stSub s.tl.now → stLine s.tl.now + 1 < s.tl.lines →
    exec .tlSyncInLinePulse s = .next (State.settle (State.stepped
      { (s.wr F.tlStatus_phaseErr (phaseErr (65536 - stSub s.tl.now : Nat))).wr F.tlStatus_stepped 1 with
        tl := { s.tl with now := mkStamp (stFrame s.tl.now) (stLine s.tl.now + 1) 0, frac := 0 } } s.now))) ∧
  (∀ s : State, s.rd F.tlSyncCfg_linePulses = 1 →
    s.rd F.tlCtrl_src ≠ 1 → exec .tlSyncInLinePulse s = .next s.settle) ∧
  (∀ (s : State) (trim : Int), (s.rd F.tlMs_master = 1 ∨ s.tl.drivesFs = true) →
    exec (.frameSyncEdge trim) s = .next (State.settle (State.log { s.wr F.tlStatus_fsPresent 1 with
      tl := { s.tl with fsSilent := 0 } } 0x108 .clocks))) ∧
  (∀ (s : State) (trim : Int), s.rd F.tlMs_master = 0 → s.tl.drivesFs = false → s.rd F.tlCtrl_src = 3 →
    exec (.frameSyncEdge trim) s = .next (State.settle (((State.reacquire { s.wr F.tlStatus_fsPresent 1 with
      tl := { s.tl with fsSilent := 0 } }).frameEdge trim
        (s.rd F.tlMs_fsDelayNs * s.tl.num * s.tl.lines * 65536 / (s.tl.den * 1000000000))).stepped s.now))) ∧
  ∀ (s : State) (trim : Int), s.rd F.tlMs_master = 0 → s.tl.drivesFs = false → s.rd F.tlCtrl_src ≠ 3 →
    exec (.frameSyncEdge trim) s = .next (State.settle { s.wr F.tlStatus_fsPresent 1 with tl := { s.tl with fsSilent := 0 } })

/-- R51, R52: what a frame edge of the current source does: the first edge of an acquisition steps the counter to the next frame start,
and lock follows the second edge inside the window after it (the model's reading, log entry 109); in lock an edge inside the window late in the
frame steps the counter there, one early in the frame slews it back; one outside the window is counted and logged.
Rests on the model's choices of log entries 109, 112. -/
def Obligations.FrameEdge : Prop :=
  (∀ (s : State) (trim : Int), s.rd F.tlStatus_lock = 1 → s.tl.acquired = false →
    s.frameEdge trim = { s.stepFrame.log 0x105 .clocks with
      tl := { (s.stepFrame.log 0x105 .clocks).tl with acquired := true, inWin := 0, framesSinceEdge := 0, slew := 0 } }) ∧
  (∀ (s : State) (trim : Int), s.rd F.tlStatus_lock = 1 → s.tl.acquired = true → stLine s.tl.now < s.syncWindow →
    stLine s.tl.now + s.syncWindow < s.tl.lines → (s.frameEdge trim).tl.inWin = s.tl.inWin + 1 ∧
    (s.frameEdge trim).rd F.tlStatus_lock = (if s.tl.inWin = 0 then 1 else 2)) ∧
  (∀ (s : State) (trim : Int), s.rd F.tlStatus_lock = 2 → stLine s.tl.now < s.syncWindow → stLine s.tl.now + s.syncWindow < s.tl.lines →
    (s.frameEdge trim).rd F.tlStatus_lock = 2 ∧ (s.frameEdge trim).tl.slew = -((s.tl.now % 2 ^ 32 * 2 ^ 32 : Nat) : Int) ∧
    (s.frameEdge trim).tl.now = s.tl.now ∧ (s.frameEdge trim).tl.trim.natAbs ≤ s.tl.increment / 1024 ∧
    (s.frameEdge trim).rd F.tlPulseCnt_inside = (s.rd F.tlPulseCnt_inside + 1) % 2 ^ 16) ∧
  (∀ (s : State) (trim : Int), s.rd F.tlStatus_lock = 2 → s.syncWindow ≤ stLine s.tl.now → stLine s.tl.now + s.syncWindow < s.tl.lines →
    s.frameEdge trim = (s.inc F.tlPulseCnt_outside 1).log 0x10A .clocks) ∧
  ∀ (s : State) (trim : Int), s.rd F.tlStatus_lock = 2 → s.tl.lines ≤ stLine s.tl.now + s.syncWindow → s.mrings = [] →
    (s.frameEdge trim).rd F.tlStatus_lock = 2 ∧ (s.frameEdge trim).tl.now = mkStamp (stFrame s.tl.now + 1) 0 0 ∧
    (s.frameEdge trim).tl.slew = 0

/-- R53, R55, R57, R60: holdover after loss_frames frames; the PTM mapping is held in its registers; without PTM a dialog only clears ptm_valid, and with the
link up one asks for a PTM message, which takes the link out of L1, and inside the window locks and slews; 100 ms without one clears ptm_valid; a follower takes the frame number of a Frame block of lower hop count.
Rests on the model's choices of log entries 8, 108, 112, 115. -/
def Obligations.HoldoverAndReferences : Prop :=
  (∀ s : State, s.rd F.tlCtrl_src ≠ 0 → (s.rd F.tlStatus_lock = 1 ∨ s.rd F.tlStatus_lock = 2) →
    atLeast1 (s.rd F.tlSyncCfg_lossFrames) ≤ s.tl.framesSinceEdge →
    exec .tlHoldoverEntry s = .next (State.settle (State.log { (s.wr F.tlStatus_lock 3).wr F.tlStatus_lost 1 with
      tl := { s.tl with acquired := false, slew := 0 } } 0x104 .clocks))) ∧
  (∀ (s : State) (v : Word), exec (.tlPtmMappingWrite 0 v) s = .next (State.settle (s.wr F.tlPtmOriginLo_origin v.toNat)) ∧
    exec (.tlPtmMappingWrite 1 v) s = .next (State.settle (s.wr F.tlPtmOriginHi_origin v.toNat)) ∧
    exec (.tlPtmMappingWrite 2 v) s = .next (State.settle (s.wr F.tlPtmFrame_frame v.toNat))) ∧
  (∀ (s : State) (ns : Nat) (trim : Int), s.rd (F.cfgPtmCtl_enable.cfg 0) = 0 →
    exec (.ptmDialog ns trim) s = .next (State.settle (s.wr F.tlStatus_ptmValid 0))) ∧
  (∀ (s : State) (ns : Nat) (trim : Int), s.rd (F.cfgPtmCtl_enable.cfg 0) = 1 → s.ep.linkUp = true → s.rd F.tlCtrl_src ≠ 2 →
    exec (.ptmDialog ns trim) s = .next (State.settle ((s.leaveL1.emit .ptmRequest).wr F.tlStatus_ptmValid 1))) ∧
  (∀ (s : State) (ns : Nat) (trim : Int), s.rd (F.cfgPtmCtl_enable.cfg 0) = 1 → s.ep.linkUp = true → s.rd F.tlCtrl_src = 2 → s.rd F.tlStatus_lock = 2 →
    (s.tl.ptmError (s.tl.ptmStamp ns)).natAbs ≤ s.syncWindow * 65536 →
    exec (.ptmDialog ns trim) s = .next (State.settle { ((((s.leaveL1.emit .ptmRequest).wr F.tlStatus_ptmValid 1).wr F.tlStatus_lock 2).wr F.tlStatus_phaseErr
        (phaseErr (s.tl.ptmError (s.tl.ptmStamp ns)))).inc F.tlPulseCnt_inside 1 with
      tl := { s.tl with slew := s.tl.ptmError (s.tl.ptmStamp ns) * 2 ^ 32, framesSinceEdge := 0,
                        trim := max (-((s.tl.increment / 1024 : Nat) : Int)) (min ((s.tl.increment / 1024 : Nat) : Int) trim) } })) ∧
  (∀ s : State, s.rd F.tlCtrl_src ≠ 2 → exec .ptmValidTimeout s = .next (State.settle (s.wr F.tlStatus_ptmValid 0))) ∧
  (∀ s : State, s.rd F.tlCtrl_src = 2 → s.rd F.tlStatus_lock ≠ 3 →
    exec .ptmValidTimeout s = .next (State.settle (State.log { ((s.wr F.tlStatus_ptmValid 0).wr F.tlStatus_lock 3).wr F.tlStatus_lost 1 with
      tl := { s.tl with acquired := false, slew := 0 } } 0x104 .clocks))) ∧
  ∀ (s : State) (port : Fin 3) (frame : Word), s.rd (F.swPortStat_state.at (0x80100 + 0x40 * port.val)) = 2 → s.rd F.tlMs_master = 0 →
    s.rd F.tlCtrl_src = 3 → s.tl.fsHop = none → seqLt (stFrame s.tl.now) frame.toNat = true →
    exec (.skidwayFrameBlock port 2 frame) s = .next (State.settle (State.stepped { (s.wr F.tlStatus_swFrameValid 1).wr F.tlStatus_stepped 1 with
      tl := { s.tl with fsHop := some 2, fsFrame := frame.toNat, now := mkStamp frame.toNat (stLine s.tl.now) (stSub s.tl.now) } } s.now)) ∧
    ∀ hop : Fin 4, hop.val < 2 → exec (.skidwayFrameBlock port hop frame) s = .next (State.settle (State.stepped (State.sendFrameBlocks
      { (s.wr F.tlStatus_swFrameValid 1).wr F.tlStatus_stepped 1 with
        tl := { s.tl with fsHop := some hop.val, fsFrame := frame.toNat, now := mkStamp frame.toNat (stLine s.tl.now) (stSub s.tl.now) } } (hop.val + 1) false) s.now))

/-- R47, R64, R65: the low word of an alarm stamp is held until the high word is written, which sets both; a single alarm that is due sets fired,
raises its vector and disarms, after the source switches, the epoch change and the lower alarms that are due with it.
Rests on the model's choices of log entry 108. -/
def Obligations.Alarms : Prop :=
  (∀ (s : State) (n : Fin 16) (v : Word), exec (.tlAlarmLoWrite n v) s = .next (State.settle
    { s with tl := { s.tl with alarmHeld := tput s.tl.alarmHeld n.val v.toNat } })) ∧
  (∀ (s : State) (n : Fin 16) (v : Word) (lo : Nat), tget s.tl.alarmHeld n.val = some lo →
    exec (.tlAlarmHiWrite n v) s = .next (State.settle ((s.wr (F.tlAlarmLo_stamp.at (16 * n.val)) lo).wr (F.tlAlarmHi_stamp.at (16 * n.val)) v.toNat))) ∧
  (∀ (s : State) (n : Fin 16), s.switchDue = false → s.epochDue = false → (∀ k, k < n.val → s.alarmDue k = false) → s.rd (F.tlAlarmCtrl_arm.at (16 * n.val)) = 1 →
    s.rd2 (F.tlAlarmLo_stamp.at (16 * n.val)) (F.tlAlarmHi_stamp.at (16 * n.val)) ≠ noStamp →
    stLt s.now (s.rd2 (F.tlAlarmLo_stamp.at (16 * n.val)) (F.tlAlarmHi_stamp.at (16 * n.val))) = false →
    s.rd (F.tlAlarmCtrl_wakeEn.at (16 * n.val)) = 0 → s.rd (F.tlAlarmCtrl_everyFrame.at (16 * n.val)) = 0 →
    exec (.tlAlarmFire n) s = .next (State.settle ((if s.rd (F.tlAlarmCtrl_irqEn.at (16 * n.val)) = 1 then
      (s.wr (F.tlAlarmCtrl_fired.at (16 * n.val)) 1).raiseVec 0 (s.rd (F.tlAlarmCtrl_vector.at (16 * n.val)))
      else s.wr (F.tlAlarmCtrl_fired.at (16 * n.val)) 1).wr (F.tlAlarmCtrl_arm.at (16 * n.val)) 0))) ∧
  (∀ (s : State) (n : Fin 16), (s.switchDue = true ∨ s.epochDue = true ∨ ∃ k, k < n.val ∧ s.alarmDue k = true) → exec (.tlAlarmFire n) s = .next s.settle) ∧
  ∀ (s : State) (n : Fin 16), (s.rd (F.tlAlarmCtrl_arm.at (16 * n.val)) = 0 ∨
    stLt s.now (s.rd2 (F.tlAlarmLo_stamp.at (16 * n.val)) (F.tlAlarmHi_stamp.at (16 * n.val))) = true) → exec (.tlAlarmFire n) s = .next s.settle

/-- R68 to R75: a clock switch is armed where every newly selected source is permitted and ready, and refused otherwise; at the stamp it takes
effect, and ends a pause, or is refused where a source is no longer ready; the loss of a source that no domain uses is corrected; after the loss of the ring any
other loss stops the module, and cancels a pending switch where a domain used the source; a source that is good again becomes ready; CLKOUT shows too_fast above
100 MHz, and a running output keeps its settings until its next rising edge.
Rests on the model's choices of log entries 7, 108, 112. -/
def Obligations.ClockSources : Prop :=
  (∀ (s : State) (v : Word), v.toNat.testBit 0 = true → s.ckOk (s.reg F.ckSrcNext_arith.off).toNat = true →
    exec (.ckSwitchArm v) s = .next (State.settle { s.wr F.ckSwitchCtrl_pending 1 with
      ck := { s.ck with pendSel := (s.reg F.ckSrcNext_arith.off).toNat, pendAt := s.rd2 F.ckSwitchAtLo_stamp F.ckSwitchAtHi_stamp } })) ∧
  (∀ (s : State) (v : Word), v.toNat.testBit 0 = true → s.ckOk (s.reg F.ckSrcNext_arith.off).toNat = false →
    exec (.ckSwitchArm v) s = .next (State.settle ((s.wr F.ckSrcStat_refused 1).log 0x102 .clocks))) ∧
  (∀ s : State, s.rd F.ckSwitchCtrl_pending = 1 → stLt s.now s.ck.pendAt = false → s.ckOk s.ck.pendSel = false →
    exec .ckSwitchAtStamp s = .next (State.settle (((s.wr F.ckSwitchCtrl_pending 0).wr F.ckSrcStat_refused 1).log 0x102 .clocks))) ∧
  (∀ s : State, s.rd F.ckSwitchCtrl_pending = 1 → stLt s.now s.ck.pendAt = false → s.ckOk s.ck.pendSel = true →
    s.rd F.ckSrcStat_paused = 0 → s.rd F.ckSrcStat_fallback = 0 →
    exec .ckSwitchAtStamp s = .next (State.settle ((s.wr F.ckSwitchCtrl_pending 0).setReg F.ckSrcSel_arith.off (BitVec.ofNat 32 (s.ck.pendSel % 2 ^ 10))))) ∧
  (∀ s : State, s.rd F.ckSwitchCtrl_pending = 1 → stLt s.now s.ck.pendAt = false → s.ckOk s.ck.pendSel = true →
    (s.rd F.ckSrcStat_paused = 1 ∨ s.rd F.ckSrcStat_fallback = 1) →
    ∃ u : State, exec .ckSwitchAtStamp s = .next u.settle ∧ (u.reg F.ckSrcSel_arith.off).toNat = s.ck.pendSel % 2 ^ 10 ∧
      u.rd F.ckSwitchCtrl_pending = 0 ∧ u.rd F.ckSrcStat_paused = 0 ∧ u.rd F.ckSrcStat_fallback = 0 ∧ u.dram = { s.dram with srAll := false } ∧
      (∀ c : Fin 16, u.rd (F.drChStat_sr.at (0x50000 + 0x1000 * c.val)) = 0) ∧ u = { s with regs := u.regs, dram := u.dram }) ∧
  (∀ (s : State) (src : Fin 4), src.val ≠ 3 → s.ck.ringDown = true → s.ckOn src.val ≠ [] →
    exec (.clockLoss src) s = .next (State.settle (State.ckCancel (State.deviceStop (((s.wr F.ckSrcStat_present (s.rd F.ckSrcStat_present &&& (15 - 2 ^ src.val))).wr
      F.ckSrcStat_ready (s.rd F.ckSrcStat_ready &&& (15 - 2 ^ src.val))).wr F.ckSrcStat_lost (s.rd F.ckSrcStat_lost ||| 2 ^ src.val))
      0x101 .clocks src.val)))) ∧
  (∀ (s : State) (src : Fin 4), src.val ≠ 3 → s.ck.ringDown = true → s.ckOn src.val = [] →
    exec (.clockLoss src) s = .next (State.settle (State.deviceStop (((s.wr F.ckSrcStat_present (s.rd F.ckSrcStat_present &&& (15 - 2 ^ src.val))).wr
      F.ckSrcStat_ready (s.rd F.ckSrcStat_ready &&& (15 - 2 ^ src.val))).wr F.ckSrcStat_lost (s.rd F.ckSrcStat_lost ||| 2 ^ src.val))
      0x101 .clocks src.val))) ∧
  (∀ (s : State) (src : Fin 4), src.val ≠ 3 → s.ckOn src.val = [] → s.ck.ringDown = false →
    exec (.clockLoss src) s = .next (State.settle (State.logFault (((s.wr F.ckSrcStat_present (s.rd F.ckSrcStat_present &&& (15 - 2 ^ src.val))).wr
      F.ckSrcStat_ready (s.rd F.ckSrcStat_ready &&& (15 - 2 ^ src.val))).wr F.ckSrcStat_lost (s.rd F.ckSrcStat_lost ||| 2 ^ src.val))
      { mkFault 0x101 .clocks src.val with cls := .corrected }))) ∧
  (∀ s : State, s.ckOn 3 = [] →
    exec .fallbackClockLost s = .next (State.settle (State.log (State.wr { (s.wr F.ckSrcStat_present (s.rd F.ckSrcStat_present &&& 7)).wr
      F.ckSrcStat_ready (s.rd F.ckSrcStat_ready &&& 7) with ck := { s.ck with ringDown := true } }
      F.ckSrcStat_lost (s.rd F.ckSrcStat_lost ||| 8)) 0x103 .clocks 3)) ∧ exec (.clockLoss 3) s = exec .fallbackClockLost s) ∧
  (∀ (s : State) (src : Fin 4), ∃ u : State, exec (.clockSourceReady src) s = .next u.settle ∧
    (u.rd F.ckSrcStat_present).testBit src.val = true ∧ (u.rd F.ckSrcStat_ready).testBit src.val = true ∧
    u = { s with regs := u.regs, ck := { s.ck with ringDown := if src.val = 3 then false else s.ck.ringDown } } ∧
    ∀ o, o ≠ F.ckSrcStat_ready.off → u.reg o = s.reg o) ∧
  ∀ (s : State) (v : Word), ∃ u : State, exec (.ckClkoutWrite v) s = .next u.settle ∧
    u.rd F.ckClkout_sel = bits v.toNat 0 4 ∧ u.rd F.ckClkout_en = bits v.toNat 4 1 ∧ u.rd F.ckClkout_div = bits v.toNat 16 16 ∧
    (u.rd F.ckClkout_tooFast = 1 ↔ v.toNat.testBit 4 = true ∧ ∃ k, clkoutKhz (bits v.toNat 0 4) = some k ∧ 100000 * (bits v.toNat 16 16 + 1) < k) ∧
    u = { s with regs := u.regs, ck := if s.clkoutRuns then s.ck else { s.ck with outSel := bits v.toNat 0 4, outDiv := bits v.toNat 16 16, outPhase := 0 } } ∧
    ∀ o, o ≠ F.ckClkout_sel.off → u.reg o = s.reg o

/-- R70, R388: on the loss of a source that a domain uses, with the ring oscillator running, every domain on it moves to the ring, compute
pauses, DRAM enters self-refresh, and the pending switch ends.
Rests on the model's choices of log entry 108. -/
def Obligations.ClockFallback : Prop :=
  ∀ (s : State) (src : Fin 3), s.ckOn src.val ≠ [] → s.ck.ringDown = false → s.cmds = [] → s.mrings = [] →
    ∃ u : State, exec (.clockLoss (src.castSucc)) s = .next u.settle ∧
      (∀ d : Fin 5, ckField u.ckSel d.val = if ckField s.ckSel d.val = src.val then 3 else ckField s.ckSel d.val) ∧
      u.rd F.ckSrcStat_paused = 1 ∧ u.rd F.ckSrcStat_fallback = 1 ∧ (u.rd F.ckSrcStat_lost).testBit src.val = true ∧
      u.dram.srAll = true ∧ (∀ c : Fin 16, u.rd (F.drChStat_sr.at (0x50000 + 0x1000 * c.val)) = 3) ∧ u.rd F.ckSwitchCtrl_pending = 0

/-! ### Queues (15) -/

/-- R451 to R455, R467 to R469: the queue manager fetches the descriptor at the head of an SQ in module DRAM into the lowest free slot where
nothing holds it back, and the checks of R467 pass: the head and its pointer block advance, one CQ entry is reserved, and the command waits.
Rests on the model's choices of log entries 11, 14, 15, 17, 105, 108. -/
def Obligations.DescriptorFetch : Prop :=
  (∀ (s : State) (n : Fin 16400) (q : Sq) (k : Cq) (slot : Nat) (raw : List Byte),
    tget s.sqs n.val = some q → tget s.cqs q.cq = some k → n.val < 16384 → q.stopped = false → q.fetching = false → q.deleting = none →
    q.head ≠ q.tail → s.partInFlight q.part + s.fetches (·.part == q.part) < s.rd (F.ptQuota_inflight.at (ptBase q.part)) → 0 < k.free → s.freeCmdSlot = some slot →
    s.cmds.length + s.fetches (fun _ => true) < 4096 → s.fnD0 q.part = true → (s.rd F.ftStat_pfail).testBit q.part = false → s.rd F.ftStat_deviceFailed = 0 → q.place.baseHost = false →
    s.dramRead q.part (q.place.base + (q.head % 2 ^ q.log2) * 128) 128 = .ok raw →
    exec (.sqFetch n) s = .next (State.settle (State.acceptDesc { s with cqs := tput s.cqs q.cq { k with reserved := k.reserved + 1 } } n.val raw))) ∧
  (∀ (s : State) (n : Nat) (q : Sq) (slot : Nat) (raw : List Byte), n < 16384 → tget s.sqs n = some q → s.freeCmdSlot = some slot → q.bad = [] →
    q.place.ptrHost = true → (Desc.ofBytes raw).part = q.part → s.fetchCheck false q raw = 0 →
    s.acceptDesc n raw = State.queueWrite { s with
        sqs := tput s.sqs n { q with head := (q.head + 1) % 2 ^ 32, fetching := false, fetched := (q.fetched + 1) % 2 ^ 32, bad := [] },
        sched := { s.sched with nextOrder := s.sched.nextOrder + 1 },
        cmds := tput s.cmds slot (Cmd.ofDesc (Desc.ofBytes raw) n q.head (s.sched.nextOrder + 1)) }
      q.part q.place.ptr true (ptrBytes ((q.head + 1) % 2 ^ 32))) ∧
  (∀ (s : State) (n : Fin 16400), (tget s.sqs n.val = none ∨ ∃ q, tget s.sqs n.val = some q ∧ (q.stopped = true ∨ q.head = q.tail ∨ q.deleting.isSome = true)) →
    exec (.sqFetch n) s = .next s.settle)

/-- R425, R426, R441, R454 to R456: a doorbell of a function that cannot be reached does nothing; a doorbell of the owning function takes the new tail or consumer index where it lies in the range that the rules allow; outside it
the SQ stops, or the consumer write is ignored and logged and the object keeps its index.
R425: a doorbell for a queue object that the function does not own changes no queue object: it is counted, recorded in GL_HOST_LAST and
logged. -/
def Obligations.Doorbells : Prop :=
  (∀ (s : State) (fn : Fin 16) (v : Word), s.barOpen fn.val = false → (∀ n : Fin 16384, exec (.sqDoorbell fn n v) s = .next s.settle) ∧
    (∀ n : Fin 4096, exec (.cqDoorbell fn n v) s = .next s.settle) ∧ ∀ n : Fin 1024, exec (.ringDoorbell fn n v) s = .next s.settle) ∧
  ((∀ (s : State) (fn : Fin 16) (n : Fin 16384) (v : Word) (q : Sq), s.barOpen fn.val = true → tget s.sqs n.val = some q → q.part = fn.val → q.templated = false →
    q.stopped = false → (v.toNat + 2 ^ 32 - q.head) % 2 ^ 32 ≤ 2 ^ q.log2 →
    (q.tail + 2 ^ 32 - q.head) % 2 ^ 32 ≤ (v.toNat + 2 ^ 32 - q.head) % 2 ^ 32 →
    exec (.sqDoorbell fn n v) s = .next (State.settle { s with sqs := tput s.sqs n.val { q with tail := v.toNat } })) ∧
  (∀ (s : State) (fn : Fin 16) (n : Fin 4096) (v : Word) (k : Cq), s.barOpen fn.val = true → tget s.cqs n.val = some k → k.part = fn.val →
    (v.toNat + 2 ^ 32 - k.cons) % 2 ^ 32 ≤ (k.prod + 2 ^ 32 - k.cons) % 2 ^ 32 →
    exec (.cqDoorbell fn n v) s = .next (State.settle { s with cqs := tput s.cqs n.val { k with cons := v.toNat } })) ∧
  (∀ (s : State) (fn : Fin 16) (n : Fin 1024) (v : Word) (r : Ring), s.barOpen fn.val = true → tget s.mrings n.val = some r → r.part = fn.val →
    (v.toNat + 2 ^ 32 - r.cons) % 2 ^ 32 ≤ (r.prod + 2 ^ 32 - r.cons) % 2 ^ 32 →
    exec (.ringDoorbell fn n v) s = .next (State.settle { s with mrings := tput s.mrings n.val { r with cons := v.toNat } })) ∧
  (∀ (s : State) (fn : Fin 16) (n : Fin 4096) (v : Word) (k : Cq), s.barOpen fn.val = true → tget s.cqs n.val = some k → k.part = fn.val →
    (k.prod + 2 ^ 32 - k.cons) % 2 ^ 32 < (v.toNat + 2 ^ 32 - k.cons) % 2 ^ 32 →
    exec (.cqDoorbell fn n v) s = .next (State.settle (((((s.logPart 0x328 k.part .scheduler 0 n.val).wr (F.scQErr_code.fn k.part) 0x328).wr
      (F.scQErr_number.fn k.part) n.val).wr (F.scQErr_valid.fn k.part) 1)))) ∧
  ∀ (s : State) (p : Fin 16) (v : Word) (q : Sq) (k : Cq), tget s.sqs (16384 + p.val) = some q → tget s.cqs (4096 + p.val) = some k →
    s.rd (F.ctlCfg_en.at (ctlBase p.val)) = 1 →
    (q.stopped = false → (v.toNat + 2 ^ 32 - q.head) % 2 ^ 32 ≤ 2 ^ q.log2 →
      (q.tail + 2 ^ 32 - q.head) % 2 ^ 32 ≤ (v.toNat + 2 ^ 32 - q.head) % 2 ^ 32 →
      exec (.scCtlSqTailWrite p v) s = .next (State.settle { s with sqs := tput s.sqs (16384 + p.val) { q with tail := v.toNat } })) ∧
    ((v.toNat + 2 ^ 32 - k.cons) % 2 ^ 32 ≤ (k.prod + 2 ^ 32 - k.cons) % 2 ^ 32 →
      exec (.scCtlCqHeadWrite p v) s = .next (State.settle { s with cqs := tput s.cqs (4096 + p.val) { k with cons := v.toNat } }))) ∧
  (∀ (s : State) (fn : Fin 16) (n : Fin 1024) (v : Word) (r : Ring), s.barOpen fn.val = true → tget s.mrings n.val = some r → r.part = fn.val →
    (r.prod + 2 ^ 32 - r.cons) % 2 ^ 32 < (v.toNat + 2 ^ 32 - r.cons) % 2 ^ 32 →
    exec (.ringDoorbell fn n v) s = .next (State.settle (((((s.logPart 0x328 fn.val .scheduler 0 n.val).wr (F.scQErr_code.fn fn.val) 0x328).wr
      (F.scQErr_number.fn fn.val) n.val).wr (F.scQErr_valid.fn fn.val) 1))) ∧
    ∀ r' : Ring, tget (s.logPart 0x328 fn.val .scheduler 0 n.val).mrings n.val = some r' → r'.cons = r.cons) ∧
  (∀ (s : State) (p : Fin 16) (v : Word) (k : Cq), tget s.cqs (4096 + p.val) = some k → s.rd (F.ctlCfg_en.at (ctlBase p.val)) = 1 →
    (k.prod + 2 ^ 32 - k.cons) % 2 ^ 32 < (v.toNat + 2 ^ 32 - k.cons) % 2 ^ 32 →
    exec (.scCtlCqHeadWrite p v) s = .next (State.settle (s.consumerInvalid k.part (4096 + p.val))) ∧
      (s.consumerInvalid k.part (4096 + p.val)).cqs = s.cqs) ∧
  (∀ (s : State) (fn : Fin 16) (n : Fin 16384) (v : Word) (q : Sq), s.barOpen fn.val = true → tget s.sqs n.val = some q → q.part = fn.val → q.templated = false →
    (q.stopped = true → exec (.sqDoorbell fn n v) s = .next s.settle) ∧
    (q.stopped = false → (2 ^ q.log2 < (v.toNat + 2 ^ 32 - q.head) % 2 ^ 32 ∨
        (v.toNat + 2 ^ 32 - q.head) % 2 ^ 32 < (q.tail + 2 ^ 32 - q.head) % 2 ^ 32) →
      exec (.sqDoorbell fn n v) s = .next (State.settle (State.qErr (State.logPart { s with sqs := tput s.sqs n.val { q with stopped := true } }
        0x322 q.part .scheduler 0 n.val) q.part 0x322 n.val)))) ∧
  (∀ (s : State) (fn : Fin 16) (n : Fin 16384) (v : Word), s.barOpen fn.val = true → (∀ q, tget s.sqs n.val = some q → q.part ≠ fn.val ∨ q.templated = true) →
    exec (.sqDoorbell fn n v) s = .next (State.settle (s.doorbellIgnored fn.val n.val))) ∧
  (∀ (s : State) (fn : Fin 16) (n : Fin 4096) (v : Word), s.barOpen fn.val = true → (∀ k, tget s.cqs n.val = some k → k.part ≠ fn.val) →
    exec (.cqDoorbell fn n v) s = .next (State.settle (s.doorbellIgnored fn.val n.val))) ∧
  (∀ (s : State) (fn : Fin 16) (n : Fin 1024) (v : Word), s.barOpen fn.val = true → (∀ r, tget s.mrings n.val = some r → r.part ≠ fn.val) →
    exec (.ringDoorbell fn n v) s = .next (State.settle (s.doorbellIgnored fn.val n.val))) ∧
  ∀ (s : State) (fn : Fin 16) (n : Nat), (s.doorbellIgnored fn.val n).sqs = s.sqs ∧ (s.doorbellIgnored fn.val n).cqs = s.cqs ∧
    (s.mrings = [] → (s.doorbellIgnored fn.val n).rd (F.glDbRej_count.fn fn.val) = (s.rd (F.glDbRej_count.fn fn.val) + 1) % 2 ^ F.glDbRej_count.w ∧
      (s.doorbellIgnored fn.val n).rd (F.glHostLast_code.fn fn.val) = 0xD0B)

/-- R458, R481, R482: enabling a control queue pair with legal settings makes both queues with all indices 0; while it is enabled vector and irq_en still
reach the control CQ; clearing the enable stops the control SQ; SC_QSEL takes a snapshot of the object it names, which reads 0 for an object of another function.
Rests on the model's choices of log entries 7, 108, 122. -/
def Obligations.ControlQueueRegisters : Prop :=
  (∀ (s : State) (p : Fin 16) (v : Word), v.toNat.testBit 20 = false → s.rd (F.ctlCfg_en.at (ctlBase p.val)) = 1 →
    exec (.scCtlEnable p v) s = .next (State.settle { (((s.wr (F.ctlCfg_vector.at (ctlBase p.val))
        (if bits v.toNat 8 11 < fnVectors p.val then bits v.toNat 8 11 else s.rd (F.ctlCfg_vector.at (ctlBase p.val)))).wr
        (F.ctlCfg_irqEn.at (ctlBase p.val)) (bits v.toNat 19 1)).wr (F.ctlCfg_en.at (ctlBase p.val)) 0).wr (F.ctlCfg_stopped.at (ctlBase p.val)) 0 with
      cqs := tmod s.cqs (4096 + p.val) fun k => { k with
        vector := if bits v.toNat 8 11 < fnVectors p.val then bits v.toNat 8 11 else s.rd (F.ctlCfg_vector.at (ctlBase p.val)), irqEn := v.toNat.testBit 19 }
      sqs := tmod s.sqs (16384 + p.val) fun q => { q with stopped := true } })) ∧
  (∀ (s : State) (p : Fin 16) (v : Word), v.toNat.testBit 20 = true → s.rd (F.ctlCfg_en.at (ctlBase p.val)) = 1 →
    exec (.scCtlEnable p v) s = .next (State.settle { (s.wr (F.ctlCfg_vector.at (ctlBase p.val))
        (if bits v.toNat 8 11 < fnVectors p.val then bits v.toNat 8 11 else s.rd (F.ctlCfg_vector.at (ctlBase p.val)))).wr
        (F.ctlCfg_irqEn.at (ctlBase p.val)) (bits v.toNat 19 1) with
      cqs := tmod s.cqs (4096 + p.val) fun k => { k with
        vector := if bits v.toNat 8 11 < fnVectors p.val then bits v.toNat 8 11 else s.rd (F.ctlCfg_vector.at (ctlBase p.val)), irqEn := v.toNat.testBit 19 } })) ∧
  (∀ (s : State) (p : Fin 16) (v : Word), v.toNat.testBit 20 = true → s.rd (F.ctlCfg_en.at (ctlBase p.val)) = 0 →
    1 ≤ bits v.toNat 0 4 → bits v.toNat 0 4 ≤ 8 → 1 ≤ bits v.toNat 4 4 → bits v.toNat 4 4 ≤ 8 →
    s.rd (F.ctlSqBaseHi_space.at (ctlBase p.val)) = 3 → s.rd (F.ctlCqBaseHi_space.at (ctlBase p.val)) = 3 →
    s.rd (F.ctlPtrHi_space.at (ctlBase p.val)) = 3 → s.rd (F.ptCtrl_enabled.at (ptBase p.val)) = 1 → bits v.toNat 8 11 < fnVectors p.val →
    ∃ (u : State) (q : Sq) (k : Cq), exec (.scCtlEnable p v) s = .next u.settle ∧ tget u.sqs (16384 + p.val) = some q ∧ tget u.cqs (4096 + p.val) = some k ∧
      q.head = 0 ∧ q.tail = 0 ∧ k.prod = 0 ∧ k.cons = 0 ∧ q.part = p.val ∧ k.part = p.val ∧ q.log2 = bits v.toNat 0 4 ∧ k.log2 = bits v.toNat 4 4 ∧
      q.stopped = false ∧ k.vector = bits v.toNat 8 11 ∧ k.irqEn = v.toNat.testBit 19 ∧ u.rd (F.ctlCfg_en.at (ctlBase p.val)) = 1 ∧
      u = { s with regs := u.regs, sqs := tput s.sqs (16384 + p.val) q, cqs := u.cqs } ∧ ∀ m, m ≠ 4096 + p.val → tget u.cqs m = tget s.cqs m) ∧
  ∀ (s : State) (fn : Fin 16) (v : Word), ∃ u : State, exec (.scQselWrite fn v) s = .next u.settle ∧ u = { s with regs := u.regs } ∧
    u.rd (F.scQsel_number.fn fn.val) = bits v.toNat 0 14 ∧ u.rd (F.scQsel_ready.fn fn.val) = 1 ∧
    (∀ q, bits v.toNat 14 2 = 0 → tget s.sqs (bits v.toNat 0 14) = some q → q.part = fn.val →
      (u.reg (F.scQinfo0_moduleIdx.fn fn.val).off).toNat = q.head % 2 ^ 32 ∧ (u.reg (F.scQinfo1_driverIdx.fn fn.val).off).toNat = q.tail % 2 ^ 32) ∧
    (∀ q, bits v.toNat 14 2 = 0 → tget s.sqs (bits v.toNat 0 14) = some q → q.part ≠ fn.val →
      (u.reg (F.scQinfo0_moduleIdx.fn fn.val).off).toNat = 0 ∧ (u.reg (F.scQinfo1_driverIdx.fn fn.val).off).toNat = 0)

/-! ### Scheduling, pre-emption and epochs (08) -/

/-- R45, R276, R468: a waiting command whose conditions hold becomes eligible, and takes the slack test; a deadline that passes before dispatch
ends the command under policy drop and changes nothing under policy run.
R197 to R200, R273, R292, R312, R465: a compute command that is next on its compartment is dispatched where its checks pass and its
resources are free: a command of no work is ready at once with code 0x060D, any other runs with the epoch, the seed and the registers bound to it, on the online boles of its compartment; a check that fails
refuses it with the code of the check.
Rests on the model's choices of log entries 19, 108. -/
def Obligations.EligibilityAndDispatch : Prop :=
  ((∀ (s : State) (slot : Fin 4096) (c : Cmd), tget s.cmds slot.val = some c → s.mayBeEligible c = true → s.switchDue = false →
    s.epochDue = false → (∀ n, n < 16 → s.alarmDue n = false) → s.eligibleBefore c = false →
    exec (.commandEligible slot) s = .next (State.settle ((s.setCmd slot.val { c with phase := .eligible }).slackTest slot.val))) ∧
  (∀ (s : State) (slot : Nat) (c : Cmd), tget s.cmds slot = some c → (c.desc.cls ≠ 1 ∨ s.clsOf c ≠ 0 ∨ c.desc.deadline = noStamp) → s.slackTest slot = s) ∧
  (∀ (s : State) (slot : Fin 4096) (c : Cmd), tget s.cmds slot.val = some c → c.desc.notBefore ≠ noStamp → stLt s.now c.desc.notBefore = true →
    exec (.commandEligible slot) s = .next s.settle) ∧
  (∀ (s : State) (slot : Fin 4096) (c : Cmd), tget s.cmds slot.val = some c → (c.phase = .waiting ∨ c.phase = .eligible) → c.attempts = 0 → c.desc.deadline ≠ noStamp →
    stLt s.now c.desc.deadline = false → s.dropsLate c = true →
    exec (.deadlinePass slot) s = .next (State.settle ((s.logCmd 0x303 slot.val).endCmd slot.val 3 0x303)) ∧
    (c.desc.cls = 1 → c.phase = .eligible → exec (.computeCommand slot) s = .next (State.settle ((s.logCmd 0x303 slot.val).endCmd slot.val 3 0x303)))) ∧
  ∀ (s : State) (slot : Fin 4096) (c : Cmd), tget s.cmds slot.val = some c → s.dropsLate c = false → exec (.deadlinePass slot) s = .next s.settle) ∧
  (∀ (s : State) (slot : Fin 4096) (c : Cmd), tget s.cmds slot.val = some c → c.desc.cls = 1 → c.phase = .eligible → s.lateDrop c = false → s.isNext slot.val c = true →
    s.computeReady = true → 1 < s.dispatchCheck c →
    exec (.computeCommand slot) s = .next (State.settle (s.refuseCmd slot.val (s.dispatchCheck c)))) ∧
  (∀ (s u : State) (slot : Fin 4096) (c : Cmd), tget s.cmds slot.val = some c → c.desc.cls = 1 → c.phase = .eligible → s.lateDrop c = false → s.isNext slot.val c = true →
    s.computeReady = true → s.compWait c = false → s.tryDispatch slot.val c = .go u →
    (s.dispatchCheck c = 1 → exec (.computeCommand slot) s = .next (State.settle { State.sayOnce ((u.takeDelta slot.val).modCmd slot.val fun d => { d with
        ready := true, extents := [] }) slot.val 0x60D .scheduler with
      sched := { (State.sayOnce ((u.takeDelta slot.val).modCmd slot.val fun d => { d with ready := true, extents := [] }) slot.val 0x60D .scheduler).sched with
        slices := (s.tookTurn slot.val c).sched.slices, lastSq := (s.tookTurn slot.val c).sched.lastSq } })) ∧
    (s.dispatchCheck c = 0 → exec (.computeCommand slot) s = .next (State.settle { (u.takeDelta slot.val).modCmd slot.val (fun d => { d with
        shares := (compBoles (compOf c.desc.target)).filter s.boleOnline,
        unstarted := if compOf c.desc.target < 64 then [compOf c.desc.target] else [],
        degraded := ((compBoles (compOf c.desc.target)).filter s.boleOnline).length < (compBoles (compOf c.desc.target)).length }) with
      sched := { u.sched with slices := (s.tookTurn slot.val c).sched.slices, lastSq := (s.tookTurn slot.val c).sched.lastSq } }))) ∧
  (∀ (s : State) (slot : Nat) (c : Cmd), tget s.cmds slot = some c →
    (∀ a ∈ c.desc.args, argKind a = 0 ∨ argKind a = 1) → c.desc.ctxValid = false → c.first = 0 → c.holds = [] →
    ∃ u : State, s.tryDispatch slot c = .go u ∧ u = { s with sched := u.sched, cmds := u.cmds } ∧
      (∃ d, tget u.cmds slot = some d ∧ d.phase = .running ∧ d.attempts = c.attempts + 1 ∧ d.epoch = s.rd F.scEpochCur_epoch ∧
        d.seed = (tgetD s.seeds (c.desc.part * 256 + c.desc.seedIdx) ⟨0, false⟩).value ∧ d.startAt = s.now ∧
        (∀ i, i < 8 → d.aregs.getD i 0 = if argKind (c.desc.arg i) = 1 then bits (c.desc.arg i) 0 50 else 0) ∧ d.desc = c.desc) ∧
      ∀ x, x ≠ slot → tget u.cmds x = tget s.cmds x) ∧
  ∀ (s : State) (slot : Fin 4096) (c : Cmd), tget s.cmds slot.val = some c → (c.desc.cls ≠ 1 ∨ c.phase = .waiting ∨ c.phase = .running) →
    exec (.computeCommand slot) s = .next s.settle

/-- R180, R285, R286, R288: the save of a command with no window open and no check pending writes the live banks to its save area and suspends the
command; the restore reads them back and lets it go on; a window that stays open for 2 µs kills the command instead.
R274, R280, R283: a slice that has lasted its time ends where another class has eligible work and begins again where none has; the driver's
pre-emption kills the commands of a partition that are not LIVE, and counts each; a kill keeps the command's slot, clears its share and lets it wait
for its re-run.
Rests on the model's choices of log entries 11, 13, 19, 20, 21, 106, 108, 111. -/
def Obligations.SlicesKillsGroupSaves : Prop :=
  ((∀ (s : State) (slot : Fin 4096) (p : Fin 68) (c : Cmd), tget s.cmds slot.val = some c → c.phase = .saving → s.pow.paused = false →
    s.windowOpen slot.val = false → (∀ n ∈ c.shares.filter s.boleOnline, (s.bole (s.physOf n)).tiles = []) →
    ∃ u : State, exec (.groupSaveComplete ⟨slot, p, .none⟩) s = .next u.settle ∧
      tget u.cmds slot.val = some { c with
        phase := .suspended, wasSuspended := true,
        saved := (c.shares.filter s.boleOnline).flatMap fun n =>
          (((s.stopIssue slot.val).bole (s.physOf n)).ctxs.filter fun x => x.2.slot == slot.val).map fun x => (n, x.1, x.2),
        savedAcc := (c.shares.filter s.boleOnline).flatMap fun n =>
          ((s.bole (s.physOf n)).accBanks.filter fun x => x.2.slot == slot.val).map fun x => (n, x.1, x.2) } ∧
      (∀ p b, tget u.boles p = some b → ∀ x ∈ b.ctxs, x.2.slot ≠ slot.val) ∧
      u = { s with regs := u.regs, dram := u.dram, boles := u.boles, cmds := u.cmds, acct := u.acct, sched := { s.sched with saved := u.sched.saved } }) ∧
  (∀ (s : State) (slot : Fin 4096) (c : Cmd), tget s.cmds slot.val = some c → c.phase = .suspended → c.saved = [] → c.savedAcc = [] →
    s.sched.preempting = [] → s.computeReady = true → s.isNext slot.val c = true →
    exec (.groupRestoreComplete slot) s = .next (State.settle ((s.chargeSave c 0).modCmd slot.val fun c => { c with phase := .running, saved := [], savedAcc := [] }))) ∧
  (∀ (s : State) (slot : Fin 4096) (c : Cmd) (n k : Nat) (x : IssueCtx), tget s.cmds slot.val = some c → c.phase = .suspended → c.saved = [(n, k, x)] →
    tget s.sched.saved n = none → c.savedAcc = [] → s.sched.preempting = [] → s.computeReady = true → s.isNext slot.val c = true →
    s.boleOnline n = true → tget (s.bole (s.physOf n)).ctxs k = none →
    exec (.groupRestoreComplete slot) s = .next (State.settle (State.modCmd (State.chargeSave (s.setBole (s.physOf n) { s.bole (s.physOf n) with
        ctxs := tput (s.bole (s.physOf n)).ctxs k { x with startAt := s.now, gatedAt := s.pow.gatedNs, stopped := false } }) c
        (s.bole (s.physOf n)).liveBytes) slot.val fun c => { c with phase := .running, saved := [], savedAcc := [] }))) ∧
  (∀ (s : State) (c : Cmd) (n k : Nat) (w : SavedBole) (data : List Byte), tget s.sched.saved n = some w → w.spad = [k] → w.acc = [] →
    s.gated (s.physOf n) k = false → s.dramRead c.desc.part (w.addr + 16384 * k) 16384 = .ok data → (s.bole (s.physOf n)).spadLive.contains k = false →
    s.restoreBole c n = .ok { s.setBole (s.physOf n) { s.bole (s.physOf n) with
        spad := mwrite 0 (s.bole (s.physOf n)).spad (16384 * k) data, spadLive := (s.bole (s.physOf n)).spadLive ++ [k], redAcc := w.red } with
      sched := { s.sched with saved := tdel s.sched.saved n } }) ∧
  ∀ (s : State) (slot : Fin 4096) (c : Cmd), tget s.cmds slot.val = some c →
    (c.phase = .saving → s.windowOpen slot.val = true →
      exec (.saveWindowWaitExpiry slot) s = .next (State.settle ((s.logCmd 0x306 slot.val).killCmd slot.val .preempt))) ∧
    ((c.phase ≠ .saving ∨ s.windowOpen slot.val = false) → exec (.saveWindowWaitExpiry slot) s = .next s.settle)) ∧
  ((∀ (s : State) (k : Fin 85) (p : Nat) (x : Slice), tget s.sched.slices k.val = some x → (List.range 16).find? (fun p => s.owns p k.val) = some p →
    x.expired = false → x.cls ≠ 0 → 1000 * s.rd (F.ptSlice_slice.at (ptBase p + 4 * (x.cls - 1))) ≤ s.nsSince x.since →
    ((∃ y ∈ [1, 2, 3], y ≠ x.cls ∧ s.classHas k.val y = true) →
      exec (.sliceExpiry k) s = .next (State.settle { s with sched := { s.sched with slices := tput s.sched.slices k.val { x with expired := true } } })) ∧
    ((∀ y ∈ [1, 2, 3], y ≠ x.cls → s.classHas k.val y = false) →
      exec (.sliceExpiry k) s = .next (State.settle { s with sched := { s.sched with slices := tput s.sched.slices k.val { x with since := s.now } } }))) ∧
  (∀ (s : State) (k : Fin 85) (p : Nat) (x : Slice), tget s.sched.slices k.val = some x → (List.range 16).find? (fun p => s.owns p k.val) = some p →
    s.nsSince x.since < 1000 * s.rd (F.ptSlice_slice.at (ptBase p + 4 * (x.cls - 1))) → exec (.sliceExpiry k) s = .next s.settle) ∧
  ∀ (s : State) (k : Fin 85), tget s.sched.slices k.val = none → exec (.sliceExpiry k) s = .next s.settle) ∧
  (∀ (s : State) (p : Fin 16), (∀ e ∈ s.cmds, e.2.inFlight = true → e.2.desc.cls = 1 → e.2.desc.part = p.val → s.clsOf e.2 = 0) →
    exec (.ptPreemptRequest p) s = .next s.settle) ∧
  (∀ (s t : State) (p : Fin 16) (slot : Nat) (c : Cmd), s.cmds = [(slot, c)] → c.inFlight = true → c.desc.cls = 1 → c.desc.part = p.val → s.clsOf c ≠ 0 →
    t = c.shares.foldl (fun t n => t.inc (F.acPreempt_preempted.at (blBase (t.physOf n))) 1) ((s.killCmd slot .preempt).inc F.scPreemptCnt_count 1) →
    exec (.ptPreemptRequest p) s = .next (State.settle { t with sched := { t.sched with preemptAt := tput t.sched.preemptAt p.val (t.now, 1540) } })) ∧
  (∀ (s : State) (slot : Nat) (c : Cmd), tget s.cmds slot = some c → c.inFlight = true → c.fresh = [] → c.reds = [] →
    ∃ d, tget (s.killCmd slot .preempt).cmds slot = some d ∧ d.phase = .killed ∧ d.kills = c.kills ∧ d.shares = [] ∧ d.extents = [] ∧ d.rerun = true ∧
      d.attempts = c.attempts ∧ d.holds = c.holds ∧ d.killedAt = noStamp ∧ d.seed = c.seed ∧ d.accepted = c.accepted ∧ d.desc = c.desc) ∧
  ∀ (s : State) (slot : Nat) (w : KillWhy) (c : Cmd), tget s.cmds slot = some c → c.inFlight = false → s.killCmd slot w = s

/-- R289 to R293: a shadow copy is written while no epoch is pending and is refused otherwise; arming freezes the staged set where its checks
pass; at the stamp the number rises and every unit begins to switch; a unit with no work of the old epoch switches, and one with such work waits.
Rests on the model's choices of log entries 7, 86, 108. -/
def Obligations.Epochs : Prop :=
  (∀ (s : State) (p : Fin 16) (i : Fin 8) (v : Word), s.rd F.scEpochCtrl_pending = 0 →
    exec (.epochShadowWrite p i v) s = .next (State.settle (s.regWrite (ptBase p.val + 0x80 + 4 * i.val) v.toNat))) ∧
  (∀ (s : State) (p : Fin 16) (i : Fin 8) (v : Word), s.rd F.scEpochCtrl_pending = 1 →
    exec (.epochShadowWrite p i v) s = .next (State.settle (((s.wr F.scEpochCtrl_refused 1).wr F.scEpochCtrl_cause 1).log 0x305 .scheduler))) ∧
  (∀ (s : State) (v : Word), v.toNat = 1 → s.epochCause = 0 →
    ∃ u : State, exec (.scEpochArm v) s = .next u.settle ∧ u.rd F.scEpochCtrl_pending = 1 ∧ u.sched.epochAt = s.rd2 F.scEpochAtLo_stamp F.scEpochAtHi_stamp ∧
      u = { s with regs := u.regs, sched := { s.sched with epochAt := u.sched.epochAt } } ∧ ∀ o, o ≠ F.scEpochCtrl_arm.off → u.reg o = s.reg o) ∧
  (∀ s : State, s.rd F.scEpochCtrl_pending = 1 → s.rd F.scStat_switching = 0 → stLt s.now s.sched.epochAt = false → s.switchDue = false →
    ∃ u : State, exec .epochSwitchStamp s = .next u.settle ∧ u.rd F.scEpochCur_epoch = (s.rd F.scEpochCur_epoch + 1) % 2 ^ 32 ∧ u.rd F.scStat_switching = 1 ∧
      u.sched.switching = List.range 95 ∧
      (∀ p : Fin 16, ∀ o ∈ [0x4, 0x8, 0xC, 0x10, 0x14, 0x18, 0x1C], u.reg (ptBase p.val + o) = s.reg (ptBase p.val + o + 0x80)) ∧
      u = { s with regs := u.regs, sched := { s.sched with
        switching := List.range 95, ownBefore := (List.range 16).map s.ownMask, groveMoves := u.sched.groveMoves, ownedAt := s.now, ownedNs := u.sched.ownedNs } }) ∧
  (∀ (s : State) (u : Fin 95), ¬ s.sched.switching.contains u.val → exec (.unitEpochSwitch u) s = .next s.settle) ∧
  (∀ (s : State) (u : Fin 95), s.sched.switching.contains u.val = true → 64 ≤ u.val → u.val < 70 → (s.engine (u.val - 64)).job = none →
    exec (.unitEpochSwitch u) s = .next (State.settle ((s.setEngine (u.val - 64) { s.engine (u.val - 64) with
      epoch := s.rd F.scEpochCur_epoch }).unitSwitched u.val))) ∧
  (∀ (s : State) (u : Fin 95), s.sched.switching.contains u.val = true → 70 ≤ u.val →
    (∀ e ∈ s.cmds, e.2.inFlight = true → (u.val < 74 → e.2.desc.cls = u.val - 66) → (74 ≤ u.val → e.2.desc.cls = 1 ∧ compOf e.2.desc.target = u.val - 10) →
      e.2.epoch = s.rd F.scEpochCur_epoch) → exec (.unitEpochSwitch u) s = .next (State.settle (s.unitSwitched u.val))) ∧
  (∀ (s : State) (u : Fin 95), s.sched.switching.contains u.val = true → 70 ≤ u.val → u.val < 74 →
    (∃ e ∈ s.cmds, e.2.inFlight = true ∧ e.2.epoch ≠ s.rd F.scEpochCur_epoch ∧ e.2.desc.cls = u.val - 66) →
    exec (.unitEpochSwitch u) s = .next s.settle) ∧
  (∀ (s : State) (u : Fin 95), s.sched.switching.contains u.val = true → u.val < 64 → (s.cmds.any fun e => e.2.on u.val && e.2.epoch != s.rd F.scEpochCur_epoch) = false →
    ∃ t : State, exec (.unitEpochSwitch u) s = .next t.settle ∧ t.rd (F.epoch_epoch.at (blBase (s.physOf u.val))) = s.rd F.scEpochCur_epoch ∧
      t.sched.switching = s.sched.switching.filter (· != u.val) ∧ t = { s with regs := t.regs, sched := { s.sched with
        switching := s.sched.switching.filter (· != u.val), handover := t.sched.handover } })

/-- R27, R172, R299, R300, R311, R318: a compartment that changes hands is scrubbed; the calibration factor lies between one half and two; a
queue's counters are read through a snapshot; the seed table is written by its high word and invalidated by bits.
Rests on the model's choices of log entries 86, 108. -/
def Obligations.HandOverAccountsSeeds : Prop :=
  (∀ (s : State) (n : Fin 64), (s.sched.handover.any fun h => h.1 == n.val) = true → s.sched.handed.contains n.val = false →
    (s.bole (s.physOf n.val)).scrubFor = 0 → s.preparing n.val = false → s.boleOff n.val = false → s.slotsOn (s.physOf n.val) = [] →
    exec (.compartmentHandOver n) s = .next (State.settle (State.setBole ((s.wr (F.status_state.at (blBase (s.physOf n.val))) 2).wr
      (F.scrub_busy.at (blBase (s.physOf n.val))) 1) (s.physOf n.val) { s.bole (s.physOf n.val) with scrubFor := 2 }))) ∧
  (∀ (s : State) (n : Fin 64), (s.sched.handover.any fun h => h.1 == n.val) = true → s.sched.handed.contains n.val = false →
    (s.bole (s.physOf n.val)).scrubFor = 0 → s.preparing n.val = false → s.boleOff n.val = true →
    exec (.compartmentHandOver n) s = .next (State.settle (s.handOverDone n.val))) ∧
  (∀ (s : State) (n : Fin 64), (s.sched.handover.any fun h => h.1 == n.val) = false → exec (.compartmentHandOver n) s = .next s.settle) ∧
  (∀ (s : State) (eIn eStatic eDyn : Nat), ∃ u : State, exec (.energyCalibration eIn eStatic eDyn) s = .next u.settle ∧ u.fresh = s.fresh + 1 ∧
    u.sched = { s.sched with sxNs := 0, ownedAt := s.now, ownedNs := [], pfailDue := u.sched.pfailDue } ∧
    (s.mrings = [] → 32768 ≤ u.rd F.acCalK_k ∧ u.rd F.acCalK_k ≤ 131072 ∧
      (eDyn ≠ 0 → u.rd F.acCalK_k = max 32768 (min 131072 ((eIn - eStatic) * 65536 / eDyn))) ∧
      u.rd2 F.acEinLo_eIn F.acEinHi_eIn = eIn % 2 ^ 64)) ∧
  (∀ (s : State) (fn : Fin 16) (v : Word) (q : Sq), tget s.sqs (bits v.toNat 0 14) = some q → (fn.val = 0 ∨ q.part = fn.val) →
    ∃ u : State, exec (.acQselWrite fn v) s = .next u.settle ∧ u = { s with regs := u.regs } ∧ u.rd (F.acQsel_ready.fn fn.val) = 1 ∧
      u.rd2 (F.acQdata_word.fn fn.val) ((F.acQdata_word.fn fn.val).at 4) = (tgetD s.acct (bits v.toNat 0 14) ⟨0, 0, 0, 0, 0, 0⟩).bole % 2 ^ 64) ∧
  (∀ (s : State) (fn : Fin 16) (v : Word) (q : Sq), tget s.sqs (bits v.toNat 0 14) = some q → fn.val ≠ 0 → q.part ≠ fn.val →
    ∃ u : State, exec (.acQselWrite fn v) s = .next u.settle ∧ u.rd2 (F.acQdata_word.fn fn.val) ((F.acQdata_word.fn fn.val).at 4) = 0) ∧
  (∀ (s : State) (p : Fin 16) (v : Word), exec (.ptSeedHiWrite p v) s = .next (State.settle { s with
    seeds := tput s.seeds (p.val * 256 + s.rd (F.ptSeedIdx_index.at (ptBase p.val)))
      ⟨s.rd (F.ptSeedLo_lo.at (ptBase p.val)) + v.toNat * 2 ^ 32, true⟩ })) ∧
  (∀ (s : State) (p : Fin 16) (w : Fin 8) (v : Word), ∃ u : State, exec (.ptSeedInvalidate p w v) s = .next u.settle ∧ u = { s with seeds := u.seeds } ∧
    (∀ (m : Fin 32) (e : Seed), v.toNat.testBit m.val = true → tget s.seeds (p.val * 256 + 32 * w.val + m.val) = some e →
      tget u.seeds (p.val * 256 + 32 * w.val + m.val) = some { e with valid := false }) ∧
    ∀ x, (∀ m : Fin 32, v.toNat.testBit m.val = true → x ≠ p.val * 256 + 32 * w.val + m.val) → tget u.seeds x = tget s.seeds x)

/-! ### Issue and scalar instructions (05, 06, 07) -/

/-- R203, R209: a row does nothing where no instruction of its kind is next to issue on the context; a word with a reserved bit set, or with an
opcode that is not listed, fails with 0x0601 on every row; an issue counts one instruction and makes its context the last to issue.
Rests on the model's choices of log entries 7, 108. -/
def Obligations.IssueRows : Prop :=
  (∀ (s : State) (p : Fin 68) (x : Fin 4) (e : UnitErr) (k : Nat), (∀ r ∈ scalarRows p x e, s.issuable p.val x.val r.2 = none → exec r.1 s = .next s.settle) ∧
    ∀ r ∈ unitRows p x e k, s.issuable p.val x.val r.2.1 = none → exec r.1 s = .next s.settle) ∧
  (∀ (s : State) (p : Fin 68) (x : Fin 4) (e : UnitErr) (k : Nat) (i : Iss),
    (∀ r ∈ scalarRows p x e, s.issuable p.val x.val r.2 = some i → wordOk i.w = false →
      exec r.1 s = .next (State.settle (s.failInstr p.val x.val i.c.pc i.c.slot (.data 0x601 0)))) ∧
    ∀ r ∈ unitRows p x e k, s.issuable p.val x.val r.2.1 = some i → wordOk i.w = false →
      exec r.1 s = .next (State.settle (s.failInstr p.val x.val i.c.pc i.c.slot (.data 0x601 0)))) ∧
  (∀ (s : State) (p : Fin 68) (x : Fin 4), (s.issued p.val x.val).bole p.val = { s.bole p.val with lastCtx := x.val } ∧
    (s.issued p.val x.val).rd2 (F.bkIssuedLo_count.at (blBase p.val)) (F.bkIssuedHi_count.at (blBase p.val)) =
      (s.rd2 (F.bkIssuedLo_count.at (blBase p.val)) (F.bkIssuedHi_count.at (blBase p.val)) + 1) % 2 ^ 64 ∧
    s.issued p.val x.val = { s with regs := (s.issued p.val x.val).regs, boles := (s.issued p.val x.val).boles } ∧
    (∀ q, q ≠ p.val → (s.issued p.val x.val).bole q = s.bole q) ∧
    ∀ o, o ≠ blBase p.val + 0x1028 → o ≠ blBase p.val + 0x102C → (s.issued p.val x.val).reg o = s.reg o) ∧
  ∀ (s : State) (p : Fin 68) (x : Fin 4) (sel : Nat → Bool) (i : Iss), s.issuable p.val x.val sel = some i →
    sel i.w = true ∧ i.p = p.val ∧ i.x = x.val ∧ (i.cmd.phase = .running ∨ (i.cmd.phase = .saving ∧ s.windowOpen i.c.slot = true)) ∧ i.cmd.fault = none ∧ s.pow.paused = false ∧
      (∀ f ∈ i.c.flight, ∀ t, f.tok = some t → (bits i.w 8 8).testBit t = false)

/-- R209 to R211: NOP passes on; LOOP enters its body with the iteration count or leaves for the instruction after its ENDL; ENDL repeats the
body with the loop's index and addresses advanced, or ends the loop with the addresses restored; SKIP passes on or goes to its target.
Rests on the model's choices of log entries 76, 108. -/
def Obligations.LoopsAndSkips : Prop :=
  (∀ (s : State) (p : Fin 68) (x : Fin 4) (i : Iss), issues s p x (fun w => opOf w == 0 || !opcodes.contains (opOf w)) i →
    exec (.nop (.bole p x)) s = .next (after s p x { i.c with pc := i.c.pc + 1, blocked := false })) ∧
  (∀ (s : State) (slot : Fin 4096) (k : Fin 21) (c : Cmd) (l : CutList) (w pc : Nat), s.ctlInstr slot.val (ctlKey k) = some (c, l, w, pc) → opOf w = 0 →
    wordOk w = true → exec (.nop (.ctl slot k)) s = .next (State.settle (s.setCmd slot.val { c with ctlPc := tput c.ctlPc (ctlKey k) (pc + 1) }))) ∧
  (∀ (s : State) (p : Fin 68) (x : Fin 4) (i : Iss) (n : Nat), issues s p x (isOp 0x01) i →
    ((bits i.w 20 3 = 0 ∧ n = bits i.w 32 32) ∨
      (bits i.w 20 3 = 1 ∧ bits i.w 48 16 ≠ 0 ∧ n = cdiv ((i.c.regs i.w).sr (bits i.w 32 3)) (bits i.w 48 16)) ∨
      (bits i.w 20 3 = 2 ∧ n = (i.c.regs i.w).ir (bits i.w 32 5))) →
    (n ≠ 0 → exec (.loop p x) s = .next (after s p x ((IssueCtx.setI { i.c with
      loops := ⟨i.c.pc, n, 0, i.c.areg.getD (bits i.w 76 4) 0, i.c.areg.getD (bits i.w 100 4) 0⟩ :: i.c.loops } (bits i.w 23 5) 0).next))) ∧
    (n = 0 → exec (.loop p x) s = .next (after s p x { i.c with pc := endlOf i.code.code i.c.pc + 1, blocked := false }))) ∧
  (∀ (s : State) (p : Fin 68) (x : Fin 4) (i : Iss), issues s p x (isOp 0x02) i → i.c.loops = [] → exec (.endl p x) s = .next (after s p x i.c.next)) ∧
  (∀ (s : State) (p : Fin 68) (x : Fin 4) (i : Iss) (e : LoopEnt) (rest : List LoopEnt) (w : Nat) (c1 c2 : IssueCtx), issues s p x (isOp 0x02) i →
    i.c.loops = e :: rest → w = i.code.code.getD e.start 0 →
    (e.iter + 1 < e.n →
      c1 = IssueCtx.setI { i.c with loops := { e with iter := e.iter + 1 } :: rest, pc := e.start + 1 } (bits w 23 5)
        ((i.c.regs w).ir (bits w 23 5) + bits w 64 12) →
      c2 = c1.setA (bits w 76 4) (addrAdd (c1.areg.getD (bits w 76 4) 0).toNat (64 * sgn 20 (bits w 80 20))) →
      exec (.endl p x) s = .next (after s p x { c2.setA (bits w 100 4) (addrAdd (c2.areg.getD (bits w 100 4) 0).toNat (64 * sgn 20 (bits w 104 20))) with
        blocked := false })) ∧
    (e.n ≤ e.iter + 1 → exec (.endl p x) s = .next (after s p x { i.c with
      loops := rest, pc := endlOf i.code.code e.start + 1, blocked := false,
      areg := setAt (setAt i.c.areg (bits w 76 4) e.pa1) (bits w 100 4) e.pa2 }))) ∧
  (∀ (s : State) (p : Fin 68) (x : Fin 4) (i : Iss) (t : Bool), issues s p x (fun w => opOf w == 0x40 && bits w 20 4 != 4) i →
    ((bits i.w 20 4 = 0 ∧ t = true) ∨
      (bits i.w 20 4 = 1 ∧ t = decide ((i.c.regs i.w).sr (bits i.w 37 3) ≤ (i.c.regs i.w).ir (bits i.w 27 5) * bits i.w 56 16)) ∨
      (bits i.w 20 4 = 2 ∧ t = decide ((i.c.regs i.w).ir (bits i.w 32 5) ≤ (i.c.regs i.w).ir (bits i.w 27 5))) ∨
      (bits i.w 20 4 = 3 ∧ t = decide ((i.c.regs i.w).ir (bits i.w 27 5) = 0))) →
    (bits i.w 25 2 = 0 → bits i.w 40 16 ≠ 0 → exec (.skip p x) s = .next (after s p x { i.c with
      pc := if t = i.w.testBit 24 then i.c.pc + 1 else i.c.pc + 1 + bits i.w 40 16, blocked := false })) ∧
    (∀ e rest, bits i.w 25 2 = 1 → i.c.loops = e :: rest → exec (.skip p x) s = .next (after s p x { i.c with
      pc := if t = i.w.testBit 24 then i.c.pc + 1 else endlOf i.code.code e.start, blocked := false })) ∧
    (bits i.w 25 2 = 2 → exec (.skip p x) s = .next (after s p x { (if t = i.w.testBit 24 then i.c.next else i.c.leave i.code.code) with blocked := false }))) ∧
  ∀ (s : State) (p : Fin 68) (x : Fin 4) (i : Iss), issues s p x (fun w => opOf w == 0x40 && bits w 20 4 != 4) i → 4 < bits i.w 20 4 →
    exec (.skip p x) s = .next (State.settle (s.failInstr p.val x.val i.c.pc i.c.slot (.data 0x601 0)))

/-- R250 to R252: SKIP on the change map takes the plane it holds for the map, or loads it from the map's header and counts the load; the result is
true where refresh is not forced and no block of the rectangle with its halo has changed.
Rests on the model's choices of log entries 83, 108. -/
def Obligations.ChangeMapSkip : Prop :=
  (∀ (s s1 : State) (p : Fin 68) (x : Fin 4) (i : Iss) (q : Plane) (t : Bool) (c : IssueCtx),
    issues s p x (fun w => opOf w == 0x40 && bits w 20 4 == 4) i → bits i.w 106 8 ≠ 0 → bits i.w 114 8 ≠ 0 →
    s.rangeCode i.part p.val [0] ((i.c.regs i.w).aop 72) 64 = 0 →
    ((s1 = s ∧ (s.bole p.val).plane = some q ∧ q.slot = i.c.slot ∧ q.ctx = x.val ∧ q.addr = ((i.c.regs i.w).aop 72).addr) ∨
      ((∀ r, (s.bole p.val).plane = some r → ¬ (r.slot = i.c.slot ∧ r.ctx = x.val ∧ r.addr = ((i.c.regs i.w).aop 72).addr)) ∧
        s.loadPlane i ((i.c.regs i.w).aop 72).addr = .ok s1 ∧ (s1.bole p.val).plane = some q)) →
    (t = true ↔ q.forced = false ∧ ∀ v ∈ q.changed,
      ¬ ((i.c.regs i.w).ir (bits i.w 96 5) ≤ v % 256 + bits i.w 122 6 ∧
        v % 256 < (i.c.regs i.w).ir (bits i.w 96 5) + bits i.w 106 8 + bits i.w 122 6 ∧
        (i.c.regs i.w).ir (bits i.w 101 5) ≤ v / 256 + bits i.w 122 6 ∧
        v / 256 < (i.c.regs i.w).ir (bits i.w 101 5) + bits i.w 114 8 + bits i.w 122 6)) →
    i.c.skip i.code.code i.w t = .ok c →
    exec (.skipChangeMap p x) s = .next (after (let s2 := s1.inc (F.dltTests_count.at (blBase p.val)) 1;
      if t then s2.inc (F.dltUnchanged_count.at (blBase p.val)) 1 else s2) p x
        { c with blocked := false, refreshed := i.c.refreshed || q.forced })) ∧
  (∀ (s : State) (p : Fin 68) (x : Fin 4) (i : Iss), issues s p x (fun w => opOf w == 0x40 && bits w 20 4 == 4) i →
    (bits i.w 106 8 = 0 ∨ bits i.w 114 8 = 0) →
    exec (.skipChangeMap p x) s = .next (State.settle (s.failInstr p.val x.val i.c.pc i.c.slot (.data 0x601 0)))) ∧
  ∀ (s s1 : State) (i : Iss) (a : Nat) (h : List Byte), s.locRead i.part i.p ⟨0, a⟩ 64 = .ok h → (MapHdr.of h).usable ((s.streamCtx i.cmd).map (·.1)) = true →
    s.loadPlane i a = .ok s1 → ∃ q, (s1.bole i.p).plane = some q ∧ q.wb = (MapHdr.of h).wb ∧ q.hb = (MapHdr.of h).hb ∧
      q.forced = s.refreshForced i.cmd i.code (MapHdr.of h) ∧ q.addr = a ∧
      (∀ (bx by' : Nat) (d : List Byte), bx < (MapHdr.of h).wb → by' < (MapHdr.of h).hb →
        s.locRead i.part i.p ⟨0, a + 64⟩ ((MapHdr.of h).pitch * (MapHdr.of h).hb) = .ok d →
        (by' * 256 + bx ∈ q.changed ↔ ((if (s.streamCtx i.cmd).isSome then field i.cmd.delta 20 1 % 32 else 0)
          < (d.getD (by' * (MapHdr.of h).pitch + bx) 0).toNat % 32 ∨ (d.getD (by' * (MapHdr.of h).pitch + bx) 0).toNat.testBit 5 = true ∨
          (d.getD (by' * (MapHdr.of h).pitch + bx) 0).toNat.testBit 6 = true)))

/-- R156 to R158, R225: STAT open takes the lowest free of the four slots for its context, zeroed, and puts its number in an index register; STAT
close adds the slot's counts to the record in an output of the command, and frees the slot.
R147, R205, R216, R223, R224: SCALE binds and unbinds a slot of its context; WAIT passes once its semaphore, window or tokens allow, and blocks
its context until then; SIG adds to a semaphore of its own context or of another bole's share of the command.
Rests on the model's choices of log entries 1, 76, 79, 80, 103, 108. -/
def Obligations.WaitsSignalsStatistics : Prop :=
  ((∀ (s : State) (p : Fin 68) (x : Fin 4) (i : Iss) (k : Nat), issues s p x (fun w => opOf w == 0x60 && !w.testBit 20) i →
    tfree (s.bole p.val).stats 4 = some k → fmtOk (bits i.w 96 4) = true →
    exec (.statOpen p x) s = .next (after (s.setBole p.val { s.bole p.val with
      stats := tput (s.bole p.val).stats k ⟨x.val, i.c.slot, bits i.w 64 32, bits i.w 96 4, 0, 0, 0, 0, false⟩ }) p x (i.c.next.setI (bits i.w 21 5) k))) ∧
  (∀ (s : State) (p : Fin 68) (x : Fin 4) (i : Iss), issues s p x (fun w => opOf w == 0x60 && !w.testBit 20) i → tfree (s.bole p.val).stats 4 = none →
    exec (.statOpen p x) s = .next (State.settle (s.failInstr p.val x.val i.c.pc i.c.slot (.data 0x601 0)))) ∧
  (∀ (s s1 : State) (p : Fin 68) (x : Fin 4) (i : Iss) (n : Nat) (t : StatSlot) (l : Loc) (arg o : Nat) (old data : List Byte),
    issues s p x (fun w => opOf w == 0x60 && w.testBit 20) i → n = (i.c.regs i.w).ir (bits i.w 21 5) → l = (i.c.regs i.w).aop 32 →
    tget (s.bole p.val).stats n = some t → t.slot = i.c.slot → t.ctx = x.val → s.rangeCode i.part p.val [0] l 32 = 0 →
    ((List.range 8).findSome? fun k => (s.regionOf i.cmd i.code k l.addr 32).map fun o => (k, o)) = some (arg, o) →
    s.locRead i.part p.val l 32 = .ok old → t.add i.cmd.desc.step old = (data, false) → s.locWrite i.part p.val l data = .ok s1 →
    exec (.statClose p x) s = .next (after (State.modCmd (s1.setBole p.val { s1.bole p.val with stats := tdel (s.bole p.val).stats n }) i.c.slot
      fun c => { c.wrote arg (o + 32) with dramRd := c.dramRd + 32, dramWr := c.dramWr + 32 }) p x i.c.next)) ∧
  (∀ (s : State) (p : Fin 68) (x : Fin 4) (i : Iss), issues s p x (fun w => opOf w == 0x60 && w.testBit 20) i →
    tget (s.bole p.val).stats ((i.c.regs i.w).ir (bits i.w 21 5)) = none →
    exec (.statClose p x) s = .next (State.settle (s.failInstr p.val x.val i.c.pc i.c.slot (.data 0x601 0)))) ∧
  ∀ (t : StatSlot) (step : Nat) (r : List Byte), field r 8 8 + t.total < 2 ^ 64 → field r 16 4 + t.hi < 2 ^ 32 → field r 20 4 + t.lo < 2 ^ 32 →
    field r 24 4 + t.nan < 2 ^ 32 → t.sat = false →
    field (t.add step r).1 0 4 = t.tid % 2 ^ 32 ∧ field (t.add step r).1 4 1 = t.fmt % 256 ∧ field (t.add step r).1 8 8 = field r 8 8 + t.total ∧
      field (t.add step r).1 16 4 = field r 16 4 + t.hi ∧ field (t.add step r).1 20 4 = field r 20 4 + t.lo ∧
      field (t.add step r).1 24 4 = field r 24 4 + t.nan ∧ field (t.add step r).1 28 4 = step % 2 ^ 32 ∧ (t.add step r).2 = false) ∧
  (∀ (s : State) (p : Fin 68) (x : Fin 4) (i : Iss) (l : Loc), issues s p x (fun w => opOf w == 0x38 && !w.testBit 23) i → l = (i.c.regs i.w).aop 32 →
    (i.w.testBit 22 = true → 2 ≤ bits i.w 20 2) → bits i.w 56 24 ≠ 0 → l.addr % 64 = 0 → l.space ≠ 3 →
    exec (.scaleBind p x) s = .next (after s p x { i.c with
      pc := i.c.pc + 1, blocked := false,
      scales := setAt i.c.scales (bits i.w 20 2) (some ⟨i.w.testBit 22, l.space, l.addr, bits i.w 56 24,
        bits i.w 101 27 + (i.c.regs i.w).ir (bits i.w 80 5) * bits i.w 85 16⟩) })) ∧
  (∀ (s : State) (p : Fin 68) (x : Fin 4) (i : Iss), issues s p x (fun w => opOf w == 0x38 && w.testBit 23) i →
    exec (.scaleUnbind p x) s = .next (after s p x { i.c with pc := i.c.pc + 1, blocked := false, scales := setAt i.c.scales (bits i.w 20 2) none })) ∧
  (∀ (s : State) (p : Fin 68) (x : Fin 4) (i : Iss), issues s p x (fun w => opOf w == 0x58 && (bits w 20 3 == 0 || 2 < bits w 20 3)) i → bits i.w 20 3 = 0 →
    (bits i.w 32 32 ≤ i.c.sems.getD (bits i.w 24 4) 0 → exec (.waitSemaphore p x) s = .next (after s p x { i.c with
      pc := i.c.pc + 1, blocked := false,
      sems := if i.w.testBit 23 then setAt i.c.sems (bits i.w 24 4) (i.c.sems.getD (bits i.w 24 4) 0 - bits i.w 32 32) else i.c.sems })) ∧
    (i.c.sems.getD (bits i.w 24 4) 0 < bits i.w 32 32 →
      exec (.waitSemaphore p x) s = .next (State.settle (s.setCtx p.val x.val { i.c with blocked := true })))) ∧
  (∀ (s : State) (p : Fin 68) (x : Fin 4) (i : Iss) (e : Win), issues s p x (fun w => opOf w == 0x58 && bits w 20 3 == 1) i →
    tget (s.winTab p.val (i.w.testBit 28)) (bits i.w 24 4) = some e →
    (e.state = 2 → exec (.waitWindow p x) s = .next (after s p x i.c.next)) ∧
    (e.state = 3 → exec (.waitWindow p x) s = .next (State.settle (s.failInstr p.val x.val i.c.pc i.c.slot (.data 0x60C 0)))) ∧
    (e.state = 1 → (e.expiry = noStamp ∨ stLt s.now e.expiry = true) →
      exec (.waitWindow p x) s = .next (State.settle (s.setCtx p.val x.val { i.c with blocked := true })))) ∧
  (∀ (s : State) (p : Fin 68) (x : Fin 4) (i : Iss), issues s p x (fun w => opOf w == 0x58 && bits w 20 3 == 2) i →
    exec (.waitTokens p x) s = .next (after s p x i.c.next)) ∧
  (∀ (s : State) (p : Fin 68) (x : Fin 4) (i : Iss), issues s p x (fun w => opOf w == 0x59 && !w.testBit 20) i → bits i.w 32 16 ≠ 0 →
    ((i.w.testBit 21 = true ∧ ∃ f ∈ i.c.flight, f.dmaMove = true) →
      exec (.sigLocal p x) s = .next (State.settle (s.setCtx p.val x.val { i.c with blocked := true }))) ∧
    ((i.w.testBit 21 = false ∨ ∀ f ∈ i.c.flight, f.dmaMove = false) →
      exec (.sigLocal p x) s = .next (after s p x { i.c with
        pc := i.c.pc + 1, blocked := false,
        sems := setAt i.c.sems (bits i.w 28 4) (min (i.c.sems.getD (bits i.w 28 4) 0 + bits i.w 32 16) (2 ^ 32 - 1)) }))) ∧
  (∀ (s s' : State) (p : Fin 68) (x : Fin 4) (i : Iss) (n q : Nat) (y : Nat) (c d : IssueCtx), issues s p x (fun w => opOf w == 0x59 && w.testBit 20) i →
    n = bits i.w 22 6 → bits i.w 32 16 ≠ 0 → sigHeld i = false → n ∈ compBoles (compOf i.cmd.desc.target) → n ∈ i.cmd.shares → q = s.physOf n →
    s' = s.setCtx p.val x.val i.c.next → (s'.bole q).ctxs.find? (fun e => e.2.slot == i.c.slot) = some (y, c) →
    d = (if y = x.val ∧ q = p.val then i.c.next else c) →
    exec (.sigRemote p x) s = .next (State.settle ((s'.setCtx q y { d with
      sems := setAt d.sems (bits i.w 28 4) (min (d.sems.getD (bits i.w 28 4) 0 + bits i.w 32 16) (2 ^ 32 - 1)) }).issued p.val x.val))) ∧
  (∀ (s s' : State) (p : Fin 68) (x : Fin 4) (i : Iss) (n q : Nat), issues s p x (fun w => opOf w == 0x59 && w.testBit 20) i →
    n = bits i.w 22 6 → bits i.w 32 16 ≠ 0 → sigHeld i = false → n ∈ compBoles (compOf i.cmd.desc.target) → n ∈ i.cmd.shares → q = s.physOf n →
    s' = s.setCtx p.val x.val i.c.next → (s'.bole q).ctxs.find? (fun e => e.2.slot == i.c.slot) = none → n ∉ i.cmd.reported →
    (s'.bole q).pendSig.length < 64 →
    exec (.sigRemote p x) s = .next (State.settle ((s'.setBole q { s'.bole q with
      pendSig := (s'.bole q).pendSig ++ [(i.c.slot, bits i.w 28 4, bits i.w 32 16)] }).issued p.val x.val))) ∧
  ∀ (s : State) (p : Fin 68) (x : Fin 4) (i : Iss), issues s p x (fun w => opOf w == 0x59 && w.testBit 20) i → bits i.w 32 16 ≠ 0 → sigHeld i = false →
    (bits i.w 22 6 ∉ compBoles (compOf i.cmd.desc.target) ∨ bits i.w 22 6 ∉ i.cmd.shares) →
    exec (.sigRemote p x) s = .next (State.settle (s.failInstr p.val x.val i.c.pc i.c.slot (.data 0x60B (bits i.w 22 6))))
/-- R188, R226, R228, R229: TALLY init sets a counter of the command's partition to a value; take answers the counter and adds the step to it, or
answers the tickets of the share that a DIV handed out; read answers the counter; a counter of another partition fails with 0x0506, one that has
reached 2^32 with 0x0608. DIV hands each member that holds shares its own.
Rests on the model's choices of log entries 1, 76, 79, 85, 108. -/
def Obligations.TicketsAndDivision : Prop :=
  (∀ (s : State) (p : Fin 68) (x : Fin 4) (i : Iss) (g n : Nat), issues s p x (fun w => opOf w == 0x48 && bits w 20 2 == 0) i →
    g = bits i.w 45 2 → n = bits i.w 32 13 → s.segGated g 15 = false →
    (s.tallyOk i.part g (n / 512) = true → exec (.tallyInit (.bole p x)) s = .next (after (s.setLand g { s.land g with
      tally := tput (s.land g).tally n (bits i.w 64 32, some (i.part, s.orderOf i.c.slot)) }) p x i.c.next)) ∧
    (s.tallyOk i.part g (n / 512) = false → exec (.tallyInit (.bole p x)) s =
      .next (State.settle (s.failInstr p.val x.val i.c.pc i.c.slot (.data 0x506 (g * 2 ^ 23 + 0x7F0000 + 8 * n) true))))) ∧
  (∀ (s : State) (slot : Fin 4096) (k : Fin 21) (c : Cmd) (l : CutList) (w pc : Nat), s.ctlInstr slot.val (ctlKey k) = some (c, l, w, pc) →
    opOf w = 0x48 → wordOk w = true → s.segGated (bits w 45 2) 15 = false → s.tallyOk c.desc.part (bits w 45 2) (bits w 32 13 / 512) = true →
    exec (.tallyInit (.ctl slot k)) s = .next (State.settle (State.modCmd (s.setLand (bits w 45 2) { s.land (bits w 45 2) with
      tally := tput (s.land (bits w 45 2)).tally (bits w 32 13) (bits w 64 32, some (c.desc.part, s.orderOf slot.val)) }) slot.val
        fun c => { c with ctlPc := tput c.ctlPc (ctlKey k) (pc + 1) }))) ∧
  (∀ (s : State) (p : Fin 68) (x : Fin 4) (i : Iss) (g n v : Nat) (own : Option (Nat × Nat)), issues s p x (fun w => opOf w == 0x48 && bits w 20 2 == 1) i →
    g = bits i.w 45 2 → n = bits i.w 32 13 → bits i.w 64 16 ≠ 0 → (∀ t, i.c.tickets = some t → t.ctr ≠ g * 8192 + n ∨ t.fixed = false) →
    s.segGated g 15 = false →
    tgetD (s.land g).tally n (0, none) = (v, own) →
    (s.tallyOk i.part g (n / 512) = true → v < 2 ^ 32 → (∀ t, i.c.tickets = some t → t.ctr = g * 8192 + n → v < t.total) → exec (.tallyTake p x .none) s = .next (after (State.modCmd (State.inc
      (s.setLand g { s.land g with tally := tput (s.land g).tally n ((v + bits i.w 64 16) % 2 ^ 64, own) })
        (F.bkTickets_count.at (blBase p.val)) 1) i.c.slot fun c => { c with drawn := c.drawn ++ [v] }) p x (i.c.took i.w v))) ∧
    (∀ t, s.tallyOk i.part g (n / 512) = true → v < 2 ^ 32 → i.c.tickets = some t → t.ctr = g * 8192 + n → t.total ≤ v →
      exec (.tallyTake p x .none) s = .next (after (s.setLand g { s.land g with
        tally := tput (s.land g).tally n ((v + bits i.w 64 16) % 2 ^ 64, own) }) p x (i.c.took i.w v))) ∧
    (s.tallyOk i.part g (n / 512) = true → 2 ^ 32 ≤ v → exec (.tallyTake p x .none) s =
      .next (State.settle (s.failInstr p.val x.val i.c.pc i.c.slot (.data 0x608 (g * 2 ^ 23 + 0x7F0000 + 8 * n) true)))) ∧
    (s.tallyOk i.part g (n / 512) = false → exec (.tallyTake p x .none) s =
      .next (State.settle (s.failInstr p.val x.val i.c.pc i.c.slot (.data 0x506 (g * 2 ^ 23 + 0x7F0000 + 8 * n) true))))) ∧
  (∀ (s : State) (p : Fin 68) (x : Fin 4) (i : Iss) (t : TicketSrc), issues s p x (fun w => opOf w == 0x48 && bits w 20 2 == 1) i →
    bits i.w 64 16 ≠ 0 → i.c.tickets = some t → t.fixed = true → t.ctr = bits i.w 45 2 * 8192 + bits i.w 32 13 →
    (t.taken < t.count → exec (.tallyTake p x .none) s = .next (after (State.modCmd (s.inc (F.bkTickets_count.at (blBase p.val)) 1) i.c.slot
        fun c => { c with drawn := c.drawn ++ [t.start + t.step * t.taken] }) p x
      (IssueCtx.took { i.c with tickets := some { t with taken := t.taken + 1 } } i.w (t.start + t.step * t.taken)))) ∧
    (t.count ≤ t.taken → exec (.tallyTake p x .none) s = .next (after s p x (i.c.took i.w t.total)))) ∧
  (∀ (c : IssueCtx) (w v : Nat), (c.took w v).pc = c.pc + 1 ∧ (c.took w v).blocked = false ∧ (c.took w v).tickets = c.tickets ∧
    (w.testBit 27 = false → w.testBit 28 = false → c.took w v = c.next.setI (bits w 22 5) (v % 2 ^ 32))) ∧
  (∀ (s : State) (p : Fin 68) (x : Fin 4) (i : Iss) (g n : Nat), issues s p x (fun w => opOf w == 0x48 && 2 ≤ bits w 20 2) i →
    g = bits i.w 45 2 → n = bits i.w 32 13 →
    (bits i.w 20 2 = 2 → s.segGated g 15 = false → s.tallyOk i.part g (n / 512) = true →
      exec (.tallyRead p ⟨x, .none⟩) s = .next (after s p x (i.c.next.setI (bits i.w 22 5) ((tgetD (s.land g).tally n (0, none)).1 % 2 ^ 32)))) ∧
    (bits i.w 20 2 = 3 → exec (.tallyRead p ⟨x, .none⟩) s = .next (State.settle (s.failInstr p.val x.val i.c.pc i.c.slot (.data 0x601 0))))) ∧
  (∀ (s : State) (slot : Fin 4096) (k : Fin 21) (c : Cmd) (l : CutList) (w pc : Nat), s.ctlInstr slot.val (ctlKey k) = some (c, l, w, pc) →
    opOf w = 0x78 → wordOk w = true → bits w 20 2 ≠ 3 → bits w 48 16 ≠ 0 →
    ∃ (u : State) (d : Cmd), exec (.div slot k) s = .next u.settle ∧ tget u.cmds slot.val = some d ∧ d.divided = ctlKey k :: c.divided ∧
      tget d.ctlPc (ctlKey k) = some (pc + 1) ∧ u = { s with cmds := tput s.cmds slot.val d, regs := u.regs } ∧
      u.rd (F.divShares_count.at (s.compBase (ctlKey k))) =
        (s.rd (F.divShares_count.at (s.compBase (ctlKey k))) + (c.membersOf (ctlKey k)).length) % 2 ^ 32 ∧
      (∀ (m r a st n : Nat), (c.membersOf (ctlKey k))[r]? = some m →
        (a, st, n) = (match tget c.sets (ctlKey k) with
          | some (a, st, n, _) => if bits w 20 2 = 0 then (0, 1, cdiv (c.desc.shape (bits w 32 3)) (bits w 48 16)) else (a, st, n)
          | none => (0, 1, cdiv (c.desc.shape (bits w 32 3)) (bits w 48 16))) →
        tget d.sets m = some ((shareOf (bits w 20 2) r (c.membersOf (ctlKey k)).length (a, st, n)).1,
          (shareOf (bits w 20 2) r (c.membersOf (ctlKey k)).length (a, st, n)).2.1,
          (shareOf (bits w 20 2) r (c.membersOf (ctlKey k)).length (a, st, n)).2.2, bits w 20 2 != 0))) ∧
  (∀ (r c a st n : Nat), 0 < c → r < c → shareOf 1 r c (a, st, n) = (a + st * r, st * c, (n + c - 1 - r) / c) ∧
    shareOf 2 r c (a, st, n) = (a + st * (r * n / c), st, (r + 1) * n / c - r * n / c) ∧ shareOf 0 r c (a, st, n) = (a, st, n)) ∧
  (∀ (c a st n v : Nat), 0 < c → v < n → ∃ r, r < c ∧ ∃ j, j < (shareOf 1 r c (a, st, n)).2.2 ∧
    (shareOf 1 r c (a, st, n)).1 + (shareOf 1 r c (a, st, n)).2.1 * j = a + st * v) ∧
  ∀ (c a st n v : Nat), 0 < c → v < n → ∃ r, r < c ∧ ∃ j, j < (shareOf 2 r c (a, st, n)).2.2 ∧
    (shareOf 2 r c (a, st, n)).1 + (shareOf 2 r c (a, st, n)).2.1 * j = a + st * v

/-- R174 to R179, R192, R222: WIN open makes a window from the 32-byte record where its checks pass, and fails with the code of the first that
holds; WIN close closes one that the command opened, and the last
one that a save waits for ends its issue (R180); a window open at its expiry expires. A write that arrives at an open window from a source that
may write to it goes into the memory, counts, and completes the window at its limit; any other is rejected with its cause and writes nothing.
Rests on the model's choices of log entries 78, 84, 108. -/
def Obligations.Windows : Prop :=
  (∀ (s : State) (p : Fin 68) (x : Fin 4) (i : Iss) (a : Loc) (d : List Byte), issues s p x (fun w => opOf w == 0x50 && !w.testBit 20) i →
    a = (i.c.regs i.w).aop 32 → s.rangeCode i.part p.val [2] a 32 8 = 0 → d = (s.bole p.val).bytes a.addr 32 →
    (s.winCheck i.part p.val (bits i.w 22 4) (i.w.testBit 21) (field d 0 4) (field d 4 4) = 0 →
      exec (.winOpen p ⟨x, .none⟩) s = .next (after (s.setWinTab p.val (i.w.testBit 21) (tput (s.winTab p.val (i.w.testBit 21)) (bits i.w 22 4)
        { base := field d 0 4, limit := field d 4 4, src := field d 8 8, modMask := field d 16 1, modPart := field d 17 1 % 16,
          expiry := if i.w.testBit 26 then i.cmd.desc.deadline else field d 20 8, wlim := field d 28 4, wcnt := 0, bytes := 0, state := 1,
          rejects := 0, part := i.part, slot := i.c.slot, opener := i.cmd.order, ids := [] })) p x i.c.next)) ∧
    (∀ c, c ≠ 0 → s.winCheck i.part p.val (bits i.w 22 4) (i.w.testBit 21) (field d 0 4) (field d 4 4) = c →
      exec (.winOpen p ⟨x, .none⟩) s = .next (State.settle (s.failInstr p.val x.val i.c.pc i.c.slot (.data c (field d 0 4)))))) ∧
  (∀ (s : State) (part p w base limit : Nat), s.winCheck part p w false base limit = 0 ↔ base < limit ∧ base % 64 = 0 ∧ limit % 64 = 0 ∧ limit ≤ 0xC0000 ∧
    (∀ v, tget (s.bole p).wins w = some v → v.live = false) ∧ (∀ e ∈ (s.bole p).wins, e.2.live = true → limit ≤ e.2.base ∨ e.2.limit ≤ base) ∧
    ∀ k ∈ banksOf base (limit - base), s.gated p k = false) ∧
  (∀ (s : State) (p : Fin 68) (x : Fin 4) (i : Iss), issues s p x (fun w => opOf w == 0x50 && w.testBit 20) i →
    (∀ v, tget (s.winTab p.val (i.w.testBit 21)) (bits i.w 22 4) = some v → v.slot = i.c.slot → v.opener = i.cmd.order →
      i.cmd.phase = .running → exec (.winClose p x) s = .next (after (s.setWinTab p.val (i.w.testBit 21) (tput (s.winTab p.val (i.w.testBit 21)) (bits i.w 22 4)
        { v with state := 0, ids := [] })) p x i.c.next)) ∧
    (∀ (v : Win) (u : State), tget (s.winTab p.val (i.w.testBit 21)) (bits i.w 22 4) = some v → v.slot = i.c.slot → v.opener = i.cmd.order →
      i.cmd.phase = .saving → u = (s.setWinTab p.val (i.w.testBit 21) (tput (s.winTab p.val (i.w.testBit 21)) (bits i.w 22 4)
        { v with state := 0, ids := [] })).setCtx p.val x.val i.c.next → u.windowOpen i.c.slot = false →
      exec (.winClose p x) s = .next (State.settle ((u.stopIssue i.c.slot).issued p.val x.val))) ∧
    ((∀ v, tget (s.winTab p.val (i.w.testBit 21)) (bits i.w 22 4) = some v → v.slot ≠ i.c.slot ∨ v.opener ≠ i.cmd.order) →
      exec (.winClose p x) s = .next (State.settle (s.failInstr p.val x.val i.c.pc i.c.slot (.data 0x601 0))))) ∧
  (∀ (s : State) (dst : Fin 68) (w : Fin 16) (q : Nat) (v : Win), q = (if 64 ≤ dst.val then 17 * (dst.val - 64) else s.physOf dst.val) →
    tget (s.winTab q (decide (64 ≤ dst.val))) w.val = some v →
    (v.state = 1 → v.expiry ≠ noStamp → stLt s.now v.expiry = false →
      exec (.windowExpiry dst w) s = .next (State.settle (s.setWinTab q (decide (64 ≤ dst.val)) (tput (s.winTab q (decide (64 ≤ dst.val))) w.val { v with state := 3 })))) ∧
    ((v.state ≠ 1 ∨ v.expiry = noStamp ∨ stLt s.now v.expiry = true) → exec (.windowExpiry dst w) s = .next s.settle)) ∧
  (∀ (s : State) (r : RemoteW) (stamp : Nat) (v : Win), r.dst < 64 → r.src < 64 → r.win < 16 → tget (s.bole (s.physOf r.dst)).wins r.win = some v →
    v.state = 1 → v.src.testBit r.src = true → r.part = v.part → (v.expiry = noStamp ∨ stLt stamp v.expiry = true) →
    r.off % 8 = 0 → r.data.length % 8 = 0 → v.base + r.off + r.data.length ≤ v.limit →
    (∀ k ∈ banksOf (v.base + r.off) r.data.length, s.gated (s.physOf r.dst) k = false) →
    s.deliver r stamp = (.accept, (s.setWinTab (s.physOf r.dst) false (tput (s.bole (s.physOf r.dst)).wins r.win { v with
      wcnt := (v.wcnt + 1) % 2 ^ 32, bytes := (v.bytes + r.data.length) % 2 ^ 32,
      state := if v.wlim ≠ 0 ∧ (v.wcnt + 1) % 2 ^ 32 = v.wlim then 2 else 1 })).spadWrite (s.physOf r.dst) (v.base + r.off) r.data)) ∧
  (∀ (s : State) (r : RemoteW) (stamp c : Nat) (w : Option Win), s.winTest r stamp = (.reject c, w) →
    (s.deliver r stamp).1 = .reject c ∧ (∀ q, ((s.deliver r stamp).2.bole q).spad = (s.bole q).spad) ∧
    (∀ g, ((s.deliver r stamp).2.land g).mem = (s.land g).mem) ∧ (s.deliver r stamp).2.dram = s.dram ∧ (s.deliver r stamp).2.cmds = s.cmds ∧
    (s.deliver r stamp).2.rd (F.winRej_lastCause.at (s.winBlock r.dst)) = c % 2 ^ F.winRej_lastCause.w) ∧
  (∀ (s : State) (r : RemoteW) (stamp : Nat) (v : Win), r.dst < 64 → r.src < 64 → r.win < 16 → tget (s.bole (s.physOf r.dst)).wins r.win = some v →
    (v.state = 0 → (s.winTest r stamp).1 = .reject 1) ∧ (v.state = 4 → (s.winTest r stamp).1 = .reject 6) ∧
    (v.state ≠ 0 → v.state ≠ 4 → v.src.testBit r.src = false → (s.winTest r stamp).1 = .reject 2) ∧
    (v.state = 1 → v.src.testBit r.src = true → r.part ≠ v.part → (s.winTest r stamp).1 = .reject 3) ∧
    (v.state = 3 → v.src.testBit r.src = true → r.part = v.part → (s.winTest r stamp).1 = .reject 4) ∧
    (v.state = 2 → (v.expiry = noStamp ∨ stLt stamp v.expiry = true) → v.src.testBit r.src = true → r.part = v.part → (s.winTest r stamp).1 = .reject 5))
/-- R197, R203, R207, R208, R223, R230: a share starts on an issue context of its bole with the command's registers, where the command runs and each
of its boles has a context; an instruction block extends what the context has fetched; a share at its cycle budget fails with 0x060A; COMMIT waits
for what its context has issued, then reports and ends the share.
Rests on the model's choices of log entries 7, 21, 79, 90, 108. -/
def Obligations.Shares : Prop :=
  (∀ (s : State) (slot : Fin 4096) (n : Fin 64) (c : Cmd) (l : CutList), tget s.cmds slot.val = some c → tget s.lists c.desc.op = some l →
    s.pow.paused = false → c.forced = false →
    c.phase = .running → c.ready = false → n.val ∈ c.unstarted → n.val ∈ c.shares → s.boleOnline n.val = true →
    ((s.started slot.val c = true ∧ ((s.bole (s.physOf n.val)).takeCtx slot.val).isSome = true) ∨
      (s.started slot.val c = false ∧ s.firstInPort slot.val c = true ∧ ∀ m ∈ c.shares, ((s.bole (s.physOf m)).takeCtx slot.val).isSome = true)) →
    ∃ (u : State) (x : Nat) (r : IssueCtx), exec (.shareStart slot n) s = .next u.settle ∧ tget (u.bole (s.physOf n.val)).ctxs x = some r ∧
      r.slot = slot.val ∧ r.pc = sectionStart l l.level ∧ r.sreg = c.desc.shapes.map (fun v => BitVec.ofNat 32 v) ∧ r.loops = [] ∧ r.flight = [] ∧
      r.scales = [none, none, none, none] ∧ r.blocked = false ∧ r.reported = false ∧ r.stopped = false ∧ r.refreshed = false ∧
      r.startAt = s.now ∧ r.ranNs = 0 ∧ r.gatedAt = s.pow.gatedNs ∧ r.ranGated = 0 ∧
      (∀ k, k < 8 → r.areg.getD k 0 = BitVec.ofNat 64 (c.aregs.getD k 0)) ∧ (tget c.ranks n.val = none → r.ireg = List.replicate 32 0) ∧
      ((∀ e ∈ (s.bole (s.physOf n.val)).pendSig, e.1 ≠ slot.val) → r.sems = List.replicate 16 0) ∧
      (∀ y, y ≠ x → tget (u.bole (s.physOf n.val)).ctxs y = tget (s.bole (s.physOf n.val)).ctxs y) ∧
      u = { s with boles := u.boles, cmds := tput s.cmds slot.val { c with unstarted := c.unstarted.filter (· != n.val) } }) ∧
  (∀ (s : State) (slot : Fin 4096) (n : Fin 64) (c : Cmd), tget s.cmds slot.val = some c →
    (c.phase ≠ .running ∨ n.val ∉ c.unstarted ∨ s.boleOnline n.val = false) → exec (.shareStart slot n) s = .next s.settle) ∧
  (∀ (s : State) (p : Fin 68) (x : Fin 4) (c : IssueCtx) (m : Cmd) (l : CutList), tget (s.bole p.val).ctxs x.val = some c → tget s.cmds c.slot = some m →
    tget s.lists m.desc.op = some l → s.pow.paused = false → exec (.instrBlockFetched p x) s =
      .next (State.settle (s.setCtx p.val x.val { c with fetchedTo := min (c.fetchedTo + 64) l.code.length }))) ∧
  (∀ (s : State) (p : Fin 68) (x : Fin 4) (c : IssueCtx) (m : Cmd) (l : CutList), tget (s.bole p.val).ctxs x.val = some c → tget s.cmds c.slot = some m →
    tget s.lists m.desc.op = some l →
    (c.reported = false → l.budget ≤ s.ctxCycles c → exec (.cmdBudgetExceeded p x) s =
      .next (State.settle (s.failInstr p.val x.val c.pc c.slot (.data 0x60A 0)))) ∧
    (s.ctxCycles c < l.budget → exec (.cmdBudgetExceeded p x) s = .next s.settle)) ∧
  (∀ (s : State) (p : Fin 68) (x : Fin 4) (i : Iss), issues s p x (isOp 0x70) i →
    (i.c.flight ≠ [] → exec (.commit p x) s = .next (State.settle (s.setCtx p.val x.val { i.c with blocked := true }))) ∧
    (∀ n, i.c.flight = [] → s.logOf p.val = some n → exec (.commit p x) s = .next (State.settle (State.issued
      (State.modCmd (s.setBole p.val { s.bole p.val with
          ctxs := tdel (s.bole p.val).ctxs x.val,
          stats := (s.bole p.val).stats.filter fun e => e.2.slot != i.c.slot || e.2.ctx != x.val }) i.c.slot
        fun c => { c with
          reported := c.reported ++ [n], cycles := max c.cycles (s.ctxCycles i.c), usedBoles := c.usedBoles ||| 2 ^ p.val,
          ns := c.ns + s.ctxNs i.c }) p.val x.val)))) ∧
  ∀ (s : State) (p x pc slot code addr : Nat), (s.tilePending slot = false ∨ (code ≠ 0x701 ∧ code ≠ 0x702 ∧ code ≠ 0x704)) → ∃ u : State,
    s.failInstr p x pc slot (.data code addr) = u.dataFault slot code .bole p addr (if code = 0x701 then (s.reg (F.scaleLast_expected.at (blBase p)).off).toNat % 2 ^ 15 else pc + x * 65536) ∧ u = { s with regs := u.regs } ∧
      u.rd (F.bkFault_code.at (blBase p)) = code % 2 ^ 16 ∧ u.rd (F.bkFault_pc.at (blBase p)) = pc % 2 ^ 16 ∧
      u.rd (F.bkFaultCtx_ctx.at (blBase p)) = x % 4 ∧ u.rd (F.bkFaultCtx_slot.at (blBase p)) = slot % 2 ^ 12 ∧
      u.rd (F.bkFaultCtx_valid.at (blBase p)) = 1

/-- R230, R231, R473, R475: a command of a class 1 whose members have all reported commits: it leaves its slot, one completion record goes to its
CQ before the CQ's producer index, both in the order of the rules; a command that is not due does nothing; one whose tickets have already been published
writes no completion.
Rests on the model's choices of log entries 14, 23, 64, 87, 90, 108. -/
def Obligations.CommandCommit : Prop :=
  (∀ (s : State) (slot : Fin 4096) (k : Bool) (c : Cmd), tget s.cmds slot.val = some c → c.commitDue = false →
    exec (.commandCommit slot k) s = .next s.settle) ∧
  (∀ (s : State) (slot : Fin 4096) (k : Bool) (c : Cmd), tget s.cmds slot.val = some c → c.commitDue = true → s.pow.paused = false →
    (c.committed = false ∨ c.newTickets ≠ []) → s.sendDone c = true →
    exec (.commandCommit slot k) s = .next (State.settle (s.commitStep slot.val c (k && c.desc.cls == 1)))) ∧
  (∀ c : Cmd, c.commitDue = true ↔ c.phase = .running ∧ (c.ready = true ∨ (c.desc.cls = 1 ∧ c.shares ≠ [] ∧ ∀ m ∈ c.shares, m ∈ c.reported))) ∧
  (∀ (s : State) (slot : Fin 4096) (c : Cmd) (q : Sq) (k : Cq), s.cmds = [(slot.val, c)] → c.commitDue = true → s.pow.paused = false → c.committed = false →
    c.published = [] → s.sendDone c = true → c.desc.cls = 1 → c.reds = [] → c.fresh = [] → c.rings = [] → c.instances = [] → c.newCtx = [] → c.holds = [] →
    c.discarded = false → c.code = 0 → c.desc.deadline = noStamp → (∀ i, argKind (c.desc.arg i) ≠ 3) → (∀ a ∈ c.desc.args, argKind a ≠ 5) →
    tget s.sqs c.sq = some q → tget s.cqs q.cq = some k → k.place.baseHost = true → k.place.ptrHost = true →
    s.rd (F.ptAuditCtl_en.at (ptBase c.desc.part)) = 0 → k.part < 16 → s.fnAwake k.part = true → (∀ h ∈ s.ep.held, h.1 ≠ k.part) → k.irqEn = false →
    (k.place.base + (k.prod % 2 ^ k.log2) * 32) % 4096 + 32 ≤ 4096 → k.place.ptr % 4096 + 8 ≤ 4096 →
    ∃ u : State, exec (.commandCommit slot false) s = .next u.settle ∧ u.cmds = [] ∧
      tget u.cqs q.cq = some { k with prod := (k.prod + 1) % 2 ^ 32, reserved := k.reserved - 1, written := (k.written + 1) % 2 ^ 32 } ∧
      u.out = s.out ++ [.hostWrite k.part (k.place.base + (k.prod % 2 ^ k.log2) * 32) (completionBytes c 0 0 s.now (s.resultOf c)),
        .hostWrite k.part k.place.ptr (ptrBytes ((k.prod + 1) % 2 ^ 32))] ∧
      u.dram.mem = s.dram.mem ∧ u.ctxs = s.ctxs ∧ u.fresh = s.fresh + 1) ∧
  (∀ (s : State) (slot : Fin 4096) (k : Bool) (c : Cmd), tget s.cmds slot.val = some c → c.commitDue = true → s.pow.paused = false → c.committed = true →
    c.newTickets = [] → exec (.commandCommit slot k) s = .next (State.settle (s.commitAgain slot.val c)) ∧ (s.commitAgain slot.val c).cqs = s.cqs ∧
      tget (s.commitAgain slot.val c).cmds slot.val = none) ∧
  (∀ (red a : Nat) (v w : List Byte), v.length = 4 → w.length = 4 →
    combineReds [⟨0, 1, red, a, w, []⟩, ⟨0, 0, red, a, v, []⟩] = [(a, redWord red (BitVec.ofNat 32 (field v 0 4)) (BitVec.ofNat 32 (field w 0 4)))])
/-! ### Matrix arrays (03, 07) -/

/-- R80 to R82, R86, R148 to R153, R212, R236 to R241: a TILE whose checks pass and whose banks are free sums the products of its operands in the
array elements that the map of its shape names, reserves its banks, changes no accumulator word yet and waits for its drain and its checks. A bad scale
entry ends it with the entry's code.
Rests on the model's choices of log entries 4, 80, 83, 91, 92, 93, 108. -/
def Obligations.TileSums : Prop :=
  (∀ (s : State) (p : Fin 68) (x : Fin 4) (i : Iss) (t : Tile) (b : Bole) (mv nv kv : Nat) (ea eb : List ScaleRead) (o : Operands),
    issues s p x (isOp 0x10) i → t = Tile.of i.w → b = s.bole p.val → tileCheck (opOfIss i) s = .ok () → i.c.unitHeld .arrays = false →
    b.bankFree t i.c.slot x.val = true → (∀ e ∈ b.arrays, e.2.fenced = false) →
    mv = validExt (i.c.regs i.w) (bits i.w 100 3) (bits i.w 103 5) (tileGeom t.shape t.bw).1 →
    nv = validExt (i.c.regs i.w) (bits i.w 108 3) (bits i.w 111 5) (tileGeom t.shape t.bw).2.1 →
    kv = validExt (i.c.regs i.w) (bits i.w 116 3) (bits i.w 119 5) (t.kblk * (tileGeom t.shape t.bw).2.2.1) →
    ((ea = [] ∧ (i.c.scales.getD 0 none = none ∨ (t.fa ≠ 3 ∧ t.fa ≠ 4))) ∨
      ∃ sb, i.c.scales.getD 0 none = some sb ∧ (t.fa = 3 ∨ t.fa = 4) ∧ s.readScales i.part p.val 0 sb (t.scaleRows mv nv).1 (cdiv kv 32) = .ok ea) →
    ((eb = [] ∧ (i.c.scales.getD 1 none = none ∨ (t.fb ≠ 3 ∧ t.fb ≠ 4))) ∨
      ∃ sb, i.c.scales.getD 1 none = some sb ∧ (t.fb = 3 ∨ t.fb = 4) ∧ s.readScales i.part p.val 1 sb (t.scaleRows mv nv).2 (cdiv kv 32) = .ok eb) →
    ((∀ e ∈ ea ++ eb, e.code = 0) → o = s.tileOperands (opOfIss i) t mv nv kv ea eb →
      ∃ (c : Bole) (job : TileJob),
        exec (.tile p x .none) s = .next (afterUnit ((s.setBole p.val c).act i.c.slot (64 + 16 * t.fa + t.fb) (t.macs mv nv kv)) i) ∧
        c = { b with accBanks := c.accBanks, accLive := c.accLive, tiles := b.tiles ++ [job] } ∧
        job.slot = i.c.slot ∧ job.ctx = x.val ∧ job.bank = t.bank ∧ job.shape = t.shape ∧ job.bw = t.bw ∧ job.acc = t.acc ∧ job.mv = mv ∧ job.nv = nv ∧
        job.flt = t.flt ∧ (∀ n, n < 16 → job.checks.getD n (.sums []) = t.checks o (s.arrayResidue p.val n) x.val mv nv n) ∧
        (∀ n, n < 16 → ∃ e, tget c.accBanks (bankKey n t.bank (if t.shape = 6 then x.val else 0)) = some e ∧ e.slot = i.c.slot ∧ e.ctx = x.val ∧ e.readable = false) ∧
        (t.shape < 5 → ∀ n w, n < 16 → w < 1024 → (job.sums.getD n []).getD w 0 =
          if 32 * (n / (tileGeom t.shape 0).2.2.2) + w / 32 < mv ∧ 32 * (n % (tileGeom t.shape 0).2.2.2) + w % 32 < nv then
            o.sum none (32 * (n / (tileGeom t.shape 0).2.2.2) + w / 32) (32 * (n % (tileGeom t.shape 0).2.2.2) + w % 32) else 0) ∧
        (t.shape = 5 → ∀ n w, n < 16 → w < 1024 → (job.sums.getD n []).getD w 0 =
          if 32 * (n % 4 / 2) + w / 32 < mv ∧ 32 * (n % 4 % 2) + w % 32 < nv then
            o.sum (some (n / 4)) (32 * (n % 4 / 2) + w / 32) (32 * (n % 4 % 2) + w % 32) else 0) ∧
        (t.shape = 6 → ∀ n w, n < 16 → w < 1024 → (job.sums.getD n []).getD w 0 =
          if w / 32 / 16 = x.val / 2 ∧ w % 32 / 16 = x.val % 2 ∧ 16 * (n / 4) + w / 32 % 16 < mv ∧ 16 * (n % 4) + w % 32 % 16 < nv then
            o.sum none (16 * (n / 4) + w / 32 % 16) (16 * (n % 4) + w % 32 % 16) else 0) ∧
        (t.shape = 7 → ∀ n w d, n < 16 → w < 1024 → d = 32 / (8 * 2 ^ t.bw) * n + w % 32 / (8 * 2 ^ t.bw) → (job.sums.getD n []).getD w 0 =
          if w / 32 < mv ∧ w % (8 * 2 ^ t.bw) < nv then o.sum none (32 * d + w / 32) (8 * 2 ^ t.bw * d + w % (8 * 2 ^ t.bw)) else 0)) ∧
    (∀ (s' : State) (code blk : Nat), s.scaleFaults p.val (ea ++ eb) = some (s', code, blk) →
      exec (.tile p x .none) s = .next (afterUnit (s'.failInstr p.val x.val i.c.pc i.c.slot (.data code blk)) i))) ∧
  (∀ (s : State) (p : Fin 68) (x : Fin 4) (i : Iss) (t : Tile), issues s p x (isOp 0x10) i → t = Tile.of i.w → tileCheck (opOfIss i) s = .ok () →
    i.c.unitHeld .arrays = false → (s.bole p.val).bankFree t i.c.slot x.val = false →
    exec (.tile p x .none) s = .next (State.settle ((s.pushFlight p.val x.val i.c.slot (inFlight (i.c.regs i.w) true)).issued p.val x.val))) ∧
  (∀ (a b : List (List (Option Int))) (i j : Nat), (Operands.int a b).sum none i j = dotInt (products (a.getD i []) (b.getD j []))) ∧
  (∀ (l : List (Int × Int)), dotInt l = BitVec.ofInt 32 ((l.map fun e => e.1 * e.2).sum)) ∧
  (∀ (l : List (FV × FV)) (x y : FV), dotFlt (l ++ [(x, y)]) = ((FV.dec 7 (dotFlt l).toNat).add (x.mul y)).to32) ∧
  ∀ (t : Tile) (d x n : Nat), t.diagB d x n = none ↔ match Config.diagConv t.bw t.kblk with
    | (k, st, 0) => ¬ (st * x ≤ n % (st * (8 * 2 ^ t.bw - 1) + k) ∧ n % (st * (8 * 2 ^ t.bw - 1) + k) < st * x + k)
    | (_, _, g + 1) => (8 * 2 ^ t.bw * d + n % (8 * 2 ^ t.bw)) / (g + 1) ≠ (8 * 2 ^ t.bw * d + x) / (g + 1)

/-- R82, R88, R92 to R94, R101, R105 to R107, R240: a tile whose checks pass drains into its banks, which become readable, and counts its arrays: a word
within its extents takes the sum, or the bank's old value plus the sum where it accumulates, the other words become 0 or stay; the combiner of T5 adds
the four partial sums in order into arrays 0 to 3. An integer column that the drain changes fails its check: its array is fenced and recovery marked.
Rests on the model's choices of log entries 84, 93, 108. -/
def Obligations.TileChecks : Prop :=
  (∀ (s : State) (p : Fin 68) (t : TileJob) (rest : List TileJob), (s.bole p.val).tiles = t :: rest → s.pow.paused = false →
    (∀ n, n < 16 → t.arrayOk [] (s.rd (F.arrCfg_fpSlack.at (blBase p.val))) n = true) → t.skipped [] = 0 → (∀ e ∈ (s.bole p.val).arrays, e.2.fenced = false) →
    (∀ c, tget s.cmds t.slot = some c → c.fault = none) →
    exec (.tileCheckComplete p []) s = .next (State.settle (State.setBole
      (s.inc2 (F.chkTilesLo_tiles.at (blBase p.val)) (F.chkTilesHi_tiles.at (blBase p.val)) (if t.shape = 6 ∧ ∃ r ∈ rest, r.shape = 6 ∧ r.bank = t.bank then 0 else 16))
      p.val ((Bole.drain { s.bole p.val with tiles := rest } t []).makeReadable t rest)))) ∧
  (∀ (s : State) (p : Fin 68) (l : List Upset), (s.bole p.val).tiles = [] → s.pow.paused = false → (∀ e ∈ (s.bole p.val).arrays, e.2.fenced = false) →
    exec (.tileCheckComplete p l) s = .next s.settle) ∧
  (∀ (b : Bole) (t : TileJob) (g w : Nat), t.shape = 5 → g < 4 → w < 1024 → t.bank < 2 → (b.drain t []).word t.bank g w =
    if 32 * (g / 2) + w / 32 < t.mv ∧ 32 * (g % 2) + w % 32 < t.nv then
      (let v n := (t.sums.getD n []).getD w 0
        let r := accAdd t.flt (accAdd t.flt (accAdd t.flt (v g) (v (4 + g))) (v (8 + g))) (v (12 + g))
        if t.acc then accAdd t.flt (b.word t.bank g w) r else r)
    else if t.acc then b.word t.bank g w else 0) ∧
  (∀ (b : Bole) (t : TileJob), t.shape = 5 → t.bank < 2 → ∀ e ∈ (b.drain t []).accBanks, e.1 / 4 % 2 = t.bank → e.1 / 8 < 4) ∧
  (∀ (b : Bole) (t : TileJob) (n w : Nat), t.shape < 5 → n < 16 → w < 1024 → t.bank < 2 → (b.drain t []).word t.bank n w =
    if 32 * (n / (tileGeom t.shape 0).2.2.2) + w / 32 < t.mv ∧ 32 * (n % (tileGeom t.shape 0).2.2.2) + w % 32 < t.nv then
      (if t.acc then accAdd t.flt (b.word t.bank n w) ((t.sums.getD n []).getD w 0) else (t.sums.getD n []).getD w 0)
    else if t.acc then b.word t.bank n w else 0) ∧
  (∀ (b : Bole) (t : TileJob) (n w : Nat), n < 16 → w < 1024 → t.bank < 2 → (b.drain t []).word (1 - t.bank) n w = b.word (1 - t.bank) n w) ∧
  (∀ (b : Bole) (t : TileJob) (n w : Nat), t.shape = 6 → n < 16 → w < 1024 → t.bank < 2 → ¬ (w / 32 / 16 = t.ctx / 2 ∧ w % 32 / 16 = t.ctx % 2) →
    (b.drain t []).word t.bank n w = b.word t.bank n w) ∧
  (∀ (b : Bole) (t : TileJob) (rest : List TileJob), (∀ r ∈ rest, ¬ (r.slot = t.slot ∧ r.ctx = t.ctx ∧ r.bank = t.bank)) →
    (b.makeReadable t rest).accBanks = b.accBanks.map fun e => (e.1,
      if e.2.slot = t.slot ∧ e.2.ctx = t.ctx ∧ e.1 / 4 % 2 = t.bank then { e.2 with readable := true } else e.2)) ∧
  ∀ (s : State) (p : Fin 68) (t : TileJob) (rest : List TileJob) (a : Fin 16) (w : Fin 1024) (v : Word), (s.bole p.val).tiles = t :: rest →
    s.pow.paused = false → t.flt = false → t.shape ≠ 6 → t.byResidue a.val = false → v ≠ (t.sums.getD a.val []).getD w.val 0 →
    (t.column [] a.val (w.val % 32)).1 = (t.column [] a.val (w.val % 32)).2.2 →
    ∃ u : State, exec (.tileCheckComplete p [.drained a w v]) s = .next u.settle ∧ (tgetD (u.bole p.val).arrays a.val ⟨false, 0, 0⟩).fenced = true ∧
      u.rd F.ftStat_recovering = 1

/-- R94 to R96, R125, R172: a driver's test of an array reports and decides nothing; a test of the module's own lifts the fence and counts a
transient, or puts the array's understory row in place of the row that failed; a write of BL_ARR_DIAG starts a test on a bole that is offline or fenced
and is refused elsewhere; a scrub of a bole that changes hands zeroes it, shows its new owner and brings it online.
Rests on the model's choices of log entries 93, 108. -/
def Obligations.DiagnosisAndScrubs : Prop :=
  (∀ (s : State) (p : Fin 68) (d : Diagnosis), (s.bole p.val).diag = none → exec (.diagnosisComplete p d) s = .next s.settle) ∧
  (∀ (s : State) (p : Fin 68) (a : Nat) (d : Diagnosis), (s.bole p.val).diag = some (a, true) →
    ∃ u : State, exec (.diagnosisComplete p d) s = .next u.settle ∧ u = { s with regs := u.regs, boles := tput s.boles p.val { s.bole p.val with diag := none } } ∧
      u.rd (F.arrDiag_busy.at (blBase p.val)) = 0 ∧ u.rd (F.arrDiag_done.at (blBase p.val)) = 1 ∧
      u.rd (F.arrDiag_fail.at (blBase p.val)) = b2n (d != .clean) ∧
      (∀ r, d = .row r → u.rd (F.arrDiag_row.at (blBase p.val)) = r.val ∧ u.rd (F.arrDiag_rowValid.at (blBase p.val)) = 1)) ∧
  (∀ (s : State) (p : Fin 68) (a : Nat), (s.bole p.val).diag = some (a, false) → (s.bole p.val).tiles = [] →
    ∃ u : State, exec (.diagnosisComplete p .clean) s = .next u.settle ∧ (tgetD (u.bole p.val).arrays a ⟨false, 0, 0⟩).fenced = false ∧
      (tgetD (u.bole p.val).arrays a ⟨false, 0, 0⟩).transients = (tgetD (s.bole p.val).arrays a ⟨false, 0, 0⟩).transients + 1 ∧
      u.cmds = s.cmds ∧ ∀ q, q ≠ p.val → u.bole q = s.bole q) ∧
  (∀ (s : State) (p a : Nat) (r : Fin 32), a < 16 → (s.spareByte p a).testBit 5 = false → ∃ u : State, s.diagnosed p a (.row r) = (u.retime).log 0x409 .bole p a r.val ∧
    u.spareByte p a = r.val + 32 ∧ (∀ c, c < 16 → c ≠ a → u.spareByte p c = s.spareByte p c) ∧ u = { s with regs := u.regs }) ∧
  (∀ (s : State) (p : Fin 68) (v : Word), v.toNat.testBit 4 = true → v.toNat.testBit 6 = false → v.toNat.testBit 14 = false →
    (s.rd (F.arrDiag_busy.at (blBase p.val)) = 0 → (s.rd (F.status_state.at (blBase p.val)) = 0 ∨ s.rd (F.status_state.at (blBase p.val)) = 5) →
      exec (.blArrDiagStart p v) s = .next (State.settle (State.wr (State.setBole (s.wr (F.arrDiag_array.at (blBase p.val)) (bits v.toNat 0 4)) p.val
        { s.bole p.val with diag := some (bits v.toNat 0 4, true) }) (F.arrDiag_busy.at (blBase p.val)) 1))) ∧
    (s.rd (F.arrDiag_busy.at (blBase p.val)) = 1 →
      exec (.blArrDiagStart p v) s = .next (State.settle (s.wr (F.arrDiag_refused.at (blBase p.val)) 1))) ∧
    (s.rd (F.arrDiag_busy.at (blBase p.val)) = 0 → s.rd (F.status_state.at (blBase p.val)) ≠ 0 → s.rd (F.status_state.at (blBase p.val)) ≠ 5 →
      exec (.blArrDiagStart p v) s = .next (State.settle ((s.wr (F.arrDiag_array.at (blBase p.val)) (bits v.toNat 0 4)).wr (F.arrDiag_refused.at (blBase p.val)) 1)))) ∧
  (∀ (s : State) (p : Fin 68) (ok : Bool), (s.bole p.val).scrubFor = 0 → exec (.boleScrubComplete p ok) s = .next s.settle) ∧
  ∀ (s : State) (p : Fin 68) (n : Nat), (s.bole p.val).scrubFor = 2 → s.logOf p.val = some n → n < 64 → s.physOf n = p.val →
    tget s.sched.groveMoves (n / 16) = none → s.rd (F.status_state.at (blBase p.val)) = 2 → s.sched.switching.contains n = false →
    ∃ u : State, exec (.boleScrubComplete p true) s = .next u.settle ∧ u.bole p.val = { Bole.zeroed (s.bole p.val) with scrubFor := 0 } ∧
      u.rd (F.status_state.at (blBase p.val)) = (if p.val % 17 = 16 then 4 else 1) ∧ u.rd (F.scrub_busy.at (blBase p.val)) = 0 ∧
      u.rd (F.scrub_count.at (blBase p.val)) = (s.rd (F.scrub_count.at (blBase p.val)) + 1) % 2 ^ F.scrub_count.w ∧
      u.rd (F.epoch_epoch.at (blBase p.val)) = s.rd F.scEpochCur_epoch ∧
      (∀ q : Fin 16, (s.ownMask q.val).testBit n = true → (∀ r, r < q.val → (s.ownMask r).testBit n = false) →
        u.rd (F.owner_partition.at (blBase p.val)) = q.val ∧ u.rd (F.owner_owned.at (blBase p.val)) = 1) ∧
      u.sched.handover = s.sched.handover.filter (fun h => h.1 != n) ∧ u.sched.slices = s.sched.slices.filter (fun e => !(compBoles e.1).contains n) ∧
      u = { s with regs := u.regs, boles := u.boles, sched := { s.sched with
        handover := u.sched.handover, handed := s.sched.handed.filter (· != n), slices := u.sched.slices } } ∧ ∀ q, q ≠ p.val → u.bole q = s.bole q
/-! ### Units: issue, MV, VEC (03, 04, 06) -/

/-- R203 to R205, R232: a unit instruction whose checks fail ends with the code of the first that fails; one that follows another in its unit's
queue, or waits for a bank, is queued with the registers it issued with; otherwise its work is done and it takes its place in the unit's queue with its
token.
Rests on the model's choices of log entries 77, 84, 108. -/
def Obligations.UnitIssue : Prop :=
  (∀ (s : State) (p : Fin 68) (x : Fin 4) (e : UnitErr) (k : Nat) (i : Iss) (c a : Nat) (l : Bool), ∀ r ∈ unitRows p x e k, issues s p x r.2.1 i →
    r.2.2.check (opOfIss i) s = .error (.data c a l) →
    exec r.1 s = .next (State.settle (s.failInstr p.val x.val i.c.pc i.c.slot (.data c a l)))) ∧
  (∀ (s : State) (p : Fin 68) (x : Fin 4) (e : UnitErr) (k : Nat) (i : Iss), ∀ r ∈ unitRows p x e k, issues s p x r.2.1 i →
    r.2.2.check (opOfIss i) s = .ok () → i.c.unitHeld (unitOf i.w) = true →
    exec r.1 s = .next (State.settle ((s.pushFlight p.val x.val i.c.slot (inFlight (i.c.regs i.w) true)).issued p.val x.val))) ∧
  (∀ (s : State) (p : Fin 68) (x : Fin 4) (k : Nat) (i : Iss), ∀ r ∈ unitRows p x .none k, issues s p x r.2.1 i →
    r.2.2.check (opOfIss i) s = .ok () → i.c.unitHeld (unitOf i.w) = false →
    (∀ t, r.2.2.run (opOfIss i) s = .ok t → exec r.1 s = .next (afterUnit t i)) ∧
    (r.2.2.run (opOfIss i) s = .error .wait →
      exec r.1 s = .next (State.settle ((s.pushFlight p.val x.val i.c.slot (inFlight (i.c.regs i.w) true)).issued p.val x.val))) ∧
    (∀ c a l, r.2.2.run (opOfIss i) s = .error (.data c a l) →
      exec r.1 s = .next (State.settle (s.failInstr p.val x.val i.c.pc i.c.slot (.data c a l))))) ∧
  (∀ (s : State) (p x slot : Nat) (c : IssueCtx) (f : InFlight), tget (s.bole p).ctxs x = some c → c.slot = slot →
    s.pushFlight p x slot f = s.setCtx p x { c with pc := c.pc + 1, blocked := false, flight := c.flight ++ [f] }) ∧
  (∀ (r : Held) (h : Bool), (inFlight r h).unit = unitOf r.word ∧ (inFlight r h).held = (if h then some r else none) ∧
    (inFlight r h).tok = (if r.word.testBit 19 then some (bits r.word 16 3) else none)) ∧
  (∀ (s : State) (p : Fin 68) (x : Fin 4) (u : Fin 4) (e : UnitErr) (c : IssueCtx) (m : Cmd) (l : CutList) (f : InFlight),
    tget (s.bole p.val).ctxs x.val = some c → tget s.cmds c.slot = some m → tget s.lists m.desc.op = some l → m.phase = .running →
    s.pow.paused = false → c.flight.find? (fun f => f.unit == unitNo u.val) = some f → f.held = none → (u.val = 3 → s.boomOut p.val x.val c.slot = false) →
    exec (.unitInstructionComplete p x u e) s = .next (State.settle (s.setCtx p.val x.val { c with flight := dropFlight (unitNo u.val) c.flight, blocked := false }))) ∧
  (∀ (s t : State) (p : Fin 68) (x : Fin 4) (u : Fin 4) (c d : IssueCtx) (m : Cmd) (l : CutList) (f : InFlight) (r : Held),
    tget (s.bole p.val).ctxs x.val = some c → tget s.cmds c.slot = some m → tget s.lists m.desc.op = some l → m.phase = .running →
    s.pow.paused = false → c.flight.find? (fun f => f.unit == unitNo u.val) = some f → f.held = some r →
    (unitSpecOf r.word).check ⟨p.val, x.val, c.slot, m, l, r⟩ s = .ok () → (unitSpecOf r.word).run ⟨p.val, x.val, c.slot, m, l, r⟩ s = .ok t → tget (t.bole p.val).ctxs x.val = some d → d.slot = c.slot →
    exec (.unitInstructionComplete p x u .none) s = .next (State.settle ((t.unitClean p.val (unitNo u.val)).setCtx p.val x.val
      { d with flight := dropFlight (unitNo u.val) d.flight, blocked := false }))) ∧
  ∀ (s : State) (p : Fin 68) (x : Fin 4) (u : Fin 4) (e : UnitErr) (c : IssueCtx), tget (s.bole p.val).ctxs x.val = some c →
    (∀ f ∈ c.flight, f.unit ≠ unitNo u.val) → exec (.unitInstructionComplete p x u e) s = .next s.settle

/-- R111 to R115, R213: an MV whose checks pass, with no scale bound, writes its outputs to the scratchpad, added to what is there where it says so: in dot
mode one output per streamed row, the sum of the row's products with the vector; in axpy mode the sum of the rows, each times its element of the
vector; and counts the cycles without data.
Rests on the model's choices of log entries 83, 114. -/
def Obligations.MatrixVector : Prop :=
  (∀ (s : State) (p : Fin 68) (x : Fin 4) (k : Nat) (i : Iss) (m : Mv) (d : List Byte) (out : List Word) (old : List Byte) (axpy : Bool),
    issues s p x (fun w => opOf w == 0x18 && w.testBit 20 == axpy) i → m = Mv.of i.w → mvCheck (opOfIss i) s = .ok () → i.c.unitHeld .mvp = false →
    i.c.scales.getD 2 none = none → i.c.scales.getD 3 none = none →
    s.locRead i.part p.val ((i.c.regs i.w).aop 32) m.streamBytes = .ok d →
    out = m.outputs ((List.range m.rows).map fun n => (List.range (m.kb * 32)).map (elemAt m.fs (d.drop (n * m.pitch))))
      ((List.range m.vecLen).map (elemAt m.fv ((s.bole p.val).bytes ((i.c.regs i.w).aop 56).addr (elemBytes m.fv m.vecLen)))) [] [] false →
    old = (s.bole p.val).bytes ((i.c.regs i.w).aop 101).addr (4 * m.outLen) →
    ∃ t : State, exec (if axpy then .mvAxpy p x .none k else .mvDot p x .none k) s = .next (afterUnit t i) ∧
      (t.bole p.val).spad = mwrite 0 (s.bole p.val).spad ((i.c.regs i.w).aop 101).addr (packElems 8 (out.zipIdx.map fun (v, j) =>
        (if m.acc then accAdd ((mvPair m.fs m.fv).getD false) (BitVec.ofNat 32 (elemAt 8 old j)) v else v).toNat)) ∧
      t.rd2 (F.mvpStallLo_cycles.at (blBase p.val)) (F.mvpStallHi_cycles.at (blBase p.val)) =
        (s.rd2 (F.mvpStallLo_cycles.at (blBase p.val)) (F.mvpStallHi_cycles.at (blBase p.val)) + k) % 2 ^ 64 ∧
      t = { s with regs := t.regs, boles := t.boles, cmds := t.cmds } ∧ (∀ q, q ≠ p.val → t.bole q = s.bole q) ∧
      t.bole p.val = { s.bole p.val with spad := (t.bole p.val).spad, spadLive := (t.bole p.val).spadLive }) ∧
  (∀ (m : Mv) (rows : List (List Nat)) (vec : List Nat) (n : Nat) (r : List Nat), m.axpy = false → mvPair m.fs m.fv = some false → rows[n]? = some r →
    (m.outputs rows vec [] [] false)[n]? = some (dotInt ((r.map (elemInt m.fs)).zip (vec.map (elemInt m.fv))))) ∧
  (∀ (m : Mv) (rows : List (List Nat)) (vec : List Nat) (j : Nat), m.axpy = true → mvPair m.fs m.fv = some false → j < m.kb * 32 → rows.length = vec.length →
    (m.outputs rows vec [] [] false)[j]? = some (dotInt ((rows.map fun r => elemInt m.fs (r.getD j 0)).zip (vec.map (elemInt m.fv))))) ∧
  (∀ (m : Mv) (rows : List (List Nat)) (vec : List Nat) (n : Nat) (r : List Nat), m.axpy = false → mvPair m.fs m.fv = some true → rows[n]? = some r →
    (m.outputs rows vec [] [] false)[n]? = some (mvDotFlt (r.map (FV.dec m.fs)) (vec.map (FV.dec m.fv)) fun _ => FV.mul (.fin false 1 0) (.fin false 1 0))) ∧
  (∀ m : Mv, m.axpy = false → m.outLen = m.rows ∧ m.vecLen = 32 * m.kb) ∧ ∀ m : Mv, m.axpy = true → m.outLen = 32 * m.kb ∧ m.vecLen = m.rows

/-- R117, R119 to R121, R130, R131, R133, R143 to R145, R214, R215: VEC arithmetic, functions, dropout and draws write one word per element to d,
computed element by element from their sources; a reduction folds each vector of 128 through a tree into a lane of the reduction accumulator, which the
store writes out and clears; a first source in the accumulator file is waited for until it is readable.
Rests on the model's choices of log entries 1, 76, 80, 81, 82, 83, 108, 116. -/
def Obligations.VectorOperations : Prop :=
  (∀ (s : State) (p : Fin 68) (x : Fin 4) (i : Iss) (v : Vec) (a : List Nat), issues s p x
      (fun w => opOf w == 0x20 && (vecArithOps (bits w 20 8) || !vecOps (bits w 20 8))) i → v = Vec.of i.w → vecArithOps v.vop = true →
    vecArithCheck (opOfIss i) s = .ok () → i.c.unitHeld .vu = false → s.vecSrc (opOfIss i) v 8 = .ok a →
    exec (.vecArith p x .none) s = .next (afterUnit (s.vecDone (opOfIss i) v (packElems 8 (a.zipIdx.map fun (y, j) =>
      ((if v.vop < 0x10 then vecFp else vecInt) v.vop (BitVec.ofNat 32 y)
        (BitVec.ofNat 32 ((if vecTwo v.vop then s.vecWords (opOfIss i) 56 v.len else []).getD j 0))
        (BitVec.ofNat 32 ((if v.vop = 3 ∨ v.vop = 0x1B then s.vecWords (opOfIss i) 80 v.len else []).getD j 0))).toNat))) i)) ∧
  (∀ (s : State) (p : Fin 68) (x : Fin 4) (i : Iss), issues s p x (fun w => opOf w == 0x20 && (vecArithOps (bits w 20 8) || !vecOps (bits w 20 8))) i →
    vecOps (bits i.w 20 8) = false → exec (.vecArith p x .none) s = .next (State.settle (s.failInstr p.val x.val i.c.pc i.c.slot (.data 0x601 0)))) ∧
  (∀ a b d : Word, vecInt 0x10 a b d = a + b ∧ vecInt 0x11 a b d = a - b ∧ vecInt 0x12 a b d = a * b ∧ vecInt 0x15 a b d = a &&& b ∧
    vecInt 0x16 a b d = a ||| b ∧ vecInt 0x17 a b d = a ^^^ b ∧ vecInt 0x18 a b d = (if a.toInt ≤ b.toInt then a else b) ∧
    vecInt 0x19 a b d = (if a.toInt ≤ b.toInt then b else a) ∧ vecInt 0x1A a b d = (if a.toInt < b.toInt then 1 else 0) ∧
    vecInt 0x1B a b d = (if a ≠ 0 then b else d) ∧
    (b.toNat < 32 → vecInt 0x13 a b d = a <<< b.toNat ∧ vecInt 0x14 a b d = a.sshiftRight b.toNat)) ∧
  (∀ a b d : Word, vecFp 0 a b d = ((FV.vu a).add (FV.vu b)).to32 ∧ vecFp 1 a b d = ((FV.vu a).add (FV.vu b).neg).to32 ∧
    vecFp 2 a b d = ((FV.vu a).mul (FV.vu b)).to32 ∧ vecFp 3 a b d = (((FV.vu a).mul (FV.vu b)).add (FV.vu d)).to32 ∧
    vecFp 6 a b d = (FV.vu a).abs.to32 ∧ vecFp 7 a b d = (FV.vu a).neg.to32 ∧ vecFp 8 a b d = (if (FV.vu a).lt (FV.vu b) then 1 else 0) ∧
    ((FV.vu a = .nan ∨ FV.vu b = .nan) → vecFp 4 a b d = 0x7FC00000 ∧ vecFp 5 a b d = 0x7FC00000)) ∧
  (∀ (s : State) (p : Fin 68) (x : Fin 4) (i : Iss) (v : Vec) (a : List Nat), issues s p x (fun w => opOf w == 0x20 && bits w 22 6 == 0xC) i → v = Vec.of i.w →
    vecFuncCheck (opOfIss i) s = .ok () → i.c.unitHeld .vu = false → s.vecSrc (opOfIss i) v 7 = .ok a →
    exec (.vecFunction p x .none) s = .next (afterUnit (s.vecDone (opOfIss i) v (packElems 7 (a.map fun y => (vecFuncOp v.vop (BitVec.ofNat 32 y)).toNat))) i)) ∧
  (vecFuncOp 0x30 0xFF800000 = 0 ∧ vecFuncOp 0x30 0x7F800000 = 0x7F800000 ∧ vecFuncOp 0x31 0 = 0x7F800000 ∧ vecFuncOp 0x31 0x80000000 = 0xFF800000 ∧
    vecFuncOp 0x32 0xBF800000 = 0x7FC00000 ∧ vecFuncOp 0x32 0x7F800000 = 0 ∧ vecFuncOp 0x33 0xFF800000 = 0 ∧ vecFuncOp 0x33 0x7F800000 = 0x3F800000 ∧
    vecFuncOp 0x30 0x7F800001 = 0x7FC00000) ∧
  (∀ (vop : Nat) (n : Bool) (m : Nat) (e : Int) (x : Word), 0x800000 + funcUlp vop ≤ (funcExact vop n m e).toNat % 2 ^ 31 →
    (funcExact vop n m e).toNat % 2 ^ 31 ≤ 0x7F7FFFFF →
    (funcResult vop n m e x).toNat / 2 ^ 31 = (funcExact vop n m e).toNat / 2 ^ 31 ∧
      (funcResult vop n m e x).toNat % 2 ^ 31 ≤ (funcExact vop n m e).toNat % 2 ^ 31 + funcUlp vop ∧
      (funcExact vop n m e).toNat % 2 ^ 31 ≤ (funcResult vop n m e x).toNat % 2 ^ 31 + funcUlp vop) ∧
  (∀ (s : State) (p : Fin 68) (x : Fin 4) (i : Iss) (v : Vec) (a : List Nat) (acc : Tab Word),
    issues s p x (fun w => opOf w == 0x20 && 0x40 ≤ bits w 20 8 && bits w 20 8 ≤ 0x42) i → v = Vec.of i.w → v.cnt = 1 →
    vecReduceCheck (opOfIss i) s = .ok () → i.c.unitHeld .vu = false → s.vecSrc (opOfIss i) v 7 = .ok a →
    acc = wput (s.bole p.val).redAcc 0 (redOp v.vop (tgetD (s.bole p.val).redAcc 0 0)
      (((pairTree (redOp v.vop) 7 ((a.take 128).map (BitVec.ofNat 32))).head?).getD 0)) →
    exec (.vecReduce p x .none) s = .next (afterUnit ((s.vecDone (opOfIss i) v []).setBole p.val
      { (s.vecDone (opOfIss i) v []).bole p.val with redAcc := acc }) i)) ∧
  (∀ (s : State) (p : Fin 68) (x : Fin 4) (i : Iss), issues s p x (isVec 0x48) i → vecStoreCheck (opOfIss i) s = .ok () → i.c.unitHeld .vu = false →
    ∃ t : State, exec (.vecReduceStore p x .none) s = .next (afterUnit t i) ∧ (t.bole p.val).redAcc = [] ∧
      (∀ j, j < 128 → elemAt 8 ((t.bole p.val).bytes ((i.c.regs i.w).aop 80).addr 512) j = (tgetD (s.bole p.val).redAcc j 0).toNat) ∧
      t = { s with boles := t.boles } ∧ ∀ q, q ≠ p.val → t.bole q = s.bole q) ∧
  (∀ (s : State) (p : Fin 68) (x : Fin 4) (i : Iss) (v : Vec) (a : List Nat) (r : ElemRec), issues s p x (isVec 0x50) i → v = Vec.of i.w →
    vecDropCheck (opOfIss i) s = .ok () → i.c.unitHeld .vu = false → s.vecSrc (opOfIss i) v 7 = .ok a → s.elemRec (opOfIss i) = .ok r →
    exec (.vecDropout p x .none) s = .next (afterUnit (s.vecDone (opOfIss i) v (packElems 7 (a.zipIdx.map fun (y, j) =>
      if field ((s.bole p.val).bytes ((i.c.regs i.w).aop 56).addr 8) 0 4 ≤ (opOfIss i).drawAt r j then
        (vecFp 2 (BitVec.ofNat 32 y) (BitVec.ofNat 32 (field ((s.bole p.val).bytes ((i.c.regs i.w).aop 56).addr 8) 4 4)) 0).toNat else 0))) i)) ∧
  (∀ (s : State) (p : Fin 68) (x : Fin 4) (i : Iss) (r : ElemRec), issues s p x (isVec 0x51) i → vecDrawCheck (opOfIss i) s = .ok () →
    i.c.unitHeld .vu = false → s.elemRec (opOfIss i) = .ok r →
    exec (.vecDraw p x .none) s = .next (afterUnit (s.spadWrite p.val ((i.c.regs i.w).aop 80).addr
      (packElems 8 ((List.range (Vec.of i.w).len).map fun j => (opOfIss i).drawAt r j))) i)) ∧
  (∀ (u : UnitOp) (r : ElemRec) (k : Nat), u.code.usesRandom = true → u.drawAt r k = drawOf u.cmd.seed u.cmd.desc.step r.tid (r.idx k)) ∧
  (∀ (s : State) (u : UnitOp) (v : Vec) (f : Nat), v.acc = true →
    ((s.bole u.p).accReadable (AccSrc.of u.w 32) v.len = false → s.vecSrc u v f = .error .wait) ∧
    ((s.bole u.p).accReadable (AccSrc.of u.w 32) v.len = true → s.vecSrc u v f = .ok (((s.bole u.p).accWords (AccSrc.of u.w 32) v.len).map (·.toNat)))) ∧
  ∀ (s : State) (u : UnitOp) (v : Vec) (f : Nat), v.acc = false → s.vecSrc u v f =
    .ok ((List.range v.len).map (elemAt f ((s.bole u.p).bytes (u.r.aop 32).addr (elemBytes f v.len))))

/-- R136 to R141, R146 to R148, R154 to R158: conversions, requantizations and block-quantizes write one narrowed element per source element, count
what was clipped in the statistics slots of their context, and count the elements rounded by draws; a parameter record or a scale that is not valid
ends them without a write.
Rests on the model's choices of log entries 80, 83, 114. -/
def Obligations.VectorNarrowing : Prop :=
  (∀ (s : State) (p : Fin 68) (x : Fin 4) (i : Iss) (v : Vec) (a : List Nat) (res : List Narrow), issues s p x (isVec 0x20) i → v = Vec.of i.w →
    vecConvertCheck (opOfIss i) s = .ok () → i.c.unitHeld .vu = false → s.vecSrc (opOfIss i) v v.fi = .ok a → v.rnd = false →
    scaleUsed (i.c.scales.getD 3 none) v.fi = none → res = (a.map fun c => narrow v.fo false 0 (FV.mul (.fin false 1 0) (vecValue v.fi c))) →
    exec (.vecConvert p x .none) s = .next (afterUnit ((if v.fo = 7 ∨ fmtHolds v.fo v.fi = true then s else s.countNarrow (opOfIss i) v.fo none res).vecDone (opOfIss i) v
      (packElems v.fo (res.map (·.code)))) i)) ∧
  (∀ (s : State) (p : Fin 68) (x : Fin 4) (i : Iss) (v : Vec) (a : List Nat) (d : List Byte) (rq : Requant) (res : List Narrow), issues s p x (isVec 0x28) i →
    v = Vec.of i.w → vecRequantCheck (opOfIss i) s = .ok () → i.c.unitHeld .vu = false → s.vecSrc (opOfIss i) v 8 = .ok a → v.acc = false → v.rnd = false →
    d = (s.bole p.val).bytes ((i.c.regs i.w).aop 56).addr 2048 → rq.mode = false → (∀ c, c < 128 → Requant.of v.fo (d.drop (16 * c)) = some rq) →
    res = (a.map fun y => requant v.fo rq 0 (BitVec.ofNat 32 y)) →
    exec (.vecRequantize p x .none) s = .next (afterUnit (((s.countSr p.val 0).countNarrow (opOfIss i) v.fo none res).vecDone (opOfIss i) v
      (packElems v.fo (res.map (·.code)))) i)) ∧
  (∀ (s : State) (p : Fin 68) (x : Fin 4) (i : Iss) (v : Vec) (a : List Nat) (d : List Byte), issues s p x (isVec 0x28) i → v = Vec.of i.w →
    vecRequantCheck (opOfIss i) s = .ok () → i.c.unitHeld .vu = false → s.vecSrc (opOfIss i) v 8 = .ok a → v.acc = false → v.cnt ≠ 0 →
    d = (s.bole p.val).bytes ((i.c.regs i.w).aop 56).addr 2048 → Requant.of v.fo d = none →
    exec (.vecRequantize p x .none) s = .next (afterUnit (s.vecInvalid (opOfIss i) 0x704 ((i.c.regs i.w).aop 56).addr) i)) ∧
  (∀ (s : State) (p : Fin 68) (x : Fin 4) (i : Iss) (v : Vec) (a : List Nat) (d : List Byte) (res : List Narrow), issues s p x (isVec 0x29) i → v = Vec.of i.w →
    vecFloatRequantCheck (opOfIss i) s = .ok () → i.c.unitHeld .vu = false → s.vecSrc (opOfIss i) v 7 = .ok a → v.acc = false → v.rnd = false →
    d = (s.bole p.val).bytes ((i.c.regs i.w).aop 56).addr 1024 →
    res = (a.zipIdx.map fun (y, j) => narrow v.fo false 0 (((FV.vu (BitVec.ofNat 32 y)).mul (FV.vu (BitVec.ofNat 32 (field d (8 * (j % 128)) 4)))).add
      (FV.vu (BitVec.ofNat 32 (field d (8 * (j % 128) + 4) 4))))) →
    (v.fo ≠ 7 → exec (.vecFloatRequantize p x .none) s = .next (afterUnit ((s.countNarrow (opOfIss i) v.fo none res).vecDone (opOfIss i) v
      (packElems v.fo (res.map (·.code)))) i)) ∧
    (v.fo = 7 → exec (.vecFloatRequantize p x .none) s = .next (afterUnit (s.vecDone (opOfIss i) v (packElems 7 a)) i))) ∧
  (∀ (s : State) (p : Fin 68) (x : Fin 4) (i : Iss) (v : Vec) (a : List Nat) (bs : List (List Narrow × Nat)), issues s p x (isVec 0x2A) i → v = Vec.of i.w →
    vecBlockCheck (opOfIss i) s = .ok () → i.c.unitHeld .vu = false → s.vecSrc (opOfIss i) v 7 = .ok a → v.rnd = false →
    (blocks32 (a.map fun y => (FV.vu (BitVec.ofNat 32 y), 0))).mapM (blockQuant v.fo false) = some bs →
    exec (.vecBlockQuantize p x .none) s = .next (afterUnit (State.spadWrite ((s.countNarrow (opOfIss i) v.fo none (bs.flatMap (·.1))).vecDone (opOfIss i) v
        (packElems v.fo ((bs.flatMap (·.1)).map (·.code)))) p.val ((i.c.regs i.w).aop 56).addr
      (bs.zipIdx.flatMap fun (e, j) => leBytes (scaleSize (v.fo == 2)) (scaleEntry (v.fo == 2) e.2
        ((match i.c.scales.getD 3 none with | some sb => sb.blk | none => 0) + j)))) i)) ∧
  (∀ (s : State) (p : Fin 68) (x : Fin 4) (i : Iss) (v : Vec) (a : List Nat), issues s p x (isVec 0x2A) i → v = Vec.of i.w →
    vecBlockCheck (opOfIss i) s = .ok () → i.c.unitHeld .vu = false → s.vecSrc (opOfIss i) v 7 = .ok a → v.rnd = false →
    (blocks32 (a.map fun y => (FV.vu (BitVec.ofNat 32 y), 0))).mapM (blockQuant v.fo false) = none →
    exec (.vecBlockQuantize p x .none) s = .next (afterUnit (s.vecInvalid (opOfIss i) 0x702 ((i.c.regs i.w).aop 56).addr) i)) ∧
  ∀ (s : State) (u : UnitOp) (fo : Nat) (l : List Narrow) (k : Nat) (t : StatSlot), tget (s.bole u.p).stats k = some t → t.slot = u.slot → t.ctx = u.x →
    t.fmt = fo → t.total + l.length < 2 ^ 64 → t.hi + l.length < 2 ^ 32 → t.lo + l.length < 2 ^ 32 → t.nan + l.length < 2 ^ 32 → t.sat = false →
    tget ((s.countNarrow u fo none l).bole u.p).stats k = some { t with
      total := t.total + l.length, hi := t.hi + (l.filter (·.hi)).length, lo := t.lo + (l.filter (·.lo)).length, nan := t.nan + (l.filter (·.nan)).length }
/-! ### DMA, staging, gating (05, 06, 07) -/

/-- R189, R217, R245, R258, R259, R297: FETCH copies its lines from DRAM or the Landing to its destination and charges its command for what it reads
from DRAM; a zero-compressed source is expanded line by line; with boom each 1 KiB of the data goes on its way to the window of every online
destination, by way of a staging line where it comes from DRAM.
Rests on the model's choices of log entries 78, 83, 108, 117. -/
def Obligations.Fetches : Prop :=
  (∀ (s s1 t : State) (p : Fin 68) (x : Fin 4) (i : Iss) (f : Fetch) (d : List Byte), issues s p x (fun w => opOf w == 0x30 && !w.testBit 20) i → f = Fetch.of i.w →
    fetchSpecCheck (opOfIss i) s = .ok () → i.c.unitHeld .dma = false → f.zc = false →
    s.locRead i.part p.val ((i.c.regs i.w).aop 32) (64 * f.lines) = .ok d →
    s1 = (if ((i.c.regs i.w).aop 32).space = 0 then s.modCmd i.c.slot fun c => { c with dramRd := c.dramRd + 64 * f.lines } else s) →
    s1.locWrite i.part p.val ((i.c.regs i.w).aop 56) d = .ok t →
    exec (.fetch p x .none) s = .next (afterUnit t i)) ∧
  (∀ (s s1 t : State) (p : Fin 68) (x : Fin 4) (i : Iss) (f : Fetch) (d : List Byte) (n : Nat),
    issues s p x (fun w => opOf w == 0x30 && !w.testBit 20) i → f = Fetch.of i.w → fetchSpecCheck (opOfIss i) s = .ok () → i.c.unitHeld .dma = false →
    f.zc = true → ((i.c.regs i.w).aop 32).space = 1 → s.zcRead i.part p.val ((i.c.regs i.w).aop 32) (cdiv f.lines 16) f.lines = .ok d n →
    s1 = s.inc2 (F.zcRdLo_bytes.at (blBase p.val)) (F.zcRdHi_bytes.at (blBase p.val)) n → s1.locWrite i.part p.val ((i.c.regs i.w).aop 56) d = .ok t →
    exec (.fetch p x .none) s = .next (afterUnit t i)) ∧
  (∀ (s : State) (part p a : Nat) (d : List Byte), ∃ t : State, s.locWrite part p ⟨2, a⟩ d = .ok t ∧ t = s.spadWrite p a d ∧
    (t.bole p).spad = mwrite 0 (s.bole p).spad a d ∧ t = { s with boles := t.boles } ∧ ∀ q, q ≠ p → t.bole q = s.bole q) ∧
  (∀ (s s1 : State) (p : Fin 68) (x : Fin 4) (i : Iss) (f : Fetch) (d : List Byte), issues s p x (fun w => opOf w == 0x30 && w.testBit 20) i → f = Fetch.of i.w →
    fetchSpecCheck (opOfIss i) s = .ok () → i.c.unitHeld .dma = false → f.zc = false →
    s.locRead i.part p.val ((i.c.regs i.w).aop 32) (64 * f.lines) = .ok d →
    s1 = (if ((i.c.regs i.w).aop 32).space = 0 then s.modCmd i.c.slot fun c => { c with dramRd := c.dramRd + 64 * f.lines } else s) →
    f.dsts.filter s.boleOnline ≠ [] →
    exec (.fetchBoom p x .none) s = .next (afterUnit (if ((i.c.regs i.w).aop 32).space = 0 then
        { s1 with fills := s1.fills ++ (cutWrites (cdiv d.length 1024) ((i.c.regs i.w).aop 56).addr d).map fun (o, y) =>
            ⟨i.c.slot, p.val, x.val, (s.logOf p.val).getD 0, f.dsts.filter s.boleOnline, f.win, o, y⟩ }
      else { s1 with remote := s1.remote ++ (cutWrites (cdiv d.length 1024) ((i.c.regs i.w).aop 56).addr d).flatMap fun (o, y) =>
        (f.dsts.filter s.boleOnline).map fun n => { src := (s.logOf p.val).getD 0, part := i.part, slot := i.c.slot, p := p.val, ctx := x.val, dst := n,
                                                    win := f.win, off := o, data := y, stage := none, stamp := 0, tag := 0 } }) i)) ∧
  (∀ (s : State) (g : Fin 4), (∀ f ∈ s.fills, f.p / 17 ≠ g.val) → exec (.boomStagingLineFilled g) s = .next s.settle) ∧
  (∀ (s : State) (g : Fin 4) (f : BoomFill) (k : Nat) (c : Cmd), s.fills.find? (fun f => f.p / 17 == g.val) = some f → tget s.cmds f.slot = some c →
    s.segGated g.val 15 = false → (s.rd (F.lndFailed_count.at (cgBase g.val))).testBit 15 = false → k < 192 → (∀ r ∈ s.remote, r.stage ≠ some (g.val, k)) → (∀ j, j < k → ∃ r ∈ s.remote, r.stage = some (g.val, j)) →
    exec (.boomStagingLineFilled g) s = .next (State.settle { State.landWrite { s with fills := s.fills.erase f } (g.val * 2 ^ 23 + 0x7C0000 + 1024 * k) f.data with
      remote := s.remote ++ f.dsts.map fun n => { src := f.src, part := c.desc.part, slot := f.slot, p := f.p, ctx := f.ctx, dst := n, win := f.win, off := f.off,
                                                  data := f.data, stage := some (g.val, k), stamp := 0, tag := 0 } })) ∧
  (∀ (b : List Byte), b.length = 64 → zcExpand (zcBlock b).1 (zcBlock b).2 = some b) ∧
  ∀ (b : List Byte), b.length = 64 → (zcBlock b).2.length = 8 * (zcBlock b).1 ∧ (zcBlock b).1 = 1 + cdiv (b.filter (· != 0)).length 8

/-- R218 to R221, R406, R494: a store PUT writes its lines into the private region of an output that the command declares, and extends it; outside
every such region it fails with 0x0607; a reduction PUT writes nothing into the output: its entry waits in the staging deck with its ticket.
Rests on the model's choices of log entries 11, 83, 108. -/
def Obligations.Puts : Prop :=
  (∀ (s t : State) (p : Fin 68) (x : Fin 4) (i : Iss) (f : Put) (d : List Byte) (top : Nat), issues s p x (fun w => opOf w == 0x34 && bits w 22 2 == 0) i →
    f = Put.of i.w → putCheck (opOfIss i) s = .ok () → i.c.unitHeld .dma = false → s.putData (opOfIss i) f = .ok d → f.zc = false →
    s.regionEnd (opOfIss i) f.arg [(((i.c.regs i.w).aop 56).addr, d)] = some top → i.cmd.unstored f.arg = false → s.sendWins i.part = [] →
    s.dramWrite i.part ((i.c.regs i.w).aop 56).addr d = some t →
    exec (.putStore p x .none) s = .next (afterUnit (State.putRelease (t.modCmd i.c.slot fun c => { c.wrote f.arg top with
      stored := c.stored ++ [(((i.c.regs i.w).aop 56).addr, d.length)], dramWr := c.dramWr + d.length }) (opOfIss i) f) i)) ∧
  (∀ (s : State) (p : Fin 68) (x : Fin 4) (i : Iss) (f : Put) (d : List Byte), issues s p x (fun w => opOf w == 0x34 && bits w 22 2 == 0) i →
    f = Put.of i.w → putCheck (opOfIss i) s = .ok () → i.c.unitHeld .dma = false → s.putData (opOfIss i) f = .ok d → f.zc = false →
    s.regionOf i.cmd i.code f.arg ((i.c.regs i.w).aop 56).addr d.length = none →
    exec (.putStore p x .none) s = .next (State.settle (s.failInstr p.val x.val i.c.pc i.c.slot (.data 0x607 ((i.c.regs i.w).aop 56).addr)))) ∧
  (∀ (s : State) (u : UnitOp) (arg a o : Nat) (d : List Byte), s.regionOf u.cmd u.code arg a d.length = some o → s.regionEnd u arg [(a, d)] = some (o + d.length)) ∧
  (∀ (s u : State) (p : Fin 68) (x : Fin 4) (i : Iss) (f : Put) (d : List Byte) (b : BufRef) (o : Nat), issues s p x (fun w => opOf w == 0x34 && bits w 22 2 != 0) i →
    f = Put.of i.w → putCheck (opOfIss i) s = .ok () → i.c.unitHeld .dma = false → s.putData (opOfIss i) f = .ok d →
    s.regionOf i.cmd i.code f.arg ((i.c.regs i.w).aop 56).addr d.length = some o → s.sendWins i.part = [] →
    s.takeStage i.c.slot i.cmd (s.clsOf i.cmd == 0) (s.stageDeck i.part) (cdiv d.length (s.bufSize (s.stageDeck i.part))) = .got [b] u →
    exec (.putReduce p x .none) s = .next (afterUnit (State.putRelease ((u.dramPut (u.bufAddr b) (d.take (u.bufSize b.deck))).modCmd i.c.slot fun c =>
      { c.wrote f.arg (o + d.length) with
        reds := c.reds ++ [{ arg := f.arg, ticket := (i.c.regs i.w).ir f.tk, red := f.red, dst := ((i.c.regs i.w).aop 56).addr, data := d, bufs := [b] }],
        dramWr := c.dramWr + d.length }) (opOfIss i) f) i)) ∧
  (∀ (s : State) (p : Fin 68) (x : Fin 4) (i : Iss) (f : Put) (d : List Byte) (o : Nat), issues s p x (fun w => opOf w == 0x34 && bits w 22 2 != 0) i →
    f = Put.of i.w → putCheck (opOfIss i) s = .ok () → i.c.unitHeld .dma = false → s.putData (opOfIss i) f = .ok d →
    s.regionOf i.cmd i.code f.arg ((i.c.regs i.w).aop 56).addr d.length = some o →
    0 < pieceBytes (s.sendPieces i.part ((i.c.regs i.w).aop 56).addr d.length) →
    exec (.putReduce p x .none) s = .next (State.settle (s.failInstr p.val x.val i.c.pc i.c.slot (.data 0xE0B ((i.c.regs i.w).aop 56).addr)))) ∧
  (∀ (s : State) (u : UnitOp) (f : Put), f.acc = false → s.putData u f = .ok ((s.bole u.p).bytes (u.r.aop 32).addr (64 * f.lines)) ∧ s.putRelease u f = s) ∧
  ∀ (s : State) (c : Cmd) (l : CutList) (arg a n o : Nat), s.regionOf c l arg a n = some o → l.outMask.testBit arg = true ∧ argKind (c.desc.arg arg) ≠ 0 ∧
    argKind (c.desc.arg arg) ≠ 1 ∧ argKind (c.desc.arg arg) ≠ 6 ∧ argKind (c.desc.arg arg) ≠ 7

/-- R181 to R183, R190: a gate request is stored, and a bank whose bit it clears begins to return; a requested bank gates, and loses its contents,
once no window covers it, no write to it is on its way and its bole is idle; a bank is back in service, all zero, when its return ends; a segment that its scrub finds bad goes out of
service.
Rests on the model's choices of log entries 13, 85, 108. -/
def Obligations.GatingAndLandingScrubs : Prop :=
  (∀ (s : State) (hi : Bool) (n : Fin 68) (v : Word), ∃ u : State, exec (.spadGateRequest false hi n v) s = .next u.settle ∧
    (hi = false → u.rd (F.spadGateReqLo_banks.at (blBase n.val)) = v.toNat % 2 ^ F.spadGateReqLo_banks.w ∧
      u.rd (F.spadGateReqHi_banks.at (blBase n.val)) = s.rd (F.spadGateReqHi_banks.at (blBase n.val))) ∧
    (hi = true → u.rd (F.spadGateReqHi_banks.at (blBase n.val)) = v.toNat % 2 ^ F.spadGateReqHi_banks.w ∧
      u.rd (F.spadGateReqLo_banks.at (blBase n.val)) = s.rd (F.spadGateReqLo_banks.at (blBase n.val))) ∧
    u.rd2 (F.spadGateStatLo_banks.at (blBase n.val)) (F.spadGateStatHi_banks.at (blBase n.val)) =
      s.rd2 (F.spadGateStatLo_banks.at (blBase n.val)) (F.spadGateStatHi_banks.at (blBase n.val)) &&&
        u.rd2 (F.spadGateReqLo_banks.at (blBase n.val)) (F.spadGateReqHi_banks.at (blBase n.val)) ∧
    u = { s with regs := u.regs, boles := u.boles } ∧ (u.bole n.val).spad = (s.bole n.val).spad) ∧
  (∀ (s : State) (hi : Bool) (n : Fin 68) (v : Word), ∃ u : State, exec (.spadGateRequest true hi n v) s = .next u.settle ∧
    u.rd (F.lndGateReq_mask.at (cgBase (n.val % 4))) = v.toNat % 2 ^ 16 ∧
    u.rd (F.lndGateStat_mask.at (cgBase (n.val % 4))) = s.rd (F.lndGateStat_mask.at (cgBase (n.val % 4))) &&& (v.toNat % 2 ^ 16) ∧
    u = { s with regs := u.regs, lands := u.lands } ∧ (u.land (n.val % 4)).mem = (s.land (n.val % 4)).mem) ∧
  (∀ (s : State) (n : Fin 68) (k : Fin 48) (m : Nat), s.logOf n.val = some m → s.inFlightOn m = 0 → (∀ r ∈ s.remote, r.dst ≠ m) → (∀ e ∈ (s.bole n.val).wins, e.2.live = false) →
    (s.rd2 (F.spadGateReqLo_banks.at (blBase n.val)) (F.spadGateReqHi_banks.at (blBase n.val))).testBit k.val = true →
    (s.rd2 (F.spadGateStatLo_banks.at (blBase n.val)) (F.spadGateStatHi_banks.at (blBase n.val))).testBit k.val = false →
    ∃ u : State, exec (.bankGateEntry false n k) s = .next u.settle ∧
      (u.rd2 (F.spadGateStatLo_banks.at (blBase n.val)) (F.spadGateStatHi_banks.at (blBase n.val))).testBit k.val = true ∧
      u.bole n.val = { s.bole n.val with
        spad := (s.bole n.val).spad.filter fun c => spadBank c.1 != k.val, ungating := (s.bole n.val).ungating.filter fun j => j != k.val } ∧
      u = { s with regs := u.regs, boles := u.boles } ∧ ∀ q, q ≠ n.val → u.bole q = s.bole q) ∧
  (∀ (s : State) (n : Fin 68) (k : Fin 48), ((s.rd2 (F.spadGateReqLo_banks.at (blBase n.val)) (F.spadGateReqHi_banks.at (blBase n.val))).testBit k.val = false ∨
      ∃ m, s.logOf n.val = some m ∧ ∃ e ∈ s.cmds, e.2.on m = true ∧ e.2.phase ≠ .suspended) → exec (.bankGateEntry false n k) s = .next s.settle) ∧
  (∀ (s : State) (n : Fin 68) (k : Fin 48), exec (.bankUngateComplete false n k) s = .next (State.settle (s.setBole n.val { s.bole n.val with
      ungating := (s.bole n.val).ungating.filter (· != k.val) })) ∧
    exec (.bankUngateComplete true n k) s = .next (State.settle (s.setLand (n.val % 4) { s.land (n.val % 4) with
      ungating := (s.land (n.val % 4)).ungating.filter (· != k.val) }))) ∧
  (∀ (s : State) (g : Fin 4) (k : Fin 32) (ok : Bool), k.val ∉ (s.land g.val).scrubbing → exec (.landingScrubComplete g k ok) s = .next s.settle) ∧
  (∀ (s : State) (g : Fin 4) (k : Fin 32), k.val ∈ (s.land g.val).scrubbing → k.val < 16 →
    tget s.sched.groveMoves g.val = none →
    exec (.landingScrubComplete g k true) s = .next (State.settle (State.scrubEnergy (s.setLand g.val { s.land g.val with
      scrubbing := (s.land g.val).scrubbing.filter (· != k.val), mem := mclear (s.land g.val).mem (k.val * 2 ^ 19) ((k.val + 1) * 2 ^ 19) }) 8192))) ∧
  ∀ (s : State) (g : Fin 4) (k : Fin 32), k.val ∈ (s.land g.val).scrubbing → k.val < 16 → (s.rd (F.lndOwned_mask.at (cgBase g.val))).testBit k.val = false →
    tget s.sched.groveMoves g.val = none → ∃ u : State, exec (.landingScrubComplete g k false) s = .next (State.settle (u.logFault { mkFault 0x509 .grove g.val k.val with cls := .contained })) ∧
      (u.rd (F.lndFailed_count.at (cgBase g.val))).testBit k.val = true ∧ u.cmds = s.cmds
/-! ### Buffer decks (13) -/

/-- R397 to R400, R403, R404, R407, R408, R410, R411, R413: a deck that is initialised holds every buffer free in increasing order and is ready; an
allocation takes the buffer most recently placed; a return by the driver is checked in order and releases one host hold; a buffer with no hold left goes
back; a reclaim releases holds of a partition; the low mark is re-armed; a rebuilt ring holds the buffers that the bitmap shows free.
Rests on the model's choices of log entries 7, 12, 19, 95, 108. -/
def Obligations.Decks : Prop :=
  (∀ (s : State) (d : Fin 64), s.deckOn d.val = true → s.rd (F.dkStat_ready.at (dkBase d.val)) = 0 →
    ∃ (u : State) (k : Deck), exec (.deckInitComplete d) s = .next u.settle ∧ tget u.decks d.val = some k ∧ k.owners = [] ∧
      k.free = s.rd (F.dkCount_count.at (dkBase d.val)) ∧ k.resvFree = s.rd (F.dkResv_resv.at (dkBase d.val)) ∧ k.waiters = (s.deck d.val).waiters ∧
      (∀ j, j < 32 → j < s.rd (F.dkCount_count.at (dkBase d.val)) → k.cache.getD (min 32 (s.rd (F.dkCount_count.at (dkBase d.val))) - 1 - j) 0 = j) ∧
      u.rd (F.dkStat_ready.at (dkBase d.val)) = 1 ∧ u.rd (F.dkStat_level.at (dkBase d.val)) = 0 ∧
      u.rd (F.dkMinFree_low.at (dkBase d.val)) = s.rd (F.dkCount_count.at (dkBase d.val)) - s.rd (F.dkResv_resv.at (dkBase d.val)) ∧
      u = { s with regs := u.regs, decks := tput s.decks d.val k }) ∧
  (∀ (s : State) (d : Fin 64), (s.deckOn d.val = false ∨ s.rd (F.dkStat_ready.at (dkBase d.val)) = 1) → exec (.deckInitComplete d) s = .next s.settle) ∧
  (∀ (s : State) (d : Fin 64), (s.deck d.val).waiters = [] → exec (.deckWaiterServed d) s = .next s.settle) ∧
  (∀ (s : State) (d : Fin 64) (w : Waiter) (c : Cmd), (s.deck d.val).waiters = [w] → tget s.cmds w.slot = some c → c.desc.cls ≠ 1 →
    exec (.deckWaiterServed d) s = .next (State.settle (State.modCmd (s.setDeck d.val { s.deck d.val with waiters := [] }) w.slot fun c => { c with waitDeck := none }))) ∧
  (∀ a b : Waiter, (a.recovery = true → b.recovery = false → a.before b = true ∧ b.before a = false) ∧
    (a.recovery = b.recovery → a.live = true → b.live = false → a.before b = true ∧ b.before a = false) ∧
    (a.recovery = b.recovery → a.live = false → b.live = false → a.order < b.order → a.before b = true ∧ b.before a = false)) ∧
  (∀ (s : State) (fn : Fin 16) (v : Word) (a : Nat) (b : BufRef) (o : Owner), a = (s.reg (fn.val * fnStride + 0x40020)).toNat + bits v.toNat 0 16 * 2 ^ 32 →
    s.bufAt a = some b → s.ownerOf b = some o → o.part = fn.val → a = s.bufAddr b → Holder.host ∈ o.holders →
    exec (.dkReturn fn v) s = .next (State.settle ((s.wr (F.dkRetStat_code.fn fn.val) 0).release b .host))) ∧
  (∀ (s : State) (fn : Fin 16) (v : Word) (a : Nat), a = (s.reg (fn.val * fnStride + 0x40020)).toNat + bits v.toNat 0 16 * 2 ^ 32 →
    (s.bufAt a = none → exec (.dkReturn fn v) s = .next (State.settle (((s.wr (F.dkRetStat_code.fn fn.val) 0xC01).logPart 0xC01 fn.val .deck 0 a).inc F.dkGStat_unmatched 1))) ∧
    (∀ b o, s.bufAt a = some b → s.ownerOf b = some o → o.part ≠ fn.val → s.returnCheck fn.val a = 0xC0A) ∧
    (∀ b o, s.bufAt a = some b → s.ownerOf b = some o → o.part = fn.val → a ≠ s.bufAddr b → s.returnCheck fn.val a = 0xC03) ∧
    (∀ b o, s.bufAt a = some b → s.ownerOf b = some o → o.part = fn.val → a = s.bufAddr b → Holder.host ∉ o.holders → s.returnCheck fn.val a = 0xC02)) ∧
  (∀ (s : State) (b : BufRef) (h : Holder) (o : Owner), s.ownerOf b = some o → h ∈ o.holders →
    (o.holders.erase h ≠ [] → s.release b h = s.setOwner b { o with holders := o.holders.erase h }) ∧ (o.holders.erase h = [] → s.release b h = s.putBack b)) ∧
  (∀ (s : State) (b : BufRef), (s.putBack b).ownerOf b = none) ∧
  (∀ (s t : State) (d : Nat) (o : Owner) (b : BufRef), s.takeBuf d o = some (b, t) → b.deck = d ∧ ((s.deck d).refill (s.rd (F.dkCount_count.at (dkBase d)))).cache.head? = some b.idx ∧ t.ownerOf b = some o ∧
    ∀ c : BufRef, c ≠ b → t.ownerOf c = s.ownerOf c) ∧
  (∀ (s : State) (fn : Fin 16) (v : Word), fn.val ≠ 0 → exec (.dkReclaim fn v) s = .next s.settle) ∧
  (∀ (s : State) (v : Word), exec (.dkReclaim 0 v) s = .next (State.settle (State.logPart
    (s.reclaim (bits v.toNat 0 4) (fun k => v.toNat.testBit (4 + k)) s.reclaimable).1 0xC08 (bits v.toNat 0 4) .deck))) ∧
  (∀ (s : State) (d p i : Nat) (o : Owner) (h : Holder), s.decks = [(d, { Deck.new with owners := [(i, o)] })] → o.part = p → o.holders = [h] → s.reclaimable h = true →
    ((s.reclaim p (fun _ => true) s.reclaimable).1).ownerOf ⟨d, i⟩ = none ∧ (s.reclaim p (fun _ => true) s.reclaimable).2 = 1) ∧
  (∀ (s : State) (d : Fin 64) (v : Word), (v.toNat.testBit 31 = true → exec (.dkMinFreeRearm d v) s =
      .next (State.settle (s.wr (F.dkMinFree_low.at (dkBase d.val)) ((s.deck d.val).free - (s.deck d.val).resvFree)))) ∧
    (v.toNat.testBit 31 = false → exec (.dkMinFreeRearm d v) s = .next s.settle)) ∧
  ∀ (s : State) (d : Fin 64), s.rd (F.dkStat_rebuilding.at (dkBase d.val)) = 1 → ∃ (u : State) (k : Deck), exec (.deckRingRebuildComplete d) s = .next u.settle ∧
    tget u.decks d.val = some k ∧ k = { s.deck d.val with ring := k.ring } ∧ u.rd (F.dkStat_rebuilding.at (dkBase d.val)) = 0 ∧
    u = { s with regs := u.regs, decks := tput s.decks d.val k } ∧
    ∀ j, (∃ e ∈ k.ring, e.1 ≤ j ∧ j < e.1 + e.2) ↔
      (j < s.rd (F.dkCount_count.at (dkBase d.val)) ∧ j ∉ tkeys (s.deck d.val).owners ∧ j ∉ (s.deck d.val).cache)

/-! ### DRAM (12) -/

/-- R369: the mapping of data addresses to subchannels and bursts loses nothing: the address of a burst is found again from its subchannel and its
place there; the eighth burst of each group is a check burst and holds no data address.
R369 to R373, R375, R378, R387, R390: a read that may be made goes to its bank and leaves memory as it is where its codeword is good, and is
counted, logged and written back where one symbol was wrong; a refused request is logged and reaches nothing; a write stores its bytes and no others; a
write CRC error is logged and, after the fourth failed resend, retrains; patrol scrub moves on by one burst, and lets a rank that sleeps sleep on for up to 1 ms.
Rests on the model's choices of log entries 10, 11, 21, 96, 99, 108. -/
def Obligations.DramAccess : Prop :=
  ((∀ a, a < 448 * 2 ^ 30 → (dramMap a).1 < 32 ∧ (dramMap a).2 < 2 ^ 28 ∧ (dramMap a).2 % 8 ≠ 7) ∧
  (∀ a, a < 448 * 2 ^ 30 → dramUnmap (dramMap a).1 (dramMap a).2 = some (a / 64 * 64)) ∧ ∀ sc p, dramUnmap sc (8 * p + 7) = none) ∧
  (∀ (s : State) (src : MemSrc) (a part sc p : Nat), s.srcPart src = some part → s.dramOk part a = true → dramMap a = (sc, p) → s.serves sc = true →
    p ∉ (s.subch sc).poison → exec (.dramRead src a false [] []) s =
      .next (State.settle ((((if s.inSr sc then s.srExit sc false else s).touch sc p).traffic src 64).checkLine sc (p / 8)).2)) ∧
  (∀ (s : State) (src : MemSrc) (n : Nat), (src ≠ .module → s.traffic src n = s) ∧ s.traffic .module n = s.untagged [(0, n)] ∧
    s.traffic src n = { s with regs := (s.traffic src n).regs }) ∧
  (∀ (s : State) (sc p : Nat), ((s.touch sc p).checkLine sc (p / 8)).2.dram.mem = s.dram.mem ∧ ((s.touch sc p).checkLine sc (p / 8)).2.cmds = s.cmds ∧
    ∃ b, tget (((s.touch sc p).checkLine sc (p / 8)).2.subch sc).banks (bankOf p) = some b ∧ b.lastRow = rowOf p) ∧
  (∀ (s : State) (src : MemSrc) (a part sc p pos : Nat) (e1 e2 : List (Nat × Nat)) (t : State), s.srcPart src = some part → s.dramOk part a = true →
    dramMap a = (sc, p) → s.serves sc = true → p ∉ (s.subch sc).poison → eccOf 39 e1 = .corrected pos →
    t = ((((if s.inSr sc then s.srExit sc false else s).touch sc p).traffic src 64).checkLine sc (p / 8)).2 →
    exec (.dramRead src a false e1 e2) s = .next (State.settle (t.eccCorrected sc p a pos (miscorrected e1)))) ∧
  (eccOf 39 [] = .good ∧ eccOf 35 [] = .good) ∧
  (∀ (i v : Nat), i < 39 → 0 < v → v < 65536 → eccOf 39 [(i, v)] = if 4 ≤ i ∧ i ≤ 6 then .moved else .corrected i) ∧
  (∀ (s : State) (a : Nat) (e1 e2 : List (Nat × Nat)) (data : List Byte), s.dramOk moduleKey a = false →
    exec (.dramRead .module a false e1 e2) s = .next (State.settle (s.log 0xB07 .scheduler 0 a)) ∧
    exec (.dramWrite .module a data) s = .next (State.settle (s.log 0xB07 .scheduler 0 a))) ∧
  (∀ (s : State) (q : Fin 16) (a : Nat) (data : List Byte), s.dramOk q.val a = false → exec (.dramWrite (.part q) a data) s =
    .next (State.settle (s.logFault { mkFault 0xB07 .function q.val a with cls := .refused, part := some q.val }))) ∧
  (∀ (s : State) (src : MemSrc) (a part sc p : Nat) (data : List Byte), s.srcPart src = some part → s.dramOk part a = true → dramMap a = (sc, p) →
    s.serves sc = true → a % 64 + data.length ≤ 64 →
    ∃ u : State, exec (.dramWrite src a data) s = .next u.settle ∧ (∀ k, k < data.length → u.dramByte (a + k) = data.getD k 0) ∧
      (∀ b, b < a ∨ a + data.length ≤ b → u.dramByte b = s.dramByte b) ∧ u = { s with regs := u.regs, dram := u.dram, fresh := u.fresh } ∧
      ∀ k, k ≠ sc → u.subch k = s.subch k) ∧
  (∀ (s : State) (sc : Fin 32) (fails : Fin 5), fails.val < 4 → exec (.writeCrcError sc fails) s = .next (State.settle (s.log 0xB0C .subchannel sc.val))) ∧
  (∀ (s : State) (sc : Fin 32), (∀ k, k < 32 → (s.subch k).retraining = false) → ∃ u : State, exec (.writeCrcError sc 4) s = .next u.settle ∧
    (u.subch sc.val).retraining = true ∧ (u.subch sc.val).due = true ∧ u.rd (F.drChStat_retraining.at (chBase sc.val)) = 1) ∧
  (∀ (s : State) (n sc p : Nat), n = s.dram.scrubPos → n + 1 < 32 * 2 ^ 28 → sc = n / 2 ^ 28 → p = n % 2 ^ 28 → s.rd F.drGScrub_en = 1 →
    s.rd F.drGStat_memReady = 1 → s.serves sc = true → p ∉ (s.subch sc).poison → s.inSr sc = false → s.inPd sc (rankOf p) = false →
    ∃ u : State, u = (State.touch { s with dram := { s.dram with scrubWait := none } } sc p).untagged [(0, 64)] ∧
      exec (.patrolScrubRead [] []) s = .next (State.settle (State.wr { u with dram := { u.dram with scrubPos := n + 1 } }
        F.drGScrubPos_progress ((n + 1) / 2)))) ∧
  (∀ (s : State) (sc p t : Nat), sc = s.dram.scrubPos / 2 ^ 28 → p = s.dram.scrubPos % 2 ^ 28 → s.rd F.drGScrub_en = 1 → s.rd F.drGStat_memReady = 1 →
    s.serves sc = true → (s.inPd sc (rankOf p) = true ∨ s.inSr sc = true) → s.dram.scrubWait.getD s.now = t → (s.dram.scrubWait = none ∨ s.nsSince t < 1000000) →
    exec (.patrolScrubRead [] []) s = .next (State.settle { s with dram := { s.dram with scrubWait := some t } })) ∧
  ∀ s : State, s.rd F.drGScrub_en = 0 → exec (.patrolScrubRead [] []) s = .next s.settle

/-- R381, R386, R388, R389, R392: refresh closes its banks' rows and wakes the rank; a temperature report sets the reading and whether the subchannel is
hot; a retraining comes due, starts in the gap one at a time or is forced at a frame start, and ends ready or trains in full; ranks and subchannels
enter and leave their power states; a row due for repair goes onto a spare row.
Rests on the model's choices of log entries 21, 61, 99, 108. -/
def Obligations.DramMaintenance : Prop :=
  (∀ (s : State) (sc : Fin 32) (rank : Fin 2) (bank : Fin 4), s.inSr sc.val = false → s.dram.srAll = false →
    ∃ u : State, exec (.bankRefresh sc rank bank) s = .next u.settle ∧ u.inPd sc.val rank.val = false ∧
      (∀ b r, tget (s.subch sc.val).banks b = some r → bits b 4 1 = rank.val → bits b 2 2 = bank.val →
        tget (u.subch sc.val).banks b = some { r with openRow := none }) ∧
      (∀ b, (bits b 4 1 ≠ rank.val ∨ bits b 2 2 ≠ bank.val) → tget (u.subch sc.val).banks b = tget (s.subch sc.val).banks b) ∧
      u = { s with regs := u.regs, dram := { s.dram with sub := u.dram.sub } } ∧ ∀ k, k ≠ sc.val → u.subch k = s.subch k) ∧
  (∀ (s : State) (sc : Fin 32) (rank : Fin 2) (bank : Fin 4), (s.inSr sc.val = true ∨ s.dram.srAll = true) → exec (.bankRefresh sc rank bank) s = .next s.settle) ∧
  (∀ (s : State) (sc : Fin 32) (temp : Fin 256), ∃ u : State, u = { s with regs := u.regs } ∧ u.rd (F.drScTemp_temp.at (scBase sc.val)) = temp.val ∧
    u.rd (F.drScTemp_hot.at (scBase sc.val)) = b2n (decide (85 < temp.val)) ∧
    exec (.dramTempReport sc temp) s = .next (State.settle (if 85 < temp.val ∧ s.rd (F.drScTemp_hot.at (scBase sc.val)) = 0 then u.log 0xB0D .subchannel sc.val temp.val else u))) ∧
  (∀ (s : State) (sc : Fin 32), (s.subch sc.val).due = false → exec (.retrainDue sc true) s =
    .next (State.settle (s.setSubch sc.val { s.subch sc.val with due := true, dueAt := s.now }))) ∧
  (∀ (s : State) (sc : Fin 32) (d : Bool), (s.subch sc.val).due = true → exec (.retrainDue sc d) s = .next s.settle) ∧
  (∀ (s : State) (sc : Fin 32), (s.subch sc.val).due = true → (∀ k, k < 32 → (s.subch k).retraining = false) → s.inSr sc.val = false → s.dram.srAll = false →
    s.rd F.drGGap_gapStart ≤ stLine s.now → stLine s.now < s.rd F.drGGap_gapEnd →
    exec (.retrainStart sc) s = .next (State.settle ((s.setSubch sc.val { s.subch sc.val with retraining := true, urgent := false }).wr
      (F.drChStat_retraining.at (chBase sc.val)) 1))) ∧
  (∀ (s : State) (sc : Fin 32), ((s.subch sc.val).due = false ∨ stLine s.now < s.rd F.drGGap_gapStart ∨ s.rd F.drGGap_gapEnd ≤ stLine s.now) →
    exec (.retrainStart sc) s = .next s.settle) ∧
  (∀ (s : State) (sc : Fin 32), (s.subch sc.val).due = true → (∀ k, k < 32 → (s.subch k).retraining = false) → s.inSr sc.val = false → s.dram.srAll = false →
    stLine s.now = 0 → s.rd F.drGRetrain_maxWait * 1000000 ≤ s.nsSince (s.subch sc.val).dueAt →
    exec (.retrainForced sc) s = .next (State.settle ((State.inc ((s.setSubch sc.val { s.subch sc.val with retraining := true, urgent := false }).wr
      (F.drChStat_retraining.at (chBase sc.val)) 1) (F.drScTrain_forced.at (scBase sc.val)) 1).log 0xB05 .subchannel sc.val))) ∧
  (∀ (s : State) (sc : Fin 32), (s.subch sc.val).retraining = true → (∀ k, k < 32 → k ≠ sc.val → (s.subch k).urgent = false) → (s.subch sc.val).urgent = false →
    ∃ u : State, exec (.retrainComplete sc true) s = .next u.settle ∧
      u.subch sc.val = { s.subch sc.val with retraining := false, recovers := false, due := false, trainTemp := s.rd (F.drScTemp_temp.at (scBase sc.val)) } ∧
      u.scState sc.val = 2 ∧ u.rd (F.drChStat_retraining.at (chBase sc.val)) = 0 ∧
      u.rd (F.drScTrain_done.at (scBase sc.val)) = (s.rd (F.drScTrain_done.at (scBase sc.val)) + 1) % 65536 ∧ u = { s with regs := u.regs, dram := { s.dram with sub := u.dram.sub } }) ∧
  (∀ (s : State) (sc : Fin 32), (s.subch sc.val).retraining = true → s.scState sc.val ≠ 1 →
    exec (.retrainComplete sc false) s = .next (State.settle (s.setScState sc.val 1))) ∧
  (∀ (s : State) (sc : Fin 32), (s.subch sc.val).retraining = true → s.scState sc.val = 1 → ∃ u : State, exec (.retrainComplete sc false) s =
    .next (State.settle (u.deviceStop 0xB06 .subchannel sc.val)) ∧ u.scState sc.val = 3 ∧ (u.subch sc.val).retraining = false) ∧
  (∀ (s : State) (sc : Fin 32) (ok : Bool), (s.subch sc.val).retraining = false → exec (.retrainComplete sc ok) s = .next s.settle) ∧
  (∀ (s : State) (sc : Fin 32) (rank : Fin 2), s.inSr sc.val = false → (s.subch sc.val).retraining = false →
    s.idleFor sc.val rank.val (s.rd F.drGPd_pdIdle) = true →
    ∃ u : State, exec (.powerDownEntry sc rank) s = .next u.settle ∧ u.inPd sc.val rank.val = true ∧
      (∀ b r, tget (u.subch sc.val).banks b = some r → bits b 4 1 = rank.val → r.openRow = none) ∧
      u = { s with regs := u.regs, dram := { s.dram with sub := u.dram.sub } }) ∧
  (∀ (s : State) (sc : Fin 32) (rank : Fin 2) (t : Nat), tget (s.subch sc.val).lastReq rank.val = some t → s.nsSince t < s.rd F.drGPd_pdIdle →
    exec (.powerDownEntry sc rank) s = .next s.settle) ∧
  (∀ (s : State) (sc : Fin 32), s.rd F.drGPd_srIdle ≠ 0 → (s.subch sc.val).retraining = false →
    s.idleFor sc.val 0 (1000 * s.rd F.drGPd_srIdle) = true → s.idleFor sc.val 1 (1000 * s.rd F.drGPd_srIdle) = true →
    ∃ u : State, exec (.selfRefreshEntry sc) s = .next u.settle ∧ u.inSr sc.val = true ∧ (∀ b r, tget (u.subch sc.val).banks b = some r → r.openRow = none) ∧
      u = { s with regs := u.regs, dram := { s.dram with sub := u.dram.sub } }) ∧
  (∀ (s : State) (sc : Fin 32) (drift : Bool), s.inSr sc.val = true → s.dram.srAll = false →
    ∃ u : State, exec (.selfRefreshExit sc drift) s = .next u.settle ∧ u.inSr sc.val = false ∧ (drift = true → (u.subch sc.val).due = true) ∧
      (drift = false → u = { s with regs := u.regs })) ∧
  ∀ (s : State) (sc : Fin 32) (k : Nat) (rest : List Nat), (s.subch sc.val).repairDue = k :: rest → s.inGap = true → s.rd F.ftStat_recovering = 0 →
    s.serves sc.val = true → s.dram.svcRow = none → (s.rd (F.drScPpr_used.at (scBase sc.val))).testBit (spareBit (k / 2) (k % 2)) = false →
    ∃ u : State, exec (.pprRepair sc) s = .next (State.settle (u.log 0xB08 .subchannel sc.val (k / 2 * 64))) ∧
      (u.subch sc.val).repairDue = rest ∧ (u.subch sc.val).repaired = (s.subch sc.val).repaired ++ [k] ∧
      (u.rd (F.drScPpr_used.at (scBase sc.val))).testBit (spareBit (k / 2) (k % 2)) = true ∧
      u = { s with regs := u.regs, dram := { s.dram with sub := u.dram.sub } }
/-! ### Skidway (16) -/

/-- R486 to R492, R502: HELLO makes a port up where the wiring expects its peer and miswired elsewhere; a message out of sequence is answered with
LNAK; LNAK resends and its eighth in a row retrains; LACK frees replay entries and returns their credits; an owed acknowledgement goes out; a silent port
goes down; a down port trains again, and a trained port holds its credits and says HELLO.
Rests on the model's choices of log entries 8, 100, 108. -/
def Obligations.SkidwayLink : Prop :=
  (∀ (s : State) (n : Fin 3) (l : Link) (m : Fin 8) (pp : Fin 3) (ups : Fin 8), s.sky.xfers = [] → (s.port n.val).linked = true →
    (s.port n.val).rxSeq = l.seq.val → (s.port n.val).replay = [] →
    ∃ u : State, exec (.helloReceived n l m pp ups) s = .next u.settle ∧ (u.port n.val).peerUps = ups.val ∧ (u.port n.val).rxSeq = (l.seq.val + 1) % 4096 ∧
      (u.port n.val).ackDue = true ∧ u.rd (F.swPortStat_peer.at (swBase n.val)) = m.val ∧
      (wiring s.modCount s.modId n.val = (m.val, pp.val) → u.portState n.val = 2) ∧ (wiring s.modCount s.modId n.val ≠ (m.val, pp.val) → u.portState n.val = 3) ∧
      u.cmds = s.cmds ∧ u.boles = s.boles) ∧
  (∀ (s : State) (n : Fin 3) (l : Link) (m : Fin 8) (pp : Fin 3) (ups : Fin 8), (s.port n.val).linked = true → (s.port n.val).rxSeq ≠ l.seq.val →
    exec (.helloReceived n l m pp ups) s = .next (State.settle (State.sendLnak (s.inc (F.swPortErr_crc.at (swBase n.val)) 1) n.val))) ∧
  (∀ (s : State) (n : Fin 3), ((s.port n.val).linked = true → exec (.skidwayBadMessage n) s =
      .next (State.settle (State.sendLnak (s.inc (F.swPortErr_crc.at (swBase n.val)) 1) n.val))) ∧
    ((s.port n.val).linked = false → exec (.skidwayBadMessage n) s = .next s.settle)) ∧
  (∀ (s : State) (n : Fin 3) (ack : Fin 4096), (s.port n.val).linked = true → (∀ k ∈ (s.port n.val).replay, k.seq ≠ ack.val) → (s.port n.val).replay ≠ [] →
    ((s.port n.val).resends < 7 → exec (.lnakReceived n ack) s = .next (State.settle (State.resendAll
      ((s.setPort n.val { s.port n.val with resends := (s.port n.val).resends + 1 }).log 0xE01 .port n.val) n.val))) ∧
    (7 ≤ (s.port n.val).resends → ∃ u : State, exec (.lnakReceived n ack) s = .next u.settle ∧ u.portState n.val = 1 ∧ (u.port n.val).resends = 0 ∧
      (u.port n.val).replay = (s.port n.val).replay)) ∧
  (∀ (s : State) (n : Fin 3) (ack : Fin 4096), ((s.port n.val).linked = false ∨ (s.port n.val).replay = []) → exec (.lnakReceived n ack) s = .next s.settle) ∧
  (∀ (s : State) (n : Fin 3) (ack : Fin 4096) (k : SkyKept) (rest : List SkyKept), (s.port n.val).linked = true → (s.port n.val).replay = k :: rest → k.seq = ack.val →
    (s.port n.val).waiting = [] → exec (.lackReceived n ack) s = .next (State.settle ((s.setPort n.val { s.port n.val with replay := rest, resends := 0 }).wr
      (credFld n.val k.vc) (min 16 (s.rd (credFld n.val k.vc) + 1))))) ∧
  (∀ (s : State) (n : Fin 3) (ack : Fin 4096), ((s.port n.val).linked = false ∨ ∀ k ∈ (s.port n.val).replay, k.seq ≠ ack.val) →
    exec (.lackReceived n ack) s = .next s.settle) ∧
  (∀ (s : State) (n : Fin 3), ((s.port n.val).ackDue = false → exec (.lackTimer n) s = .next s.settle) ∧
    ((s.port n.val).ackDue = true → exec (.lackTimer n) s = .next (State.settle ((s.setPort n.val { s.port n.val with ackDue := false }).emit
      (.skidway n.val 0 (onLane (SkyMsg.bytes ⟨4, 0, 0, s.modId, s.rd (F.swPortStat_peer.at (swBase n.val)), 0, 0, 0, 0, 0, []⟩)
        (s.port n.val).txSeq (s.port n.val).lastGood)))))) ∧
  (∀ (s : State) (n : Fin 3), (s.portState n.val = 0 ∨ s.portState n.val = 4 → exec (.portSilenceTimeout n) s = .next s.settle) ∧
    (s.portState n.val ≠ 0 → s.portState n.val ≠ 4 → (s.port n.val).waiting = [] → s.sky.xfers = [] →
      ∃ u : State, exec (.portSilenceTimeout n) s = .next u.settle ∧ u.portState n.val = 0 ∧ u.port n.val = Port.new ∧ (∀ k, k ≠ n.val → u.port k = s.port k) ∧
        u.cmds = s.cmds)) ∧
  (∀ (s : State) (n : Fin 3), (s.portState n.val = 0 → s.skyOn = true →
      exec (.portRetryTraining n) s = .next (State.settle (s.wr (F.swPortStat_state.at (swBase n.val)) 1))) ∧
    (s.portState n.val ≠ 0 ∨ s.skyOn = false → exec (.portRetryTraining n) s = .next s.settle)) ∧
  (∀ (s : State) (n : Fin 3), s.portState n.val = 1 → (s.port n.val).linked = false → (s.port n.val).replay = [] → (s.port n.val).waiting = [] →
    ∃ u : State, exec (.skidwayPortTrained n true) s = .next u.settle ∧ (u.port n.val).linked = true ∧ u.rd (credFld n.val 0) = 16 ∧ u.rd (credFld n.val 1) = 16 ∧
      u.rd (credFld n.val 2) = 15 ∧ (u.port n.val).txSeq = ((s.port n.val).txSeq + 1) % 4096 ∧
      u.out = s.out ++ [.skidway n.val 2 (onLane (SkyMsg.bytes ⟨3, 2, 0, s.modId, s.modId, 0, 0, 0, 0, 0,
        leBytes 1 s.modId ++ leBytes 1 n.val ++ leBytes 1 s.modCount ++ List.replicate 5 0⟩) (s.port n.val).txSeq (s.port n.val).lastGood)]) ∧
  (∀ (s : State) (n : Fin 3) (ok : Bool), s.portState n.val ≠ 1 → exec (.skidwayPortTrained n ok) s = .next s.settle) ∧
  (∀ (c : Fin 4) (m : Fin 8) (p : Fin 3), 0 < c.val → m.val < 2 ^ c.val → (wiring (2 ^ c.val) m.val p.val).1 ≠ m.val) ∧
  ∀ (c : Fin 4) (m : Fin 8) (p : Fin 3), 0 < c.val → m.val < 2 ^ c.val → wiring (2 ^ c.val) (wiring (2 ^ c.val) m.val p.val).1 (wiring (2 ^ c.val) m.val p.val).2 = (m.val, p.val)

/-- R177, R178, R494 to R499: the send phase sends what its command stored in send windows and records a transfer for it; DONE completes a transfer, or
ends its command; a transfer without DONE for SW_ACK_TO kills its command; a WRITE that arrives is stored in its DRAM window, or put on its way to a bole's
or grove's window; opening a DRAM window clears its count; a write in flight is tested at its window, and its sender takes the answer.
Rests on the model's choices of log entries 11, 21, 78, 84, 90, 100, 102, 106, 108. -/
def Obligations.SkidwayTransfers : Prop :=
  (∀ (s : State) (slot : Fin 4096) (c : Cmd), tget s.cmds slot.val = some c → (c.commitDue = false ∨ s.pow.paused = true ∨ c.sent ≠ 0 ∨ s.toSend c = []) →
    exec (.sendPhase slot) s = .next s.settle) ∧
  (∀ (s : State) (slot : Fin 4096) (c : Cmd) (w a n q : Nat) (data : List Byte), tget s.cmds slot.val = some c → c.commitDue = true → s.pow.paused = false → c.committed = false →
    c.sent = 0 → c.accepted = [] → s.toSend c = [(w, a, n)] → s.sendPort (s.rd (F.txwCtl_dst.at (0x81000 + 0x20 * w))) 0 = some q →
    s.dramRead c.desc.part a n = .ok data →
    ∃ (u : State) (x : Xfer), exec (.sendPhase slot) s = .next u.settle ∧ tget u.cmds slot.val = some { c with sent := 1, skySent := c.skySent + data.length } ∧
      tget u.sky.xfers (slot.val * 1024) = some x ∧ x.slot = slot.val ∧ x.idx = 0 ∧ x.win = w ∧ x.dst = s.rd (F.txwCtl_dst.at (0x81000 + 0x20 * w)) ∧ x.port = q ∧
      x.sentAt = s.now ∧ x.msg = SkyMsg.bytes ⟨1, 0, 0, s.modId, s.rd (F.txwCtl_dst.at (0x81000 + 0x20 * w)), c.desc.part, 0,
        s.rd (F.txwCtl_kind.at (0x81000 + 0x20 * w)) + s.rd (F.txwCtl_target.at (0x81000 + 0x20 * w)) * 4 + s.rd (F.txwCtl_window.at (0x81000 + 0x20 * w)) * 256,
        a - s.rd2 (F.txwBaseLo_base.at (0x81000 + 0x20 * w)) (F.txwBaseHi_base.at (0x81000 + 0x20 * w)), slot.val, data⟩ ∧
      u.dram = s.dram ∧ u.boles = s.boles) ∧
  (∀ (s t : State) (n : Fin 3) (l : Link) (src dst : Fin 8) (hops : Fin 4) (slot : Fin 4096) (idx : Fin 1024) (x : Xfer), s.portState n.val = 2 →
    s.linkIn n.val l = some t → dst.val = t.modId → tget t.sky.xfers (slot.val * 1024 + idx.val) = some x →
    exec (.doneReceived n l src dst hops slot idx 0) s = .next (State.settle (State.sendCheck (State.inc (State.modCmd
      { t with sky := { t.sky with xfers := tdel t.sky.xfers (slot.val * 1024 + idx.val) } } slot.val fun c => { c with accepted := c.accepted ++ [idx.val] })
        (F.txwSent_sent.at (0x81000 + 0x20 * x.win)) 1) slot.val)) ∧
    exec (.doneReceived n l src dst hops slot idx 8) s = .next (State.settle (State.dataFault
      { t with sky := { t.sky with xfers := tdel t.sky.xfers (slot.val * 1024 + idx.val) } } slot.val 0xE08 .port n.val x.dst)) ∧
    ∀ r : Fin 9, r.val ≠ 0 → r.val ≠ 8 → exec (.doneReceived n l src dst hops slot idx r) s = .next (State.settle (State.senderResult
      { t with sky := { t.sky with xfers := tdel t.sky.xfers (slot.val * 1024 + idx.val) } } slot.val (.port, n.val) x.dst (.reject r.val)))) ∧
  (∀ (s : State) (slot off : Nat) (src : SrcKind × Nat), s.senderResult slot src off (.reject 6) = s.containedKill slot 0x502 src.1 src.2 off 6 ∧
    s.senderResult slot src off .accept = s ∧
    ∀ c, c ≠ 6 → s.senderResult slot src off (.reject c) = s.dataFault slot 0x502 src.1 src.2 off c) ∧
  (∀ (s : State) (slot : Fin 4096) (idx : Fin 1024) (x : Xfer), tget s.sky.xfers (slot.val * 1024 + idx.val) = some x →
    (max 10 (s.rd F.swAckTo_us) * 1000 ≤ s.nsSince x.sentAt → exec (.swAckTimeout slot idx) s =
      .next (State.settle (s.containedKill slot.val 0xE07 .port x.port x.dst idx.val))) ∧
    (s.nsSince x.sentAt < max 10 (s.rd F.swAckTo_us) * 1000 → exec (.swAckTimeout slot idx) s = .next s.settle)) ∧
  (∀ (s t : State) (n : Fin 3) (l : Link) (w : SkyWrite) (data : List Byte), s.portState n.val = 2 → s.linkIn n.val l = some t → w.dst.val = t.modId →
    data.length ≤ 1024 → w.kind.val = 0 →
    ∃ (v u : State) (r : Nat), v = { t with regs := v.regs } ∧ v.rxWrite w (w.src.val * 2 ^ 22 + (w.slot.val + w.idx.val * 4096)) data = (r, u) ∧
      exec (.skidwayWriteReceived n l w data) s = .next (State.settle (u.sendDoneMsg w.src.val w.part.val (w.slot.val + w.idx.val * 4096) r))) ∧
  (∀ (s : State) (w : SkyWrite) (tag o base : Nat) (data : List Byte), o = rxwBase w.window.val → base = s.rd2 (F.rxwBaseLo_base.at o) (F.rxwBaseHi_base.at o) →
    (s.rd (F.rxwCtl_en.at o) = 0 → (s.rxWrite w tag data).1 = 8 ∧ (s.rxWrite w tag data).2 = s.inc (F.rxwStat_rejects.at o) 1) ∧
    (s.rd (F.rxwCtl_en.at o) = 1 → tag ∈ tgetD s.sky.rxIds w.window.val [] → s.rxWrite w tag data = (0, s)) ∧
    (∀ t, s.rd (F.rxwCtl_en.at o) = 1 → tag ∉ tgetD s.sky.rxIds w.window.val [] → s.rd (F.rxwStat_state.at o) = 1 →
      (s.rd (F.rxwCtl_modMask.at o)).testBit w.src.val = true → w.part.val = s.rd (F.rxwCtl_partition.at o) →
      base + w.off.val + data.length ≤ s.rd2 (F.rxwLimitLo_limit.at o) (F.rxwLimitHi_limit.at o) → s.dramWrite w.part.val (base + w.off.val) data = some t →
      (s.rxWrite w tag data).1 = 0 ∧ (s.rxWrite w tag data).2.dram = t.dram ∧
        tgetD (s.rxWrite w tag data).2.sky.rxIds w.window.val [] = tgetD s.sky.rxIds w.window.val [] ++ [tag])) ∧
  (∀ (s t : State) (n : Fin 3) (l : Link) (w : SkyWrite) (data : List Byte), s.portState n.val = 2 → s.linkIn n.val l = some t → w.dst.val = t.modId →
    data.length ≤ 1024 → w.kind.val = 1 → tget (t.bole (t.physOf w.target.val)).wins w.window.val = none →
    ∃ u : State, exec (.skidwayWriteReceived n l w data) s = .next u.settle ∧ u = { t with regs := u.regs, remote := u.remote } ∧
      u.remote = t.remote ++ [{ src := 64 + w.src.val, part := w.part.val, slot := w.slot.val, p := 0, ctx := 0, dst := w.target.val, win := w.window.val, off := w.off.val,
                                data := data, stage := none, stamp := t.now, tag := w.src.val * 2 ^ 22 + (w.slot.val + w.idx.val * 4096) }]) ∧
  (∀ (s : State) (n : Fin 16) (v : Word), ∃ u : State, exec (.swRxwCtlWrite n v) s = .next u.settle ∧ tget u.sky.rxIds n.val = none ∧
    u.rd (F.rxwStat_state.at (rxwBase n.val)) = b2n (v.toNat.testBit 0) ∧ (v.toNat.testBit 0 = true → u.rd (F.rxwWcnt_wcnt.at (rxwBase n.val)) = 0) ∧
    u.rd (F.rxwCtl_en.at (rxwBase n.val)) = b2n (v.toNat.testBit 0) ∧
    u = { s with regs := u.regs, sky := { s.sky with rxIds := tdel s.sky.rxIds n.val } }) ∧
  ∀ (s t : State) (k : Nat) (r : RemoteW) (res : WriteRes), s.remote[k]? = some r →
    (r.src < 64 → State.deliver { s with remote := s.remote.eraseIdx k } r s.now = (res, t) →
      exec (.remoteWrite k) s = .next (State.settle (t.senderResult r.slot (t.targetSource r.dst) r.off res))) ∧
    (64 ≤ r.src → State.deliver { s with remote := s.remote.eraseIdx k } r r.stamp = (res, t) →
      exec (.remoteWrite k) s = .next (State.settle (t.sendDoneMsg (r.src - 64) r.part (r.tag % 2 ^ 22) res.done)))
/-! ### Control operations (06, 10, 11, 15) -/

/-- R198, R458 to R460, R462: a control operation does nothing before its turn and is refused with the code of the check that fails; CREATE makes a
queue object with all indices 0 where its checks pass; DELETE of a CQ or ring removes it, and of an SQ stops it until its last command has ended; each
takes effect with its completion.
Rests on the model's choices of log entries 103, 108, 114. -/
def Obligations.QueueObjects : Prop :=
  (∀ (s : State) (slot : Fin 4096), ∀ r ∈ controlRows slot, (∀ c, ¬ controlTurn s slot r.2 c) → exec r.1 s = .next s.settle) ∧
  (∀ (s : State) (slot : Fin 4096) (c : Cmd), ∀ r ∈ controlRows slot, controlTurn s slot r.2 c → s.commonCheck c ≠ 0 →
    exec r.1 s = .next (State.settle (s.refuseCmd slot.val (s.commonCheck c)))) ∧
  (∀ (s r : State) (slot : Fin 4096) (c : Cmd) (q : Sq), controlRuns s slot 0x001 c r → s.newSq c.desc.part c.desc = .ok q →
    exec (.createSq slot) s = .next (State.settle (State.controlDone { r with sqs := tput s.sqs (c.desc.shape 0) q } slot.val 0))) ∧
  (∀ (s : State) (p : Nat) (d : Desc) (q : Sq), s.newSq p d = .ok q → d.shape 0 < 16384 ∧ tget s.sqs (d.shape 0) = none ∧ 2 ^ q.log2 = d.shape 1 ∧
    1 ≤ q.log2 ∧ q.log2 ≤ 16 ∧ s.rd (F.ptCtrl_enabled.at (ptBase p)) = 1 ∧ q.part = p ∧ q.head = 0 ∧ q.tail = 0 ∧ q.stopped = false ∧ q.cls = bits (d.shape 2) 12 2 ∧ q.drop = (d.shape 2).testBit 14 ∧
    q.place.base % 4096 = 0 ∧ q.place.ptr % 64 = 0 ∧ ∃ k, tget s.cqs q.cq = some k ∧ k.part = p) ∧
  (∀ (s r : State) (slot : Fin 4096) (c : Cmd) (e : Nat), controlRuns s slot 0x001 c r → s.newSq c.desc.part c.desc = .error e →
    (e = 0x320 ∨ e = 0x321) ∧ exec (.createSq slot) s = .next (State.settle (r.controlRefuse slot.val c e (c.desc.shape 0 % 16384)))) ∧
  (∀ (s r : State) (slot : Fin 4096) (c : Cmd) (q : Cq), controlRuns s slot 0x003 c r → s.newCq c.desc.part c.desc = .ok q →
    exec (.createCq slot) s = .next (State.settle (State.controlDone { r with cqs := tput s.cqs (c.desc.shape 0) q } slot.val 0))) ∧
  (∀ (s : State) (p : Nat) (d : Desc) (q : Cq), s.newCq p d = .ok q → d.shape 0 < 4096 ∧ tget s.cqs (d.shape 0) = none ∧ 2 ^ q.log2 = d.shape 1 ∧
    q.part = p ∧ q.prod = 0 ∧ q.cons = 0 ∧ q.vector = bits (d.shape 2) 0 11 ∧ q.vector < fnVectors p ∧ q.irqEn = (d.shape 2).testBit 11 ∧ q.place.base % 4096 = 0) ∧
  (∀ (s r : State) (slot : Fin 4096) (c : Cmd) (q : Ring), controlRuns s slot 0x005 c r → s.newRing c.desc.part c.desc = .ok q →
    exec (.createRing slot) s = .next (State.settle (State.controlDone { r with mrings := tput s.mrings (c.desc.shape 0) q } slot.val 0))) ∧
  (∀ (s : State) (p : Nat) (d : Desc) (q : Ring), s.newRing p d = .ok q → d.shape 0 < 1024 ∧ tget s.mrings (d.shape 0) = none ∧ 2 ^ q.log2 = d.shape 1 ∧
    6 ≤ q.log2 ∧ q.log2 ≤ 20 ∧ q.vector < fnVectors p ∧ q.part = p ∧ q.prod = 0 ∧ q.cons = 0 ∧ q.discard = (d.shape 2).testBit 0 ∧ q.faultEn = (d.shape 2).testBit 1) ∧
  (∀ (s r : State) (slot : Fin 4096) (c : Cmd) (q : Sq), controlRuns s slot 0x002 c r → c.desc.shape 0 < 16384 → tget s.sqs (c.desc.shape 0) = some q →
    q.part = c.desc.part → exec (.deleteSq slot) s =
      .next (State.settle { r with sqs := tput s.sqs (c.desc.shape 0) { q with stopped := true, deleting := some slot.val } })) ∧
  (∀ (s : State) (n : Fin 16384) (q : Sq) (slot : Nat), tget s.sqs n.val = some q → q.deleting = some slot →
    (q.fetching = false → (∀ e ∈ s.cmds, e.2.sq ≠ n.val) → exec (.deleteSqComplete n) s = .next (State.settle (State.controlDone { s with sqs := tdel s.sqs n.val } slot 0))) ∧
    ((q.fetching = true ∨ ∃ e ∈ s.cmds, e.2.sq = n.val) → exec (.deleteSqComplete n) s = .next s.settle)) ∧
  (∀ (s : State) (n : Fin 16384), (∀ q, tget s.sqs n.val = some q → q.deleting = none) → exec (.deleteSqComplete n) s = .next s.settle) ∧
  (∀ (s r : State) (slot : Fin 4096) (c : Cmd) (q : Cq), controlRuns s slot 0x004 c r → c.desc.shape 0 < 4096 → tget s.cqs (c.desc.shape 0) = some q →
    q.part = c.desc.part → ((∀ e ∈ s.sqs, e.2.cq ≠ c.desc.shape 0) →
      exec (.deleteCq slot) s = .next (State.settle (State.controlDone { r with cqs := tdel s.cqs (c.desc.shape 0) } slot.val 0))) ∧
    ((∃ e ∈ s.sqs, e.2.cq = c.desc.shape 0) → exec (.deleteCq slot) s = .next (State.settle (r.controlRefuse slot.val c 0x321 (c.desc.shape 0))))) ∧
  (∀ (s r : State) (slot : Fin 4096) (c : Cmd) (q : Ring), controlRuns s slot 0x006 c r → c.desc.shape 0 < 1024 → tget s.mrings (c.desc.shape 0) = some q →
    q.part = c.desc.part → (∀ e ∈ r.cmds, (e.2.inFlight = true ∨ e.2.phase = .killed) → ∀ a ∈ ringArgs e.2, a.1 ≠ c.desc.shape 0) →
    exec (.deleteRing slot) s = .next (State.settle (State.controlDone { r with mrings := tdel s.mrings (c.desc.shape 0) } slot.val 0))) ∧
  ∀ (s : State) (slot result : Nat) (c : Cmd), tget s.cmds slot = some c →
    (c.late s.now = false → s.controlDone slot result = (s.postCompletion c 0 0 result).freeSlot slot) ∧
    (c.late s.now = true → s.controlDone slot result =
      (((s.logCmd 0x302 slot).inc F.scLateCnt_count 1).postCompletion c 1 0x302 result).freeSlot slot) ∧ tget (s.controlDone slot result).cmds slot = none

/-- R194, R195, R249, R325, R326, R359, R461, R462: OPEN_CONTEXT opens a context of the record's kind under the lowest free ID, which is the result;
CLOSE_CONTEXT removes it, or marks it where commands of it remain; WRITE_CONTEXT replaces bytes of the delta record, sets dirty where it reaches thresh, period or cache key, and stores no reserved bit; READ_CONTEXT returns bytes; a cut
list or a dictionary is loaded under the lowest free handle where it passes its checks, and unloaded once no command names it.
Rests on the model's choices of log entries 11, 14, 103, 104, 108, 114. -/
def Obligations.ContextsAndLists : Prop :=
  (∀ (s r : State) (slot : Fin 4096) (c : Cmd) (b : List Byte) (id : Nat), controlRuns s slot 0x010 c r → s.openEarly c.desc.part (c.desc.shape 0) = 0 →
    r.inData slot.val c 0 (c.desc.arg 0) (ctxSize (c.desc.shape 0)) = .data b → s.openRecord c.desc.part (c.desc.shape 0) b = 0 → tfree s.ctxs 16384 = some id →
    exec (.openContext slot) s = .next (State.settle (State.controlDone { r with ctxs := tput s.ctxs id (Ctx.new (c.desc.shape 0) c.desc.part (if c.desc.shape 0 = 0 then deltaClean b else b)) } slot.val id))) ∧
  (∀ (s r : State) (slot : Fin 4096) (c : Cmd), controlRuns s slot 0x010 c r → 5 ≤ c.desc.shape 0 →
    exec (.openContext slot) s = .next (State.settle (r.controlRefuse slot.val c 0x329 0))) ∧
  (∀ (s r : State) (slot : Fin 4096) (c : Cmd), controlRuns s slot 0x010 c r → c.desc.shape 0 < 5 →
    s.rd (F.ptQuota_contexts.at (ptBase c.desc.part)) ≤ s.partContexts c.desc.part → exec (.openContext slot) s = .next (State.settle (r.controlRefuse slot.val c 0x307 0))) ∧
  (∀ (s r : State) (slot : Fin 4096) (c : Cmd) (x : Ctx), controlRuns s slot 0x011 c r → tget s.ctxs c.desc.ctx = some x → x.part = c.desc.part → x.parent = none →
    (r.ctxCmds c.desc.ctx c.order = true →
      exec (.closeContext slot) s = .next (State.settle { r with ctxs := tput s.ctxs c.desc.ctx { x with closing := some slot.val } })) ∧
    (r.ctxCmds c.desc.ctx c.order = false → exec (.closeContext slot) s = .next (State.settle ((r.dropCtx c.desc.ctx).controlDone slot.val 0)))) ∧
  (∀ (s : State) (id : Nat) (x : Ctx), tget s.ctxs id = some x → tget (s.dropCtx id).ctxs id = none ∧
    ∀ k y, k ≠ id → tget s.ctxs k = some y → y.parent ≠ some id → tget (s.dropCtx id).ctxs k = some y) ∧
  (∀ (s r : State) (slot : Fin 4096) (c : Cmd) (x : Ctx) (b : List Byte), controlRuns s slot 0x012 c r → tget s.ctxs c.desc.ctx = some x → x.part = c.desc.part →
    x.parent = none → x.kind = 0 → c.desc.shape 1 ≠ 0 → 32 ≤ c.desc.shape 0 → c.desc.shape 0 + c.desc.shape 1 ≤ 64 →
    r.inData slot.val c 0 (c.desc.arg 0) (c.desc.shape 1) = .data b →
    ∃ p, p = deltaClean (x.params.take (c.desc.shape 0) ++ b ++ x.params.drop (c.desc.shape 0 + c.desc.shape 1)) ∧
      (deltaHit (c.desc.shape 0) (c.desc.shape 1) = false →
        exec (.writeContext slot) s = .next (State.settle (State.controlDone { r with ctxs := tput s.ctxs c.desc.ctx { x with params := p } } slot.val 0))) ∧
      (deltaHit (c.desc.shape 0) (c.desc.shape 1) = true →
        exec (.writeContext slot) s = .next (State.settle (State.controlDone {
          r with ctxs := tput s.ctxs c.desc.ctx { x with rewritten := true, params := p.take 53 ++ leBytes 1 (field p 53 1 ||| 2) ++ p.drop 54 } } slot.val 0)))) ∧
  (∀ off len : Nat, 32 ≤ off → 0 < len → (deltaHit off len = true ↔ (off < 40 ∧ 36 < off + len) ∨ (off < 50 ∧ 48 < off + len) ∨ (off < 53 ∧ 52 < off + len))) ∧
  (∀ p : List Byte, p.length = 64 → (deltaClean p).length = 64 ∧ (∀ k, k < 46 ∨ (48 ≤ k ∧ k < 52) → (deltaClean p).getD k 0 = p.getD k 0) ∧
    (deltaClean p).getD 46 0 = 0 ∧ (deltaClean p).getD 47 0 = 0 ∧ field (deltaClean p) 52 1 = field p 52 1 % 32 ∧ field (deltaClean p) 53 1 = field p 53 1 % 4 ∧
    zeros (deltaClean p) 54 10 = true) ∧
  (∀ (s r : State) (slot : Fin 4096) (c : Cmd) (x : Ctx), controlRuns s slot 0x013 c r → tget s.ctxs c.desc.ctx = some x → x.part = c.desc.part →
    x.parent = none → c.desc.shape 1 ≠ 0 → c.desc.shape 0 + c.desc.shape 1 ≤ ctxSize x.kind →
    (argSpace (c.desc.arg 0) = 3 → exec (.readContext slot) s = .next (State.settle ((r.hostWrite c.desc.part (argAddr (c.desc.arg 0))
      ((x.params.drop (c.desc.shape 0)).take (c.desc.shape 1))).controlDone slot.val 0))) ∧
    (∀ t, argSpace (c.desc.arg 0) ≠ 3 → r.dramWrite c.desc.part (argAddr (c.desc.arg 0)) ((x.params.drop (c.desc.shape 0)).take (c.desc.shape 1)) = some t →
      exec (.readContext slot) s = .next (State.settle (t.controlDone slot.val 0)))) ∧
  (∀ (s r : State) (slot : Fin 4096) (c : Cmd) (b : List Byte) (l : CutList) (h : Nat), controlRuns s slot 0x020 c r → argSpace (c.desc.arg 0) = 0 →
    argAddr (c.desc.arg 0) % 64 = 0 → r.inData slot.val c 0 (c.desc.arg 0) (min (c.desc.shape 0) (192 + 16 * 65536 + 1)) = .data b →
    s.registerCheck c.desc.part b (c.desc.shape 0) = .ok l → tfree s.lists 4096 = some h →
    exec (.loadCutList slot) s = .next (State.settle (State.controlDone { r with lists := tput s.lists h l } slot.val h))) ∧
  (∀ (s r : State) (slot : Fin 4096) (c : Cmd) (b : List Byte) (k : Nat), controlRuns s slot 0x020 c r → argSpace (c.desc.arg 0) = 0 →
    argAddr (c.desc.arg 0) % 64 = 0 → r.inData slot.val c 0 (c.desc.arg 0) (min (c.desc.shape 0) (192 + 16 * 65536 + 1)) = .data b →
    s.registerCheck c.desc.part b (c.desc.shape 0) = .error k → exec (.loadCutList slot) s = .next (State.settle (r.refuseCmd slot.val 0x602 k))) ∧
  (∀ (s : State) (p len : Nat) (b : List Byte) (l : CutList), s.registerCheck p b len = .ok l → field b 0 4 = 0x4C545543 ∧ field b 4 2 = 1 ∧
    len = 192 + 16 * field b 8 4 ∧ l.code.length = field b 8 4 ∧ l.part = p ∧ l.budget = field b 16 4 ∧ l.budget ≤ 187500 ∧
    opOf (l.code.getLastD 0) = 0x70 ∧ l.level < 4) ∧
  (∀ (s r : State) (slot : Fin 4096) (c : Cmd) (l : CutList), controlRuns s slot 0x021 c r → tget s.lists (c.desc.shape 0) = some l → l.part = c.desc.part →
    ((∀ e ∈ r.cmds, e.2.desc.cls = 1 → e.2.desc.op = c.desc.shape 0 → e.2.inFlight = false ∧ e.2.phase ≠ .killed) →
      exec (.unloadCutList slot) s = .next (State.settle (State.controlDone { r with lists := tdel s.lists (c.desc.shape 0) } slot.val 0))) ∧
    ((∃ e ∈ r.cmds, e.2.desc.cls = 1 ∧ e.2.desc.op = c.desc.shape 0 ∧ (e.2.inFlight = true ∨ e.2.phase = .killed)) →
      exec (.unloadCutList slot) s = .next r.settle)) ∧
  (∀ (s r : State) (slot : Fin 4096) (c : Cmd), controlRuns s slot 0x021 c r → (∀ l, tget s.lists (c.desc.shape 0) = some l → l.part ≠ c.desc.part) →
    exec (.unloadCutList slot) s = .next (State.settle (r.refuseCmd slot.val 0x609 (c.desc.shape 0)))) ∧
  (∀ (s r : State) (slot : Fin 4096) (c : Cmd) (b : List Byte) (h : Nat), controlRuns s slot 0x022 c r →
    r.inData slot.val c 0 (c.desc.arg 0) (c.desc.shape 0) = .data b → tfree s.dicts 16 = some h →
    (dictOk b = true → exec (.loadDictionary slot) s = .next (State.settle (State.controlDone { r with dicts := tput s.dicts h ⟨some c.desc.part, b⟩ } slot.val h))) ∧
    (dictOk b = false → exec (.loadDictionary slot) s = .next (State.settle ((r.tkLast 0xA04).refuseCmd slot.val 0xA04)))) ∧
  (∀ (s r : State) (slot : Fin 4096) (c : Cmd) (d : Dict), controlRuns s slot 0x023 c r → tget s.dicts (c.desc.shape 0) = some d → d.part = some c.desc.part →
    (∀ e ∈ r.cmds, e.2.desc.cls ≠ 6) → exec (.unloadDictionary slot) s =
      .next (State.settle (State.controlDone { r with dicts := tdel s.dicts (c.desc.shape 0) } slot.val 0))) ∧
  ∀ (s r : State) (slot : Fin 4096) (c : Cmd) (d : Dict), controlRuns s slot 0x023 c r → tget s.dicts (c.desc.shape 0) = some d → d.part ≠ some c.desc.part →
    exec (.unloadDictionary slot) s = .next (State.settle (r.controlRefuse slot.val c 0x329 (c.desc.shape 0)))

/-! ### Decode, encode, batches, tokens, tracks (07, 10, 11) -/

/-- R327, R331, R333, R336, R340, R342, R346, R347, R557: an access unit is fetched and queued for its context; a flush outputs what is left; a waiting
picture takes the lowest-numbered idle engine, and a picture outside the limits is rejected with no effect on its context; a checkpoint is a boundary at
which the engine may switch epoch; a budget expires once; a finished picture commits its command; an encoded picture passes its bytes on, or overflows
its buffer; an engine fault kills the command and reloads or retires the engine; a reload waits for the picture and answers with its log record; a
request and a set-aside do nothing else.
Rests on the model's choices of log entries 4, 11, 15, 23, 64, 65, 66, 67, 69, 70, 71, 87, 89, 95, 108, 118, 122. -/
def Obligations.Pictures : Prop :=
  (∀ (s : State) (slot : Fin 4096) (c : Cmd) (b : List Byte), tget s.cmds slot.val = some c → c.desc.cls = 2 → c.desc.op = 0 → c.queued = false →
    s.pow.paused = false → (c.phase = .eligible ∨ c.phase = .killed) → s.lateDrop c = false → s.commonCheck c = 0 → s.ctxClosed c = false →
    s.triggersReady c.desc.ctx = true → (s.fetchStalls c = false ∨ c.rerun = true) → s.inData slot.val c 0 (c.desc.arg 0) (c.desc.shape 0) = .data b →
    exec (.decodeAccessUnit slot) s = .next (State.settle { s with cmds := tput s.cmds slot.val { c with
      queued := true, src := b, dramRd := c.dramRd + if argSpace (c.desc.arg 0) = 0 then b.length else 0 } })) ∧
  (∀ (s : State) (slot : Fin 4096) (c : Cmd) (x : Ctx) (order : List Nat) (t : State), tget s.cmds slot.val = some c → c.desc.cls = 2 → c.desc.op = 1 →
    (c.phase = .eligible ∨ c.phase = .killed) → s.lateDrop c = false → s.epochWait c = false → s.commonCheck c = 0 → tget s.ctxs c.desc.ctx = some x →
    s.ctxClosed c = false → s.triggersReady c.desc.ctx = true →
    order.mergeSort = ((List.range x.dpb.length).filter fun n => match x.dpb[n]? with | some p => !p.shown | none => false) →
    s.tryDispatch slot.val c = .go t →
    exec (.decodeFlush slot order) s = .next (State.settle ((t.rerunStarted c).commitPics slot.val c.desc.ctx { x with
      dpb := x.dpb.map fun p => { p with ref := false } } order []))) ∧
  (∀ (s : State) (slot : Fin 4096) (h : PicHead) (c : Cmd) (x : Ctx) (e : Nat), tget s.cmds slot.val = some c → c.desc.cls = 2 → s.wantsEngine c = true →
    s.pictureNext slot.val c = true → s.mediaMay c = true → (∀ k ∈ enginesOf 2, (s.engine k).aside = none) → s.idleEngine 2 = some e →
    s.lateDrop c = false → s.commonCheck c = 0 → tget s.ctxs c.desc.ctx = some x → s.ctxClosed c = false →
    (c.desc.epoch = 0 ∨ seqLt (s.engine e).epoch c.desc.epoch = false) →
    (x.rejects h ≠ 0 → exec (.pictureEngineStart slot h) s = .next (State.settle (s.rejectPicture slot.val c (x.rejects h) e))) ∧
    (∀ (bufs : List (Nat × BufRef)) (t s1 s2 s3 : State), x.rejects h = 0 → c.frameBuf = none → c.mapBuf = none → s.tryDispatch slot.val c = .go t →
      s.takeDecks slot.val c x.isLive (x.mediaDecks 2) = .got bufs s1 → bufs ≠ [] → s1.tryDispatch slot.val c = .go s2 →
      s3 = s2.modCmd slot.val (fun d => { d with
        waitDeck := none, epoch := (s.engine e).epoch, holds := d.holds ++ bufs.map (·.2), src := c.src, frameBuf := tget bufs 0, mapBuf := tget bufs 1 }) →
      exec (.pictureEngineStart slot h) s = .next (State.settle (State.rerunStarted (State.servePixels (s3.setEngine e
        { s3.engine e with job := some ⟨slot.val, c.desc.ctx, x.isLive, false, 1 < c.boundsOn.length, h, s.now⟩ }) c (h.w * h.h)) c)))) ∧
  (∀ (s : State) (e : Nat), s.idleEngine 2 = some e → e < 4 ∧ s.engineIdle e = true ∧ ∀ k, k < e → s.engineIdle k = false) ∧
  (∀ (x : Ctx) (h : PicHead), h.ok = false ∨ 8192 < h.w ∨ 4352 < h.h ∨ 35651584 < h.w * h.h → x.rejects h = 0x801) ∧
  (∀ (s : State) (e : Fin 6) (j : Job), (s.engine e.val).job = some j → s.pow.paused = false → 64 + e.val ∉ s.sched.switching →
    exec (.segmentCheckpoint e) s = .next (State.settle (s.modCmd j.slot fun c => { c with segs := c.segs + 1 }))) ∧
  (∀ (s : State) (e : Fin 6) (j : Job), (s.engine e.val).job = some j → s.pow.paused = false → s.sched.switching = [64 + e.val] → s.rdB F.scStat_switching = true →
    ∃ u : State, exec (.segmentCheckpoint e) s = .next u.settle ∧ (u.engine e.val).epoch = s.rd F.scEpochCur_epoch ∧ (u.engine e.val).job = some j ∧
      u.sched.switching = [] ∧ u.rd F.scEpochCtrl_done = 1 ∧ u.rd F.scEpochCtrl_pending = 0 ∧ u.rd F.scStat_switching = 0) ∧
  (∀ (s : State) (e : Fin 4) (j : Job), (s.engine e.val).job = some j → s.pow.paused = false →
    (j.expired = false → exec (.pictureBudgetExpiry e) s = .next (State.settle (State.inc (s.setEngine e.val { s.engine e.val with
      job := some { j with expired := true } }) F.mdErrBudget_count 1))) ∧
    (j.expired = true → exec (.pictureBudgetExpiry e) s = .next s.settle)) ∧
  (∀ (s t : State) (e : Fin 4) (r : PicEnd) (j : Job) (c : Cmd) (x : Ctx) (fb : BufRef) (p : Pic) (uc : Word), (s.engine e.val).job = some j →
    s.pow.paused = false → tget s.cmds j.slot = some c → tget s.ctxs j.ctx = some x → c.frameBuf = some fb → c.mapBuf = none → c.desc.notBefore ≠ noStamp →
    r.short = false → r.syntaxErr = false → r.lone = none → r.refMissing = false → j.expired = false → j.damaged = false → picCycles r ≤ x.budgetOf r →
    x.grain = false → j.head.unref = [] → uc = BitVec.ofNat 32 (s.rd (F.engVer_ver.at (engBase e.val))) →
    p = { id := 0, frame := fb, map := none, stamp := c.desc.notBefore, ref := j.head.isRef, shown := false, w := j.head.w, h := j.head.h, d10 := j.head.d10,
          chroma := j.head.chroma.val, key := j.head.key, intra := r.intra, hidden := r.hidden ++ r.marked, unpaired := false, clean := [] } →
    t = s.writeFrame c.desc.part (s.frameOf p) 0 (s.frameOf p).h
      (s.decodedValue (Config.decodedSample x.params x.decHist c.src uc) (s.frameOf p) p r.hidden none x.lastOut) →
    exec (.pictureComplete e r) s = .next (State.settle (State.commitPics (State.engineDone (State.modCmd (State.addWork (t.keepBuf fb j.slot j.ctx)
        j.slot (picCycles r) r.read
        (frameSize j.head.w j.head.h j.head.d10 j.head.chroma.val + if x.mapEn then mapSize j.head.w j.head.h else 0) (r.coded + r.concealed))
        j.slot fun c => { c with holds := c.holds.filter fun b => b != fb && c.mapBuf != some b, frameBuf := none, mapBuf := none }) e.val r.coded 1)
      j.slot j.ctx { x with decHist := Config.decNext x.params x.decHist c.src uc, dpb := x.dpb ++ [p] } r.outs r.leaves))) ∧
  (∀ (s : State) (raw : Nat → Nat → Nat → Nat) (f : Frame) (p : Pic) (hidden : List Nat) (plane y x : Nat),
    (f.blockOf plane y x ∉ hidden → ∀ prev, s.decodedValue raw f p hidden none prev plane y x = raw plane y x) ∧
    (f.blockOf plane y x ∈ hidden → s.decodedValue raw f p hidden none none plane y x = 2 ^ (f.depth - 1) ∧
      ∀ q, p.sameShape q = true → s.decodedValue raw f p hidden none (some q) plane y x = s.picSample q plane y x)) ∧
  (∀ (s : State) (e : Fin 4) (r : PicEnd), (s.engine e.val).job = none → exec (.pictureComplete e r) s = .next s.settle) ∧
  (∀ (s : State) (w h blocks : Nat), mapDims w h = (cdiv w 16, cdiv h 16) ∧ (0 < blocks → sadLevel blocks = min 31 (1 + blocks.log2)) ∧ sadLevel 0 = 0 ∧
    mapDims 1920 1080 = (120, 68) ∧ s.draw = (s.fresh, { s with fresh := s.fresh + 1 })) ∧
  (∀ (s s0 s1 : State) (e : Fin 2) (read : Nat) (j : Job) (c : Cmd) (x : Ctx) (ob rb : BufRef) (src out : List Byte) (f rf : Frame) (uc : Word),
    (s.engine (4 + e.val)).job = some j → s.pow.paused = false → tget s.cmds j.slot = some c → tget s.ctxs j.ctx = some x → c.mapBuf = some ob →
    c.frameBuf = some rb → x.recon = none → f = Frame.ofBytes c.src → s.frameRead c.desc.part f = .ok src → x.windowTrigger c.desc.op = false → x.winLeft = 0 →
    x.group = 0 → x.encShape.2.1 ≤ x.encShape.2.2 → f.h ≤ 64 * x.encShape.2.2 → x.encRefs.length < field x.params 22 1 →
    uc = BitVec.ofNat 32 (s.rd (F.engVer_ver.at (engBase (4 + e.val)))) → out = Config.encBytes x.params x.encHist src c.desc.op uc →
    s0 = (s.dramWrite c.desc.part (s.bufAddr ob) out).getD s →
    rf = ⟨s0.bufAddr rb, s0.bufSize rb.deck, f.w, f.h, (frameLayout f.w f.h f.wide 1).1, (frameLayout f.w f.h f.wide 1).2.1, (frameLayout f.w f.h f.wide 1).2.2.1,
      1, f.wide⟩ →
    s1 = State.engineDone (State.addWork (State.keepBuf (State.publishBuf (s0.writeFrame c.desc.part rf 0 f.h
        fun plane y k => Config.encSample x.params x.encHist src c.desc.op uc (plane, y, k)) ob j.slot [.host]) rb j.slot j.ctx)
      j.slot (f.w * f.h) read (out.length + f.w * f.h) (f.w * f.h)) (4 + e.val) (f.w * f.h) 1 →
    ∃ (c1 c2 : Cmd) (x' : Ctx), exec (.encodePicture e read) s = .next (State.settle (if s.bufSize ob.deck < out.length
        then State.engineBoundary (s.endEncode j.slot c 0x904 (4 + e.val)) (4 + e.val) else (s1.setCmd j.slot c2).commitStep j.slot c2 false)) ∧
      tget s1.cmds j.slot = some c1 ∧ c2 = { c1 with
        holds := c1.holds.filter fun b => b != ob && b != rb, frameBuf := none, mapBuf := none, newCtx := [(j.ctx, some x')], result := s1.bufAddr ob % 2 ^ 39 + out.length % 2 ^ 25 * 2 ^ 39 } ∧
      x'.encHist = Config.encNext x.params x.encHist src c.desc.op uc ∧ x'.encRefs = rb :: x.encRefs ∧ x'.recon = none ∧ x'.group = 0 ∧ x'.winLeft = 0 ∧
      (x'.cycle = 0 ∨ x'.cycle = (x.cycle + 1) % x.cycleLen)) ∧
  (∀ (s : State) (e : Fin 6), (s.engine e.val).mode ≠ 1 → exec (.engineFault e false) s = .next s.settle ∧ exec (.engineReload e) s = .next s.settle ∧
    exec (.pictureSetAside e) s = .next s.settle) ∧
  (∀ (s : State) (e : Fin 6), (s.engine e.val).mode = 1 → (s.engine e.val).job = none →
    ∃ u : State, exec (.engineFault e false) s = .next u.settle ∧
      ((s.engine e.val).watch = 0 → u.engine e.val = { s.engine e.val with mode := 4, watch := 16, reloadDue := false }) ∧
      (0 < (s.engine e.val).watch → s.sec.reloads = [] → u.engine e.val = { s.engine e.val with mode := 5, watch := 0 }) ∧
      u.rd (F.engFault_faults.at (engBase e.val)) = (s.rd (F.engFault_faults.at (engBase e.val)) + 1) % 2 ^ F.engFault_faults.w ∧ u.cmds = s.cmds ∧
      u.ctxs = s.ctxs) ∧
  (∀ (s : State) (e : Fin 6), (s.engine e.val).mode = 1 → ∃ u : State, exec (.engineReload e) s = .next u.settle ∧
    u.rd (F.engCtrl_reload.at (engBase e.val)) = 1 ∧ u = { s with regs := u.regs, engines := u.engines } ∧
    (∀ j, (s.engine e.val).job = some j → u.engine e.val = { s.engine e.val with reloadDue := true }) ∧
    ((s.engine e.val).job = none → u.engine e.val = { s.engine e.val with mode := 4, reloadDue := false })) ∧
  (∀ (s : State) (e : Fin 6), (s.engine e.val).mode = 4 → s.sec.reloads = [] → ∃ u : State, exec (.engineReloadComplete e) s = .next u.settle ∧
    u.engine e.val = { s.engine e.val with mode := 1, ucode := Config.sha384 s.sec.ucBank.image } ∧ u.rd (F.engCtrl_reload.at (engBase e.val)) = 0 ∧
    u.rd (F.engVer_ver.at (engBase e.val)) = s.sec.ucBank.ver.toNat % 2 ^ F.engVer_ver.w ∧ u.cmds = s.cmds ∧ u.sec = s.sec) ∧
  (∀ (s : State) (e : Fin 6) (v : Bool), exec (.engineOfflineRequest e v) s = .next (State.settle (s.wrB (F.engCtrl_offlineReq.at (engBase e.val)) v)) ∧
    ∀ k, (s.wrB (F.engCtrl_offlineReq.at (engBase e.val)) v).engine k = s.engine k) ∧
  (∀ (s : State) (e : Fin 6) (j : Job) (c : Cmd), (s.engine e.val).mode = 1 → s.pow.paused = false → (s.engine e.val).job = some j →
    (s.engine e.val).aside = none → tget s.cmds j.slot = some c → c.attempts ≤ 1 → s.idleEngine (if e.val < 4 then 2 else 3) = none →
    (∃ w ∈ s.cmds, w.2.desc.cls = (if e.val < 4 then 2 else 3) ∧ w.2.phase = .killed ∧ s.wantsEngine w.2 = true) →
    exec (.pictureSetAside e) s = .next (State.settle (State.modCmd (s.setEngine e.val { s.engine e.val with job := none, aside := some j }) j.slot
      fun c => { c with segs := c.segs + 1 }))) ∧
  ∀ (s : State) (slot : Fin 4096) (h : PicHead) (c : Cmd) (j : Job) (e k : Nat), tget s.cmds slot.val = some c → s.idleEngine c.desc.cls = some e →
    ((enginesOf c.desc.cls).find? fun k => match (s.engine k).aside with | some j => j.slot == slot.val | none => false) = some k →
    (s.engine k).aside = some j → s.pow.paused = false → (∀ w ∈ s.cmds, w.2.phase ≠ .killed) →
    exec (.pictureEngineStart slot h) s = .next (State.settle (State.setEngine (s.setEngine k { s.engine k with aside := none }) e
      { (s.setEngine k { s.engine k with aside := none }).engine e with job := some j }))

/-- R198, R263 to R265, R349 to R366: a command of the ROI resampler, the assembler, the tokenizer or the tracker is refused as its class says, without any
side effect; dispatched and complete, it commits with what its engine computed: an empty box list resamples nothing, a batch descriptor out of range is
refused, a text becomes the tokens of its dictionary and the rest is carried, and a track command without detections ages its tracks.
Rests on the model's choices of log entries 15, 64, 72, 73, 83, 90, 95, 108, 114. -/
def Obligations.InputCommands : Prop :=
  (∀ (s : State) (slot : Fin 4096) (c : Cmd), tget s.cmds slot.val = some c → c.desc.cls = 5 → c.phase = .eligible → inputMay s 5 c = true →
    s.commonCheck c = 0 →
    (4096 < c.desc.shape 0 → exec (.roiCommand slot) s = .next (State.settle (State.refuseCmd (s.roiLast 0xA40 0) slot.val 0xA40))) ∧
    (c.desc.shape 0 ≤ 4096 → c.desc.shape 1 < 4 ∨ 64 < c.desc.shape 1 →
      exec (.roiCommand slot) s = .next (State.settle (State.refuseCmd (s.roiLast 0xA41 0) slot.val 0xA41)))) ∧
  (∀ (s t : State) (slot : Fin 4096) (c : Cmd), tget s.cmds slot.val = some c → c.desc.cls = 5 → c.phase = .running → s.pow.paused = false → c.desc.shape 0 = 0 →
    s.freshOut slot.val 1 [] = .ok t →
    exec (.roiCommand slot) s = .next (State.settle (State.inc (t.engineCommit slot.val id) F.sxRoiStat_done 1))) ∧
  (∀ (s : State) (slot : Fin 4096) (c : Cmd) (bl tb data : List Byte) (b : Box) (f : Frame) (t : State), tget s.cmds slot.val = some c → c.desc.cls = 5 →
    c.phase = .running → s.pow.paused = false → c.desc.shape 0 = 1 → s.inData slot.val c 0 (c.desc.arg 0) 32 = .data bl → s.inData slot.val c 1 (c.desc.arg 2) 512 = .data tb →
    b = boxAt bl 0 → field ((tb.drop (64 * b.frame)).take 64) 8 4 ≠ 0 → frameOk ((tb.drop (64 * b.frame)).take 64) = true →
    f = Frame.ofBytes ((tb.drop (64 * b.frame)).take 64) → (∃ px, s.frameRead c.desc.part f = .ok px) → b.hole f = false → c.desc.shape 3 = 1 →
    data = s.roiBytes [(b, f)] [0] (c.desc.shape 1) (c.desc.shape 2) (if f.wide then 2 else 1) → s.freshOut slot.val 1 data = .ok t →
    exec (.roiCommand slot) s = .next (State.settle (State.inc (State.engineCommit (State.addWork (t.inc2 F.sxRoiBoxesLo_count F.sxRoiBoxesHi_count 1) slot.val
      (cdiv (c.desc.shape 1 * c.desc.shape 2) 16) 544 (c.desc.shape 1 * c.desc.shape 2 * (if f.wide then 2 else 1) + 4) (c.desc.shape 1 * c.desc.shape 2))
      slot.val id) F.sxRoiStat_done 1))) ∧
  (∀ (b : Box) (f : Frame), b.hole f = true ↔ b.x1 ≤ b.x0 ∨ b.y1 ≤ b.y0 ∨ f.w * 65536 ≤ b.x0 ∨ f.h * 65536 ≤ b.y0) ∧
  (∀ (v W H ow oh y x : Nat), 0 < W → 0 < H → y < oh → x < ow → resample (fun _ _ => v) W H 0 0 (W * 65536) (H * 65536) ow oh y x = v) ∧
  (∀ (s : State) (slot : Fin 4096) (c : Cmd) (b : List Byte), tget s.cmds slot.val = some c → c.desc.cls = 4 → c.phase = .eligible →
    inputMay s 4 c = true → s.commonCheck c = 0 → (s.inputStalls c = false ∨ c.rerun = true) → s.inData slot.val c 0 (c.desc.arg 7) 64 = .data b → batchOk b c = false →
    exec (.batchCommand slot) s = .next (State.settle (State.refuseCmd (s.sxLast 0xA03 0) slot.val 0xA03))) ∧
  (∀ (s t1 t2 : State) (slot : Fin 4096) (c : Cmd) (b sds : List Byte) (d : Batch) (ls : List (List Byte)) (n : Nat), tget s.cmds slot.val = some c →
    c.desc.cls = 4 → c.phase = .running → s.pow.paused = false → s.inData slot.val c 0 (c.desc.arg 7) 64 = .data b → d = Batch.of b → d.n = 1 → d.levels = 0 →
    c.segs = 0 → s.inData slot.val c 1 (d.desc + if d.dram then 0 else 3 * 2 ^ 48) 64 = .data sds → field (sds.take 64) 0 1 ≠ 1 →
    s.batchSample slot.val c d 0 (sds.take 64) = .data ls n →
    s.freshOut slot.val 0 (ls.getD 0 []) = .ok t1 → t1.freshOut slot.val 6 (statusBytes [0]) = .ok t2 →
    ∃ u : State, exec (.batchCommand slot) s = .next (State.settle (u.engineCommit slot.val id)) ∧
      u.sched.sxNs = t2.sched.sxNs + cdiv d.work 16 ∧ u.dram = t2.dram ∧
      u.cmds = State.cmds (((t2.addWork slot.val (cdiv d.work 16) n (d.slot 0) d.work).modCmd slot.val fun c => { c with segs := 1 }).addWork slot.val 0 64 6272)) ∧
  (∀ v : Nat, v < 256 → outCode 0 v = v ∧ outCode 1 v = (v + 128) % 256 ∧ toRgb false true 8 v 128 128 = [v, v, v] ∧ adjust 256 0 v = v ∧ adjust 0 0 v = v) ∧
  (∀ (s : State) (slot : Fin 4096) (c : Cmd), tget s.cmds slot.val = some c → c.desc.cls = 6 → c.phase = .eligible → inputMay s 6 c = true →
    s.commonCheck c = 0 →
    (262144 < c.desc.shape 0 → exec (.tokenize slot) s = .next (State.settle (State.refuseCmd (s.tkLast 0xA06) slot.val 0xA06))) ∧
    (c.desc.shape 0 ≤ 262144 → c.desc.op.testBit 1 = true → c.desc.op.testBit 2 = false →
      exec (.tokenize slot) s = .next (State.settle (s.refuseCmd slot.val 0x324)))) ∧
  (∀ (s t : State) (slot : Fin 4096) (c : Cmd) (x : Ctx) (dict : Dict) (own rest : List Byte) (ids : List Nat) (last : Option Byte),
    tget s.cmds slot.val = some c → c.desc.cls = 6 → c.phase = .running → s.pow.paused = false → s.inData slot.val c 0 (c.desc.arg 0) (c.desc.shape 0) = .data own →
    tget s.ctxs c.desc.ctx = some x → tget s.dicts (field x.params 0 1) = some dict → c.desc.op = 4 →
    tokens dict.image (dictEntries dict.image) 1 ((x.carry ++ own).length + 1) (x.carry ++ own) x.lastByte = (ids, rest, last) →
    argKind (c.desc.arg 1) = 4 → s.ringOut slot.val (tokRecords c.desc.ctx c.seq s.now x.tokens ids) = some t →
    ∃ u : State, exec (.tokenize slot) s = .next (State.settle (u.engineCommit slot.val fun c => { c with
        newCtx := [(c.desc.ctx, some { x with carry := rest, lastByte := last, tokens := (x.tokens + ids.length) % 2 ^ 32 })],
        result := ids.length % 2 ^ 32 + rest.length % 64 * 2 ^ 32 })) ∧
      u.rd2 F.tkTokensLo_tokens F.tkTokensHi_tokens = (t.rd2 F.tkTokensLo_tokens F.tkTokensHi_tokens + ids.length) % 2 ^ 64) ∧
  (∀ (img : List Byte) (es : List DictEnt) (keep n : Nat) (text : List Byte) (last : Option Byte), text.length < n →
    ((tokens img es keep n text last).2.1.length < keep ∨ (tokens img es keep n text last).2.1 = []) ∧
      ∃ used, text = used ++ (tokens img es keep n text last).2.1) ∧
  (∀ (s : State) (slot : Fin 4096) (c : Cmd), tget s.cmds slot.val = some c → c.desc.cls = 7 →
    (c.phase = .eligible → inputMay s 7 c = true → s.commonCheck c = 0 → s.ctxClosed c = true →
      exec (.track slot) s = .next (State.settle (s.refuseCmd slot.val 0x329))) ∧
    (c.phase = .running → s.pow.paused = false → 1024 < c.desc.shape 0 → exec (.track slot) s = .next (State.settle (s.dataFault slot.val 0xA08 .media)))) ∧
  (∀ (s t : State) (slot : Fin 4096) (c : Cmd) (x : Ctx), tget s.cmds slot.val = some c → c.desc.cls = 7 → c.phase = .running → s.pow.paused = false → c.desc.shape 0 = 0 →
    argKind (c.desc.arg 0) ≠ 7 → s.inData slot.val c 0 (c.desc.arg 0) 0 = .data [] → tget s.ctxs c.desc.ctx = some x → x.tracks = [] → x.lastFrame = none →
    c.src = [] → argKind (c.desc.arg 2) ≠ 6 →
    s.ringOut slot.val [metaRecord 6 0 0 (c.desc.ctx + 2 ^ 14) c.seq s.now (leBytes 1 1 ++ List.replicate 7 (0 : Byte) ++ leBytes 4 0 ++ leBytes 4 0 ++
      leBytes 4 0 ++ leBytes 4 0 ++ leBytes 4 0 ++ leBytes 4 0)] = some t →
    ∃ u : State, exec (.track slot) s = .next (State.settle (u.engineCommit slot.val fun c => { c with
        newCtx := [(c.desc.ctx, some { x with lastFrame := some (stFrame c.desc.notBefore), nextTrack := x.nextTrack % 2 ^ 32 })], result := 1 })) ∧
      u.dram = t.dram ∧ u.cmds = (t.addWork slot.val 20000 0 0).cmds ∧ u.ctxs = t.ctxs) ∧
  ∀ (ts : List Track) (ds : List Det) (iouMin f : Nat), (∀ p ∈ associate iouMin f ts ds, p.t ∈ ts ∧ p.d ∈ ds ∧ p.t.cls = p.d.cls ∧ iouMin * p.u ≤ p.i * 65536) ∧
    (associate iouMin f ts ds).Pairwise fun p q => p.t.id ≠ q.t.id ∧ p.d.idx ≠ q.d.idx

/-! ### The PCIe endpoint (14) -/

/-- R414, R415, R421, R422, R436, R440 to R444: a trained link shows its rate and width, counts retrains, and is degraded below 16 GT/s or four lanes;
with ASPM L1 enabled the link enters L1; an aperture access that nothing refuses reads or writes DRAM, and one out of reach or refused does
neither; an unmasked vector sends its pending message once; power states and Bus Master Enable take the value written; a wake event that is enabled is
recorded.
Rests on the model's choices of log entries 8, 108. -/
def Obligations.EndpointAccess : Prop :=
  (∀ (s : State) (speed : Fin 7) (width : Fin 5) (flit : Bool), speed.val ≠ 0 → (width.val = 1 ∨ width.val = 2 ∨ width.val = 4) → s.ep.perst = false → s.railsUp = true →
    ∃ u : State, exec (.linkTrained speed width flit) s = .next u.settle ∧ u.ep.linkUp = true ∧ u.rd F.glLink_speed = speed.val ∧
      u.rd F.glLink_width = width.val ∧ u.rd F.glLink_flit = b2n (flit || speed.val == 6) ∧ u.rd F.glLink_l1 = 0 ∧
      u.rd F.glLink_degraded = b2n (decide (speed.val < 4) || decide (width.val < 4)) ∧
      u.rd F.glLink_retrains = (if s.ep.linkUp then (s.rd F.glLink_retrains + 1) % 2 ^ 16 else s.rd F.glLink_retrains) ∧
      u.cmds = s.cmds ∧ u.sqs = s.sqs ∧ u.tl = s.tl ∧ u.boles = s.boles) ∧
  (∀ (s : State) (speed : Fin 7) (width : Fin 5) (flit : Bool), (speed.val = 0 ∨ width.val = 0 ∨ width.val = 3 ∨ s.ep.perst = true ∨ s.railsUp = false) →
    exec (.linkTrained speed width flit) s = .next s.settle) ∧
  (∀ s : State, s.ep.linkUp = true → (s.rd (F.cfgLinkCtl_aspm.cfg 0)).testBit 1 = true → exec .aspmL1Entry s = .next (State.settle (s.wr F.glLink_l1 1))) ∧
  (∀ s : State, (s.rd (F.cfgLinkCtl_aspm.cfg 0)).testBit 1 = false → exec .aspmL1Entry s = .next s.settle) ∧
  (∀ (s t : State) (fn : Fin 16) (off : Nat) (n : Fin 4097) (data : List Byte), s.ep.linkUp = true → t = s.wr F.glLink_l1 0 → t.barOpen fn.val = true →
    (off + n.val ≤ t.aptSize fn.val → t.aptRefuse fn.val (t.aptBase fn.val + off) n.val true = none →
      exec (.apertureRead fn off n) s = .next (State.settle (t.emit (.readData fn.val (t.dramBytes (t.aptBase fn.val + off) n.val))))) ∧
    (off + data.length ≤ t.aptSize fn.val → t.aptRefuse fn.val (t.aptBase fn.val + off) data.length false = none →
      exec (.apertureWrite fn off data) s = .next (State.settle (t.dramPut (t.aptBase fn.val + off) data))) ∧
    (∀ code a : Nat, off + n.val ≤ t.aptSize fn.val → t.aptRefuse fn.val (t.aptBase fn.val + off) n.val true = some (code, a) →
      exec (.apertureRead fn off n) s = .next (State.settle ((t.aptLog fn.val code a).emit (.completerAbort fn.val)))) ∧
    (t.aptSize fn.val < off + n.val → exec (.apertureRead fn off n) s = .next (State.settle (t.emit (.unsupported fn.val))))) ∧
  (∀ (s t : State) (fn : Fin 16) (off : Nat) (data : List Byte), s.ep.linkUp = true → t = s.wr F.glLink_l1 0 →
    (t.barOpen fn.val = false ∨ t.aptSize fn.val < off + data.length ∨ ∃ e, t.aptRefuse fn.val (t.aptBase fn.val + off) data.length false = some e) →
    ∃ u : State, exec (.apertureWrite fn off data) s = .next u.settle ∧ u.cmds = s.cmds ∧
      (t.rdB F.ftCfg_logEn = false → s.mrings = [] → u.dram = s.dram)) ∧
  (∀ (s : State) (fn a n : Nat) (rd : Bool), (s.rdB F.glStatus_memReady = false → s.aptRefuse fn a n rd = some (0xD05, a)) ∧
    (s.rdB F.glStatus_memReady = true → dramSize < a + n → s.aptRefuse fn a n rd = some (0xD06, a))) ∧
  (∀ (s : State) (fn : Fin 16) (vec : Fin 2048), fnVectors fn.val ≤ vec.val → exec (.msixUnmask fn vec) s = .next s.settle) ∧
  (∀ (s : State) (fn : Fin 16) (vec : Fin 2048), vec.val < fnVectors fn.val →
    ((s.msixEnt fn.val vec.val).pend = false ∨ s.rdB (F.cfgMsix_enable.cfg fn.val) = false →
      exec (.msixUnmask fn vec) s = .next (State.settle (s.setMsix fn.val vec.val { s.msixEnt fn.val vec.val with masked := false }))) ∧
    ((s.msixEnt fn.val vec.val).pend = true → s.rdB (F.cfgMsix_enable.cfg fn.val) = true → s.rdB (F.cfgMsix_fnMask.cfg fn.val) = false → s.fnAwake fn.val = true →
      ∃ u : State, exec (.msixUnmask fn vec) s = .next u.settle ∧
        u.out = s.out ++ [.msix fn.val vec.val (s.msixEnt fn.val vec.val).addr (s.msixEnt fn.val vec.val).data] ∧
        u.msixEnt fn.val vec.val = { s.msixEnt fn.val vec.val with masked := false, pend := false } ∧ u = { s with ep := u.ep, out := u.out })) ∧
  (∀ (s : State) (fn : Fin 16), exec (.powerStateWrite fn 3) s = .next (State.settle (s.wr (F.cfgPmcsr_state.cfg fn.val) 3)) ∧
    exec (.powerStateWrite fn 1) s = .next s.settle ∧ exec (.powerStateWrite fn 2) s = .next s.settle) ∧
  (∀ (s : State) (fn : Fin 16), s.ep.held = [] → s.ep.waitq = [] → (∀ e ∈ s.ep.msix, e.2.pend = false) →
    exec (.powerStateWrite fn 0) s = .next (State.settle (s.wr (F.cfgPmcsr_state.cfg fn.val) 0)) ∧
    ∀ v : Bool, exec (.busMasterEnableChange fn v) s = .next (State.settle (s.wrB (F.cfgCmd_busMaster.cfg fn.val) v))) ∧
  (∀ (s : State) (fn : Fin 16) (m : OutMsg), s.ep.held = [(fn.val, m)] → s.ep.waitq = [] → s.ep.msix = [] →
    s.rd (F.cfgPmcsr_state.cfg fn.val) = 0 → s.rd (F.cfgPmcsr_state.cfg 0) = 0 →
    ∃ u : State, exec (.busMasterEnableChange fn true) s = .next u.settle ∧ u.out = s.out ++ [m] ∧ u.ep.held = [] ∧
      u.rdB (F.cfgCmd_busMaster.cfg fn.val) = true ∧ u = { s with regs := u.regs, ep := u.ep, out := u.out }) ∧
  (∀ (s : State) (fn : Fin 16) (q : HostReq) (sq : Nat), s.ep.waitq = [q] → q.fn = fn.val → q.use = .descriptor sq →
    exec (.busMasterEnableChange fn false) s = .next (State.settle (s.wrB (F.cfgCmd_busMaster.cfg fn.val) false))) ∧
  ∀ (s : State) (port : Fin 3), (s.d3cold = true ∨ s.rd (F.cfgPmcsr_state.cfg 0) = 3) → s.rdB F.glWake_skidwayEn = true →
    ∃ u : State, exec (.skidwayWake port) s = .next u.settle ∧ u.rd F.glWake_last = 2 ∧
      (s.rdB (F.cfgPmcsr_pmeEn.cfg 0) = true → u.rdB (F.cfgPmcsr_pmeStatus.cfg 0) = true ∧ (s.d3cold = true → u.ep.wakePin = true) ∧
        (s.d3cold = false → u.out = s.out ++ [.pme])) ∧
      (s.rdB (F.cfgPmcsr_pmeEn.cfg 0) = false → u.out = s.out ∧ u.ep = s.ep)

/-- R426 to R433, R438 to R440, R529, R566: NumVFs is written only below the total and with VF Enable clear; clearing VF Enable resets every virtual function;
a completion delivers its data and frees its tag, a late one or one without a tag is reported; a read that times out or fails is counted and its command
ends; a quarantined tag returns; a poisoned request is reported; a function-level reset removes what its function holds and is done
when it says so; a link that goes down, and PERST#, reset every function.
Rests on the model's choices of log entries 7, 9, 21, 49, 90, 106, 108. -/
def Obligations.EndpointResets : Prop :=
  (∀ (s : State) (v : Fin 65536), (v.val ≤ 15 → s.rdB (F.cfgSriovCtl_vfEnable.cfg 0) = false →
      exec (.numvfsWrite v) s = .next (State.settle (s.wr (F.cfgSriovNum_numVfs.cfg 0) v.val))) ∧
    (15 < v.val ∨ s.rdB (F.cfgSriovCtl_vfEnable.cfg 0) = true → exec (.numvfsWrite v) s = .next s.settle)) ∧
  (∀ s : State, (s.rdB (F.cfgSriovCtl_vfEnable.cfg 0) = false → exec .vfEnableClear s = .next s.settle) ∧
    (s.rdB (F.cfgSriovCtl_vfEnable.cfg 0) = true → ∃ u : State, exec .vfEnableClear s = .next u.settle ∧
      u.rdB (F.cfgSriovCtl_vfEnable.cfg 0) = false ∧ (∀ e ∈ u.sqs, e.2.part = 0 ∨ 15 < e.2.part) ∧ ∀ p, 1 ≤ p → p ≤ 15 → p ∈ u.ep.flr)) ∧
  (∀ (s : State) (fn : Fin 16) (tag : Fin 1024) (st : CplStatus) (data : List Byte), tget s.ep.tags (fn.val * 1024 + tag.val) = none →
    exec (.hostCompletion fn tag st data) s = .next (State.settle (s.aer fn.val .unexpectedCompletion)) ∧
    exec (.completionTimeout fn tag) s = .next s.settle ∧ exec (.tagQuarantineEnd fn tag) s = .next s.settle) ∧
  (∀ (s : State) (fn : Fin 16) (tag : Fin 1024) (data : List Byte) (t : Tag) (slot buf off : Nat) (c : Cmd) (h : HostBuf),
    tget s.ep.tags (fn.val * 1024 + tag.val) = some t → t.quarantined = false → t.use = .cmdData slot buf off → t.len = data.length → s.ep.waitq = [] →
    tget s.cmds slot = some c → tget c.hostBufs buf = some h →
    ∃ u : State, exec (.hostCompletion fn tag .success data) s = .next u.settle ∧ tget u.ep.tags (fn.val * 1024 + tag.val) = none ∧
      (∃ c' h', tget u.cmds slot = some c' ∧ tget c'.hostBufs buf = some h' ∧ h'.missing = h.missing - data.length ∧
        (∀ i, i < data.length → tget h'.got (off + i) = data[i]?) ∧ (∀ j, (j < off ∨ off + data.length ≤ j) → tget h'.got j = tget h.got j) ∧
        c' = { c with hostBufs := c'.hostBufs }) ∧
      u = { s with regs := u.regs, cmds := u.cmds, ep := u.ep } ∧ ∀ k, k ≠ slot → tget u.cmds k = tget s.cmds k) ∧
  (∀ (s : State) (fn : Fin 16) (tag : Fin 1024) (st : CplStatus) (data : List Byte) (t : Tag), tget s.ep.tags (fn.val * 1024 + tag.val) = some t →
    t.quarantined = true →
    exec (.hostCompletion fn tag st data) s = .next (State.settle (State.lateCompletion (s.wr F.glLink_l1 0) fn.val tag.val)) ∧
    exec (.completionTimeout fn tag) s = .next s.settle) ∧
  (∀ (s : State) (fn : Fin 16) (tag : Fin 1024) (st : CplStatus) (data : List Byte) (t : Tag), tget s.ep.tags (fn.val * 1024 + tag.val) = some t →
    t.quarantined = false → st ≠ .success → t.use = .discard → s.ep.waitq = [] →
    ∃ u : State, exec (.hostCompletion fn tag st data) s = .next u.settle ∧ tget u.ep.tags (fn.val * 1024 + tag.val) = none ∧
      u.rd (F.glHostErr2_readErr.fn fn.val) = (s.rd (F.glHostErr2_readErr.fn fn.val) + 1) % 2 ^ F.glHostErr2_readErr.w ∧
      u.rd (F.glHostLast_code.fn fn.val) = 0xD04 ∧ u.rd (F.glHostLast_tag.fn fn.val) = tag.val ∧ u = { s with regs := u.regs, ep := u.ep }) ∧
  (∀ (s : State) (fn : Fin 16) (tag : Fin 1024) (t : Tag) (slot buf off : Nat), tget s.ep.tags (fn.val * 1024 + tag.val) = some t → t.quarantined = false →
    s.cplTimeout fn.val ≤ s.nsSince t.at' → t.use = .cmdData slot buf off → (∃ c, tget s.cmds slot = some c ∧ (c.desc.cls ≠ 4 ∨ buf < 8)) →
    ∃ u : State, exec (.completionTimeout fn tag) s = .next (State.settle (u.dataFault slot 0xD01 .function fn.val 0 tag.val)) ∧
      tget u.ep.tags (fn.val * 1024 + tag.val) = some { t with use := .discard, quarantined := true, at' := s.now, hold := 2 * s.cplTimeout fn.val } ∧ u.cmds = s.cmds ∧
      u.rd (F.glHostErr_timeouts.fn fn.val) = (s.rd (F.glHostErr_timeouts.fn fn.val) + 1) % 2 ^ F.glHostErr_timeouts.w ∧
      u.rdB (F.cfgAerUnc_cplTimeout.cfg fn.val) = true) ∧
  (∀ (s : State) (fn : Fin 16) (tag : Fin 1024) (t : Tag), tget s.ep.tags (fn.val * 1024 + tag.val) = some t → s.ep.waitq = [] →
    (t.quarantined = true → t.hold ≤ s.nsSince t.at' → exec (.tagQuarantineEnd fn tag) s = .next (State.settle { s with ep := { s.ep with
      tags := tdel s.ep.tags (fn.val * 1024 + tag.val) } })) ∧
    (t.quarantined = false ∨ s.nsSince t.at' < t.hold → exec (.tagQuarantineEnd fn tag) s = .next s.settle)) ∧
  (∀ (s : State) (fn : Fin 16) (tag : Fin 1024) (t : Tag), tget s.ep.tags (fn.val * 1024 + tag.val) = some t → s.nsSince t.at' < s.cplTimeout fn.val →
    exec (.completionTimeout fn tag) s = .next s.settle) ∧
  (cplTimeoutNs 0 = 10000000 ∧ cplTimeoutNs 1 = 100000 ∧ cplTimeoutNs 14 = 64000000000) ∧
  (∀ (s : State) (fn : Fin 16), ∃ u : State, exec (.poisonedTlpReceived fn) s = .next u.settle ∧ u.rdB (F.cfgAerUnc_poisoned.cfg fn.val) = true ∧
    u.rd (F.glHostErr2_poisoned.fn fn.val) = (s.rd (F.glHostErr2_poisoned.fn fn.val) + 1) % 2 ^ F.glHostErr2_poisoned.w ∧
    u.rd (F.glHostLast_code.fn fn.val) = 0xD03 ∧ u.rd F.ftLast_code = 0xD03 ∧ u.cmds = s.cmds ∧ u.ctxs = s.ctxs) ∧
  (∀ (s : State) (fn : Fin 16), s.fnExists fn.val = false → exec (.functionLevelReset fn) s = .next s.settle) ∧
  (∀ (s : State) (fn : Fin 16), s.fnExists fn.val = true → (fn.val ≠ 0 ∨ s.rdB (F.cfgSriovCtl_vfEnable.cfg 0) = false) →
    ∃ u : State, exec (.functionLevelReset fn) s = .next u.settle ∧ u.sqs = s.sqs.filter (fun e => e.2.part != fn.val) ∧
      u.cqs = s.cqs.filter (fun e => e.2.part != fn.val) ∧ u.mrings = s.mrings.filter (fun e => e.2.part != fn.val) ∧
      u.ctxs = s.ctxs.filter (fun e => e.2.part != fn.val) ∧ fn.val ∈ u.ep.flr ∧ (∀ e ∈ u.ep.msix, e.1 / 2048 ≠ fn.val) ∧ (∀ r ∈ u.ep.waitq, r.fn ≠ fn.val) ∧
      (∀ h ∈ u.ep.held, h.1 ≠ fn.val) ∧ (∀ e ∈ s.cmds, e.2.desc.part = fn.val → tget u.cmds e.1 = none) ∧ u.sec = s.sec ∧ u.tl = s.tl ∧ u.lists = s.lists ∧
      u.rd (F.cfgCmd_busMaster.cfg fn.val) = 0 ∧ u.rd (F.upOnair_onAir.fn fn.val) = 0) ∧
  (∀ (s : State) (fn : Fin 16), (fn.val ∉ s.ep.flr → exec (.flrComplete fn) s = .next s.settle) ∧
    (fn.val ∈ s.ep.flr → ∃ u : State, exec (.flrComplete fn) s = .next u.settle ∧ u.ep.flr = s.ep.flr.filter (· != fn.val) ∧
      (u.rd F.ftStat_pfail).testBit fn.val = false ∧ (∀ q, q ≠ fn.val → (u.rd F.ftStat_pfail).testBit q = (s.rd F.ftStat_pfail).testBit q) ∧
      u.rd F.ftLast_code = 0xD07 ∧ u.cmds = s.cmds ∧ (∀ e ∈ u.sqs, e.2.part = fn.val → e ∈ s.boot.base.sqs))) ∧
  (∀ s : State, (s.ep.linkUp = false → exec .linkDown s = .next s.settle) ∧
    (s.ep.linkUp = true → ∃ u : State, exec .linkDown s = .next u.settle ∧ u.ep.linkUp = false ∧ (∀ e ∈ u.sqs, 15 < e.2.part) ∧
      (∀ p, p < 16 → p ∈ u.ep.flr) ∧ u.rd F.glResets_linkDown = (s.rd F.glResets_linkDown + 1) % 2 ^ F.glResets_linkDown.w ∧ u.rd F.ftLast_code = 0xD08 ∧
      u.tl = s.tl ∧ u.sec = s.sec)) ∧
  (∀ s : State, (s.ep.perst = true → exec .perstAssert s = .next s.settle) ∧
    (s.ep.perst = false → ∃ u : State, exec .perstAssert s = .next u.settle ∧ u.ep.perst = true ∧ u.ep.linkUp = false ∧ u.ep.cfgReady = false ∧
      u.ep.tags = [] ∧ u.ep.waitq = [] ∧ u.ep.held = [] ∧ u.tl = s.tl ∧ u.sec = s.sec ∧ (∀ o, o < 2 ^ 31 → o ≠ F.glLink_l1.off → s.boot.stage ≠ 13 →
        u.reg o = s.reg o) ∧ (s.boot.stage ≠ 13 → u.cmds = s.cmds ∧ u.sqs = s.sqs) ∧ ∀ p, p < 16 → u.rd (F.cfgCmd_busMaster.cfg p) = 0)) ∧
  ∀ s : State, exec .perstDeassert s = .next (State.settle { s with ep := { s.ep with
    perst := false, cfgReady := decide (4 ≤ s.boot.stage) && decide (s.boot.stage ≤ 13), wakePin := s.ep.wakePin && !s.railsUp } })

/-! ### Start-up (18, 20) -/

/-- R516, R529 to R542, R545, R546, R549, R575, R579: a start-up begins only with every rail good, resets what it resets and keeps what it keeps; the seal
and the restart answer the physical function, the restart only with its key; a stage that is not in progress does nothing; stage 1 verifies a bank,
stage 2 needs its entropy source and issues the certificates, stage 3 makes configuration space answer, stage 4 chooses a plan or reports that there is none, stage 5 records what
failed, stage 6 stops without DRAM and applies the configuration otherwise, stage 7 reaches ready; a preload's object lands in DRAM or fails.
Rests on the model's choices of log entries 11, 29, 38, 44, 48, 108. -/
def Obligations.StartUp : Prop :=
  (∀ s : State, (s.railsUp = true → s.boot.stage = 0 → exec .startUp s =
      .next (State.settle (s.beginStart (if s.rd F.glResetCause_starts = 0 then 1 else 2)))) ∧
    (s.railsUp = false ∨ s.boot.stage ≠ 0 → exec .startUp s = .next s.settle) ∧
    (s.railsUp = true → exec .modReset s = .next (State.settle (s.beginStart 3))) ∧ (s.railsUp = false → exec .modReset s = .next s.settle)) ∧
  (∀ (s : State) (cause : Nat), cause < 16 → (s.beginStart cause).boot.stage = 1 ∧ (s.beginStart cause).rd F.glResetCause_cause = cause ∧
    (s.beginStart cause).rd F.glResetCause_starts = (s.rd F.glResetCause_starts + 1) % 2 ^ 16 ∧ (s.beginStart cause).rd F.pwStat_state = 1 ∧
    (s.beginStart cause).rdB F.glStatus_ready = false ∧ (s.beginStart cause).rdB F.glStatus_sealed = false ∧ (s.beginStart cause).cmds = [] ∧
    (s.beginStart cause).sqs = [] ∧ (s.beginStart cause).cqs = [] ∧ (s.beginStart cause).ctxs = [] ∧ (s.beginStart cause).tl.now = s.tl.now ∧
    (s.beginStart cause).dram.gen = s.dram.gen + 1 ∧ (s.beginStart cause).flashLog = s.flashLog ∧ (s.beginStart cause).pending = s.pending ∧
    (s.beginStart cause).sec.unlocked = s.sec.unlockNext ∧ (s.beginStart cause).sec.unlockNext = 0 ∧ (s.beginStart cause).sec.owner = s.sec.owner) ∧
  (∀ (s : State) (fn : Fin 16), (fn.val = 0 → exec (.glSeal fn) s = .next (State.settle s.seal) ∧ s.seal.sealed = true) ∧
    (fn.val ≠ 0 → exec (.glSeal fn) s = .next s.settle ∧ ∀ key, exec (.glRestart fn key) s = .next s.settle)) ∧
  (∀ (s : State) (fn : Fin 16) (key : Fin 65536), (key.val ≠ 0x5A5A → exec (.glRestart fn key) s = .next s.settle) ∧
    (fn.val = 0 → key.val = 0x5A5A → exec (.glRestart fn key) s = .next (State.settle ((s.log 0x348 .steward).beginStart 4)))) ∧
  (∀ (s : State) (n : Fin 8) (f : StageFacts), (n.val = 0 ∨ (n.val < 5 ∧ s.boot.stage ≠ n.val) ∨ ((n.val = 5 ∨ n.val = 6) ∧ s.boot.stage ≠ 6) ∨
      (n.val = 7 ∧ s.boot.stage ≠ 7)) → exec (.startupStageComplete n f) s = .next s.settle) ∧
  (∀ (s : State) (f : StageFacts), s.boot.stage = 1 →
    (f.replayOk = false → ∃ u : State, exec (.startupStageComplete 1 f) s = .next u.settle ∧ u.boot.stage = 15 ∧ u.rdB F.ftStat_deviceFailed = true ∧
      u.rd F.ftDfail_code = 0xF0A) ∧
    (f.replayOk = true → ∃ u : State, exec (.startupStageComplete 1 f) s = .next u.settle ∧
      ((if s.sec.bankB then s.sec.stewB else s.sec.stewA).passes s.sec.fwSvn = true → u = { s with boot := { s.boot with stage := 2 } }) ∧
      (s.sec.stewA.passes s.sec.fwSvn = false → s.sec.stewB.passes s.sec.fwSvn = false →
        u.boot.stage = 14 ∧ u.rd F.ftLast_code = 0xF01 ∧ u.sec = s.sec) ∧
      (s.sec.bankB = false → s.sec.stewA.passes s.sec.fwSvn = false → s.sec.stewB.passes s.sec.fwSvn = true →
        u.boot.stage = 2 ∧ u.rd F.seStat_bank = 1 ∧ u.rd F.seStat_fallback = 1 ∧ (s.sec.unlocked = 0 → u.sec.bankB = true)))) ∧
  (∀ (s : State) (f : StageFacts), s.boot.stage = 2 →
    (f.entropyOk = false → ∃ u : State, exec (.startupStageComplete 2 f) s = .next u.settle ∧ u.boot.stage = 15 ∧ u.rd F.ftDfail_code = 0xF0B) ∧
    (f.entropyOk = true → ∃ u : State, exec (.startupStageComplete 2 f) s = .next u.settle ∧ u.boot.stage = 3 ∧ u.rd F.seStat_entropyOk = 1 ∧
      u.rd F.idFw_ver = s.stewardBank.ver.toNat ∧ u.pow.marker = none ∧ u.cmds = s.cmds ∧
      (s.sec.unlocked = 0 → u.sec.issued.map (·.key) = [.imageKey (Config.sha384 s.stewardBank.image), .cka (s.sec.owner.getD []) s.sec.ownerGen]) ∧
      (s.sec.unlocked ≠ 0 → u.sec.issued.map (·.key) = [.debug]))) ∧
  (∀ (s : State) (f : StageFacts), s.boot.stage = 3 → exec (.startupStageComplete 3 f) s = .next (State.settle { s.wr F.swCfg_modId f.modId.val with
    boot := { s.boot with stage := 4, modId := f.modId.val }, ep := { s.ep with cfgReady := !s.ep.perst } })) ∧
  (∀ (s : State) (f : StageFacts), s.boot.stage = 4 → s.sec.slotA = [] → s.sec.slotB = [] →
    ∃ u : State, exec (.startupStageComplete 4 f) s = .next u.settle ∧ u.boot = { s.boot with stage := 6 } ∧ u.rd F.glPlanErr_code = 0x340 ∧
      u.rd F.glPlanErr_valid = 1 ∧ u.rd F.ftLast_code = 0x340 ∧ u.sec = s.sec) ∧
  (∀ (s : State) (f : StageFacts), s.boot.stage = 4 → s.sec.slotA ≠ [] → s.sec.slotB = [] → ∃ u : State,
    exec (.startupStageComplete 4 f) s = .next u.settle ∧ u.boot.stage = 6 ∧ ∀ b, s.planAccept 0 = .ok b →
      u = { s.takePlan 0 b with boot := { (s.takePlan 0 b).boot with stage := 6 } } ∧
      (s.takePlan 0 b).boot.plan = b ∧ (s.takePlan 0 b).rdB F.glStatus_planned = true) ∧
  (∀ (s : State) (f : StageFacts), s.boot.stage = 6 → s.boot.tested = false → ∃ u : State, exec (.startupStageComplete 5 f) s = .next u.settle ∧
    u.boot = { s.boot with
      tested := true, failedBoles := (f.boles.map (·.val)).eraseDups, failedEngines := s.boot.failedEngines ++ (f.engines.map (·.val)).eraseDups } ∧
    (∀ p ∈ f.boles, ∀ g, g < 4 → p.val = 17 * g + 16 → u.rd (F.spare_spareOk.at (cgBase g)) = 0) ∧ u.sec = s.sec ∧ u.tl = s.tl ∧ u.cmds = s.cmds) ∧
  (∀ (s : State) (f : StageFacts), s.boot.stage = 6 → s.boot.tested = true → f.trained = false →
    ∃ u : State, exec (.startupStageComplete 6 f) s = .next u.settle ∧ u.boot.stage = 15 ∧ u.rd F.ftDfail_code = 0xB04) ∧
  (∀ (s : State) (f : StageFacts), s.boot.stage = 6 → s.boot.tested = true → f.trained = true → s.dram.sub = [] →
    ∃ u : State, exec (.startupStageComplete 6 f) s = .next (State.settle u.applyConfig) ∧ u.boot = { s.boot with stage := 7 } ∧
      u.rd F.glStatus_memReady = 1 ∧ u.rd F.drGStat_memReady = 1 ∧ u.rd F.glStart_memMs = f.ms.val ∧
      u.rd F.glStatus_warm = b2n (!f.cold && !s.sec.newImage) ∧ u = { s with regs := u.regs, boot := u.boot, sec := { s.sec with newImage := false } }) ∧
  (∀ (s : State) (f : StageFacts), s.boot.stage = 7 → (∀ d, d < 64 → s.deckOn d = false ∨ s.rdB (F.dkStat_ready.at (dkBase d)) = true) →
    ∃ u : State, exec (.startupStageComplete 7 f) s = .next u.settle ∧ u.boot = { s.boot with stage := 13 } ∧ u.rd F.glStatus_ready = 1 ∧
      u.rd F.pwStat_state = 2 ∧ u.rd F.glStart_readyMs = f.ms.val ∧ (s.boot.plan ≠ [] → planFlag s.boot.plan 0 = false → u.sealed = true) ∧
      (s.boot.plan = [] → u.rd F.glStatus_sealed = s.rd F.glStatus_sealed) ∧ u.rd F.glStatus_preloadDone = b2n s.boot.preloads.isEmpty ∧
      u = { s with regs := u.regs, boot := u.boot, sec := u.sec } ∧ (s.sec.unlocked ≠ 0 → u.sec = s.sec)) ∧
  (∀ (s : State) (f : StageFacts) (d : Nat), s.boot.stage = 7 → d < 64 → s.deckOn d = true → s.rdB (F.dkStat_ready.at (dkBase d)) = false →
    exec (.startupStageComplete 7 f) s = .next s.settle) ∧
  (∀ (s : State) (i : Fin 256), (s.boot.preloads.length ≤ i.val ∨ s.rdB F.glStatus_ready = false) → exec (.preloadComplete i) s = .next s.settle) ∧
  ∀ (s : State) (i : Fin 256) (p : Preload), s.boot.preloads[i.val]? = some p → s.rdB F.glStatus_ready = true → p.state = 0 →
    (∀ q ∈ s.boot.preloads.take i.val, q.state ≠ 0) →
    ∃ u : State, exec (.preloadComplete i) s = .next u.settle ∧ u.cmds = s.cmds ∧
      (∀ (d : List Byte) (t : State), s.openObject p = some d → s.dramWrite p.part p.addr (d.take p.len) = some t → u.dram = t.dram ∧
        u.boot = { s.boot with preloads := s.boot.preloads.set i.val { p with state := 1 } } ∧
        u.rdB F.glStatus_preloadDone = (s.boot.preloads.set i.val { p with state := 1 }).all (·.state != 0)) ∧
      (s.openObject p = none → u.boot = { s.boot with preloads := s.boot.preloads.set i.val { p with state := 2 } } ∧ u.rd F.ftLast_code = 0x345)

/-! ### Power (17, 14) -/

/-- R446, R447, R508 to R516, R526, R529: presence, qualification, rails, the auxiliary supply and the ways down. A stop on presence, overvoltage, overcurrent,
ride-through or a rail opens the switch with its cause and takes the rails, memory and every command; a pause and its end lose nothing; the module powers
on from off and off at request.
Rests on the model's choices of log entries 21, 43, 52, 54, 55, 106, 108. -/
def Obligations.PowerSupply : Prop :=
  (∀ s : State, s.pow.auxOn = true → exec .auxPowerOn s = .next s.settle) ∧
  (∀ s : State, s.pow.auxOn = false → ∃ u : State, exec .auxPowerOn s = .next u.settle ∧ u.pow.auxOn = true ∧ u.rd F.msHs_pres = s.rd F.msHs_pres ∧
    u.flashLog = s.flashLog ∧ u.out = s.out ∧ u.pending = s.pending ∧
    (s.pow.switchOn = true → u = { s with regs := u.regs, pow := { s.pow with auxOn := true } }) ∧
    (s.pow.switchOn = false → u.rd F.msHs_state = s.rd F.msHs_pres ∧ u.cmds = [] ∧ u.sec.unlocked = 0 ∧ u.sec.owner = s.sec.owner)) ∧
  (∀ s : State, (s.pow.auxOn = false → exec .auxPowerLoss s = .next s.settle) ∧
    (s.pow.auxOn = true → s.pow.switchOn = true → exec .auxPowerLoss s = .next (State.settle (State.wrB { s with pow := { s.pow with
      auxOn := false } } F.pwStat_onAux false))) ∧
    (s.pow.auxOn = true → s.pow.switchOn = false → ∃ u : State, exec .auxPowerLoss s = .next u.settle ∧ u.cmds = [] ∧ u.pow.railsOn = [] ∧
      u.pow.auxOn = false ∧ u.rd F.msHs_pres = s.rd F.msHs_pres ∧ u.flashLog = s.flashLog)) ∧
  (∀ s : State, (s.mated = true → exec .presenceMated s = .next s.settle) ∧
    (s.mated = false → ∃ u : State, exec .presenceMated s = .next u.settle ∧ u.rd F.msHs_pres = 1 ∧ u.rd F.msHs_state = 1 ∧
      u.rd (F.slotStat_pres.cfg 0) = 1 ∧ u.pow = { s.pow with wanted := true, overV := false } ∧ (s.rdB F.msCfg_attended = true →
        u.rd (F.slotStat_presChg.cfg 0) = 1) ∧ u = { s with regs := u.regs, pow := u.pow, ep := u.ep, out := u.out })) ∧
  (∀ s : State, (s.mated = false ∨ s.pow.switchOn = true ∨ s.rd F.msHs_state ≠ 1 → exec .inputQualified s = .next s.settle) ∧
    (s.mated = true → s.pow.switchOn = false → s.rd F.msHs_state = 1 → s.pow.auxOn = true → exec .inputQualified s =
      .next (State.settle { s.wr F.msHs_state 2 with pow := { s.pow with switchOn := true } }))) ∧
  (∀ (s : State) (k : Fin 7), (s.pow.switchOn = true → s.pow.railsOn.length = k.val → ∃ u : State, exec (.railPowerGood k) s = .next u.settle ∧
      u.pow = { s.pow with railsOn := s.pow.railsOn ++ [k.val] } ∧ u.rd F.msHs_state = 3 ∧ u.rd F.pwStat_onAux = 0 ∧
      u = { s with regs := u.regs, pow := u.pow }) ∧
    (s.pow.switchOn = false ∨ s.pow.railsOn.length ≠ k.val → exec (.railPowerGood k) s = .next s.settle)) ∧
  (∀ (s : State) (code : Nat) (w : Bool), s.pow.railsOn ≠ [] → (s.powerStop code w).pow.railsOn = [] ∧ (s.powerStop code w).boot.stage = 0 ∧
    (s.powerStop code w).ep.linkUp = false ∧ (s.powerStop code w).rdB F.glStatus_ready = false ∧ (s.powerStop code w).rdB F.glStatus_memReady = false ∧
    (s.powerStop code w).rd F.ftDfail_code = code % 2 ^ F.ftDfail_code.w ∧ (s.powerStop code w).pow.powerFail = true ∧
    (s.powerStop code w).pow.marker = (if w then none else some s.now) ∧ (w = false → (s.powerStop code w).flashLog = s.flashLog) ∧
    (∀ e ∈ s.cmds, tget (s.powerStop code w).cmds e.1 = none)) ∧
  (∀ (s : State) (w : Bool), (s.mated = false → exec (.presenceLost w) s = .next s.settle) ∧
    (s.mated = true → s.pow.switchOn = true → s.pow.railsOn ≠ [] → ∃ u : State, exec (.presenceLost w) s = .next u.settle ∧ u.pow.switchOn = false ∧
      u.pow.railsOn = [] ∧ u.rd F.msHs_pres = 0 ∧ u.rd F.msHs_state = 0 ∧ u.rd F.msHs_last = 5 ∧ u.rd F.msHs_trips = (s.rd F.msHs_trips + 1) % 2 ^ 8 ∧
      u.rd F.ftDfail_code = 0x20C ∧ ∀ e ∈ s.cmds, tget u.cmds e.1 = none)) ∧
  (∀ (s : State) (w : Bool), (s.pow.switchOn = false → exec (.inputOvervoltage w) s = .next s.settle ∧ ∀ c, exec (.overcurrentTrip c w) s = .next s.settle) ∧
    (s.pow.switchOn = true → s.pow.railsOn ≠ [] → s.rdB F.msCfg_attended = false →
      exec (.inputOvervoltage w) s = .next (State.settle { (s.powerStop 0x203 w).switchOff 0 1 with pow := { ((s.powerStop 0x203 w).switchOff 0 1).pow with
        overV := true } }) ∧
      ∀ c : Fin 5, 2 ≤ c.val → exec (.overcurrentTrip c w) s = .next (State.settle ((s.powerStop 0x204 w).switchOff 4 c.val)))) ∧
  (∀ (s : State) (st cause : Nat), st < 8 → cause < 16 → (s.switchOff st cause).rd F.msHs_state = st ∧ (s.switchOff st cause).rd F.msHs_last = cause ∧
    (s.switchOff st cause).rd F.msHs_trips = (s.rd F.msHs_trips + 1) % 2 ^ 8 ∧ (s.switchOff st cause).pow = { s.pow with switchOn := false }) ∧
  (∀ s : State, (s.pow.overV = false → exec .overvoltageRecovery s = .next s.settle) ∧
    (s.pow.overV = true → s.mated = true → s.pow.wanted = true → exec .overvoltageRecovery s =
      .next (State.settle (State.wr { s with pow := { s.pow with overV := false } } F.msHs_state 1)))) ∧
  (∀ s : State, s.mated = true → s.pow.railsOn ≠ [] → s.pow.paused = false → ∃ u : State, exec .inputUndervoltage s = .next u.settle ∧
    u.pow = { s.pow with paused := true, pauseAt := s.now, stableUs := 0 } ∧ u.rd F.pwStat_state = 3 ∧ u.rd F.pwStat_inputStable = 0 ∧
    u.rd F.pwEvent_uv = 1 ∧ u.dram.srAll = true ∧ u.rd F.ftLast_code = 0x201 ∧ u.cmds = s.cmds ∧ u.boles = s.boles ∧ u.ctxs = s.ctxs ∧ u.sqs = s.sqs) ∧
  (∀ s : State, s.mated = false ∨ s.pow.railsOn = [] ∨ s.pow.paused = true → exec .inputUndervoltage s = .next s.settle) ∧
  (∀ s : State, s.pow.paused = true → s.nsSince s.pow.pauseAt ≤ s.rideNs → ∃ u : State, exec .inputRecovered s = .next u.settle ∧
    u.pow = { s.pow with paused := false, gatedNs := s.pow.gatedNs + s.nsSince s.pow.pauseAt } ∧
    u.rd F.pwStat_state = (if s.boot.stage = 13 then 2 else 1) ∧ u.rd F.pwEvent_rideOk = 1 ∧ u.rd F.ftLast_code = 0x20E ∧
    (s.rdB F.ckSrcStat_paused = false → u.dram.srAll = false) ∧ u.cmds = s.cmds ∧ u.boles = s.boles ∧ u.ctxs = s.ctxs ∧ u.sqs = s.sqs) ∧
  (∀ (s : State) (w : Bool), (s.pow.paused = false → exec .inputRecovered s = .next s.settle ∧ exec (.rideThroughExpiry w) s = .next s.settle) ∧
    (s.rideNs < s.nsSince s.pow.pauseAt → exec .inputRecovered s = .next s.settle) ∧
    (s.nsSince s.pow.pauseAt < s.rideNs → exec (.rideThroughExpiry w) s = .next s.settle) ∧
    (s.pow.paused = true → s.rideNs ≤ s.nsSince s.pow.pauseAt →
      exec (.rideThroughExpiry w) s = .next (State.settle (State.requalify ((s.powerStop 0x202 w).switchOff 0 6))))) ∧
  (∀ (s : State) (k : Fin 7) (w : Bool), (k.val ∉ s.pow.railsOn → exec (.railFault k w) s = .next s.settle) ∧
    (k.val ∈ s.pow.railsOn → exec (.railFault k w) s = .next (State.settle (State.requalify ((s.powerStop 0x20A w k.val).switchOff 0 6))))) ∧
  (∀ s : State, s.pow.switchOn = true → ∃ u : State, (s.rdB F.msCfg_attended = true → exec .msSlotOff s = .next u.settle) ∧
    (s.boot.stage ≠ 14 → exec .pldmPowerOff s = .next u.settle) ∧ u.pow.switchOn = false ∧ u.pow.wanted = false ∧ u.pow.railsOn = [] ∧
    u.rd F.msHs_state = 0 ∧ u.rd F.msHs_last = 6 ∧ u.boot.stage = 0 ∧ u.rdB F.glStatus_ready = false ∧ u.rd F.ftLast_code = 0xD0C ∧
    ∀ e ∈ s.cmds, tget u.cmds e.1 = none) ∧
  (∀ s : State, (s.pow.switchOn = false ∨ s.rdB F.msCfg_attended = false → exec .msSlotOff s = .next s.settle) ∧
    (s.pow.switchOn = false ∨ s.boot.stage = 14 → exec .pldmPowerOff s = .next s.settle)) ∧
  (∀ s : State, s.pow.switchOn = false → s.pow.auxOn = true → s.mated = true → s.pow.overV = false →
    (s.boot.stage ≠ 14 → exec .pldmPowerOn s = .next (State.settle (State.wr { s with pow := { s.pow with wanted := true } } F.msHs_state 1))) ∧
    ∃ u : State, exec .attnButtonPress s = .next u.settle ∧ u.pow.wanted = true ∧ u.rd F.msHs_state = 1 ∧
      u.rd F.msBtn_presses = (s.rd F.msBtn_presses + 1) % 2 ^ 16 ∧ (s.rdB F.msCfg_attended = true → u.rd (F.slotStat_abp.cfg 0) = 1) ∧
      (s.rdB F.glWake_buttonEn = true → u.rd F.glWake_last = 3) ∧ u.cmds = s.cmds) ∧
  ∀ s : State, (s.pow.switchOn = true → exec .pldmPowerOn s = .next s.settle) ∧
    (s.pow.auxOn = false → s.pow.switchOn = false → exec .attnButtonPress s = .next s.settle ∧ exec .pldmPowerOn s = .next s.settle)

/-- R514, R518 to R526: limits are clamped into their range and the lowest rules; a sample updates the meters and, where the module does not pause, the
controllers; a temperature reaches and leaves its states, and the last stops the module; a rail's readings are snapshotted; the out-of-band side answers while
its domain is powered.
Rests on the model's choices of log entries 8, 28, 51, 52, 53, 55, 56, 57, 58, 108. -/
def Obligations.PowerControl : Prop :=
  (∀ (s : State) (v : Word), s.rd F.pwLimitCap_ceiling ≤ 1023 ∧ ∃ u : State, exec (.pwLimitWrite v) s = .next u.settle ∧
    u.rd F.pwLimit_host = max 250 (min (v.toNat % 1024) (s.rd F.pwLimitCap_ceiling)) ∧
    u.rd F.pwLimit_eff = min (u.rd F.pwLimit_host) (min (s.rd F.pwLimitCap_ceiling)
      (if s.rd F.pwLimitCap_oob = 0 then s.rd F.pwLimitCap_ceiling else s.rd F.pwLimitCap_oob)) ∧
    (v.toNat % 1024 ≠ u.rd F.pwLimit_host → u.rd F.pwEvent_clamped = 1 ∧ u.rd F.ftLast_code = 0x20D) ∧ u.pow = s.pow ∧ u.cmds = s.cmds) ∧
  (∀ (s : State) (v : Fin 65536), s.pow.auxOn = true → s.boot.stage ≠ 14 → ∃ u : State, exec (.pldmPowerLimitSet v) s = .next u.settle ∧
    u.rd F.pwLimitCap_oob = (if v.val = 0 then 0 else max 250 (min v.val (s.rd F.pwLimitCap_ceiling))) ∧
    u.rd F.pwLimit_host = s.rd F.pwLimit_host ∧
    u.rd F.pwLimit_eff = min (s.rd F.pwLimit_host) (min (s.rd F.pwLimitCap_ceiling)
      (if u.rd F.pwLimitCap_oob = 0 then s.rd F.pwLimitCap_ceiling else u.rd F.pwLimitCap_oob)) ∧
    (u.rd F.pwLimitCap_oob ≠ s.rd F.pwLimitCap_oob → u.rd F.pwEvent_oobLimit = 1) ∧ u.pow = s.pow) ∧
  (∀ (s : State) (v : Fin 65536), (s.pow.auxOn = false ∧ s.pow.switchOn = false ∨ s.boot.stage = 14) → exec (.pldmPowerLimitSet v) s = .next s.settle) ∧
  (∀ (s : State) (mv ma : Fin 65536) (p10us p10ms : Fin 1024) (uj : Nat), ∃ u : State, exec (.powerSample mv ma p10us p10ms uj) s = .next u.settle ∧
    u.rd F.pwIn_mv = mv.val ∧ u.rd F.pwIn_ma10 = ma.val ∧ u.rd F.pwInP_p10us = p10us.val ∧ u.rd F.pwInP_p10ms = p10ms.val ∧
    u.rd2 F.pwEinLo_uj F.pwEinHi_uj = (s.rd2 F.pwEinLo_uj F.pwEinHi_uj + uj) % 2 ^ 64 ∧
    u.pow.stableUs = (if 38000 ≤ mv.val ∧ mv.val ≤ 62000 then min 1000000 (s.pow.stableUs + 10) else 0) ∧
    u.rd F.pwStat_inputStable = b2n (u.pow.stableUs == 1000000) ∧
    (s.pow.paused = true → u.pow.pwrLevel = s.pow.pwrLevel ∧ u.rd F.pwStat_level = s.rd F.pwStat_level) ∧
    (s.pow.paused = false → 750 < p10us.val → u.pow.pwrLevel = min 15 (s.pow.pwrLevel + 2)) ∧
    (s.pow.paused = false → s.pow.thrLevel ≤ 15 → u.rd F.pwStat_level = max u.pow.pwrLevel s.pow.thrLevel) ∧ u.cmds = s.cmds ∧ u.boot = s.boot) ∧
  (∀ (s : State) (v : Word) (mv ma : Fin 65536), ∃ u : State, exec (.pwRailSelWrite v mv ma) s = .next u.settle ∧ u.rd F.pwRailSel_rail = v.toNat % 8 ∧
    (v.toNat % 8 ≠ 7 → u.rd F.pwRailData_mv = mv.val ∧ u.rd F.pwRailData_ma100 = ma.val ∧ u.rd F.pwRailSel_ready = 1) ∧
    (v.toNat % 8 = 7 → u.rd F.pwRailSel_ready = 0 ∧ u.rd F.pwRailData_mv = s.rd F.pwRailData_mv) ∧ u = { s with regs := u.regs }) ∧
  (∀ (s : State) (mj : Fin 65536), ∃ u : State, exec (.holdupMeasure mj) s = .next u.settle ∧ u.rd F.pwHoldup_mj = mj.val ∧
    u.rd F.pwStat_holdupOk = b2n (decide (s.rd F.pwHoldup_min ≤ mj.val)) ∧
    (mj.val < s.rd F.pwHoldup_min → u.rd F.pwEvent_holdupLow = 1 ∧ u.rd F.ftLast_code = 0x20B) ∧
    (s.rd F.pwHoldup_min ≤ mj.val → u = { s with regs := u.regs, out := u.out }) ∧ u.cmds = s.cmds) ∧
  (∀ (s : State) (die lid dram conv sw bank : Fin 256) (hot : Fin 24) (w : Bool), die.val < 120 → dram.val ≤ 115 →
    ∃ u : State, exec (.thermalSample die lid dram conv sw bank hot w) s = .next u.settle ∧ u.rd F.pwTemp0_die = die.val ∧ u.rd F.pwTemp0_lid = lid.val ∧
      u.rd F.pwTemp0_dram = dram.val ∧ u.rd F.pwTemp0_conv = conv.val ∧ u.rd F.pwTemp1_switch = sw.val ∧ u.rd F.pwTemp1_bank = bank.val ∧
      u.rd F.pwTemp1_hotIdx = hot.val ∧
      u.rd F.pwStat_therm = (if s.rd F.pwStat_therm < thermalUp die.val dram.val then thermalUp die.val dram.val
        else max (thermalUp die.val dram.val) (thermalDown (s.rd F.pwStat_therm) die.val dram.val)) ∧
      (s.pow.paused = false → u.rd F.pwStat_therm = 2 → u.pow.thrLevel = min 15 (s.pow.thrLevel + 1)) ∧
      (s.pow.paused = false → u.rd F.pwStat_therm = 3 → u.pow.thrLevel = max 13 (min 15 (s.pow.thrLevel + 1))) ∧
      (s.pow.paused = true → u.pow = s.pow) ∧ u.cmds = s.cmds) ∧
  (∀ (s : State) (die lid dram conv sw bank : Fin 256) (hot : Fin 24) (w : Bool), (120 ≤ die.val ∨ 115 < dram.val) → s.pow.switchOn = true → s.pow.railsOn ≠ [] →
    ∃ u : State, exec (.thermalSample die lid dram conv sw bank hot w) s = .next u.settle ∧ u.pow.railsOn = [] ∧ u.pow.switchOn = false ∧
      u.rd F.msHs_state = 4 ∧ u.rd F.msHs_last = 7 ∧ u.rd F.ftDfail_code = 0x209) ∧
  (∀ d m : Nat, (thermalUp d m = 4 ↔ 120 ≤ d ∨ 115 < m) ∧ (d < 95 → m ≤ 85 → thermalUp d m = 0) ∧ thermalDown 4 117 112 = 3 ∧ thermalDown 3 108 100 = 3 ∧
    ∀ t, t ≤ 4 → thermalDown t d m ≤ t) ∧
  (∀ s : State, (s.pow.railsOn = [] → exec .thermalComparatorTrip s = .next s.settle) ∧
    (s.pow.railsOn ≠ [] → ∃ u : State, exec .thermalComparatorTrip s = .next u.settle ∧ u.pow.railsOn = [] ∧ u.pow.switchOn = false ∧ u.boot.stage = 0 ∧
      u.rdB F.glStatus_ready = false ∧ u.flashLog = s.flashLog ∧ (∀ e ∈ s.cmds, tget u.cmds e.1 = none))) ∧
  (∀ (s : State) (cmd arg : Fin 256), (s.managed = false → exec (.mctpControl cmd arg) s = .next s.settle) ∧
    (s.managed = true → cmd.val ≠ 1 → exec (.mctpControl cmd arg) s = .next (State.settle (s.emit (.mctp (Config.mctpAnswer
      (leBytes 1 cmd.val ++ leBytes 1 arg.val) [s.sec.eid]))))) ∧
    (s.managed = true → exec (.mctpControl 1 arg) s = .next (State.settle (State.emit { s with sec := { s.sec with eid := arg.val } }
      (.mctp (Config.mctpAnswer (leBytes 1 1 ++ leBytes 1 arg.val) [arg.val])))))) ∧
  ∀ (s : State) (id : Fin 16), (s.managed = false ∨ s.boot.stage = 14 ∨ id.val = 0 ∨ 9 < id.val → exec (.pldmSensorRead id) s = .next s.settle) ∧
    (s.managed = true → s.boot.stage ≠ 14 → 1 ≤ id.val → id.val ≤ 7 →
      exec (.pldmSensorRead id) s = .next (State.settle (s.emit (.pldmReading id.val false (s.sensor id.val))))) ∧
    (s.managed = true → s.boot.stage ≠ 14 → id.val = 8 → exec (.pldmSensorRead id) s = .next (State.settle (s.emit (.pldmReading 8 true s.moduleState))))

/-! ### Service and logs (19) -/

/-- R570: a service request while another is busy, or while the module recovers, is refused and shows result 1; one with an index that does not exist, an
address outside DRAM or an operation that does not exist is refused with result 2. -/
def Obligations.ServiceRefusals : Prop :=
  (∀ (s : State) (p : Fin 128), (s.rdB F.ftSvcStat_busy = true ∨ s.rdB F.ftStat_recovering = true) →
    exec (.boleOutOfService p) s = .next (State.settle (s.wr F.ftSvcStat_result 1)) ∧
    exec (.boleIntoService p) s = .next (State.settle (s.wr F.ftSvcStat_result 1)) ∧
    exec .rowRepairRequest s = .next (State.settle (s.wr F.ftSvcStat_result 1))) ∧
  (∀ (s : State) (p : Fin 128), s.rdB F.ftSvcStat_busy = false → s.rdB F.ftStat_recovering = false → 68 ≤ p.val →
    exec (.boleOutOfService p) s = .next (State.settle (s.wr F.ftSvcStat_result 2)) ∧
    exec (.boleIntoService p) s = .next (State.settle (s.wr F.ftSvcStat_result 2))) ∧
  (∀ s : State, s.rdB F.ftSvcStat_busy = false → s.rdB F.ftStat_recovering = false → dramSize ≤ s.rd2 F.ftSvcAddrLo_addr F.ftSvcAddrHi_addr →
    exec .rowRepairRequest s = .next (State.settle (s.wr F.ftSvcStat_result 2))) ∧
  ∀ (s : State) (fn : Fin 16) (v : Word), (v.toNat % 8 = 0 ∨ 3 < v.toNat % 8) → fn.val = 0 →
    ((s.rdB F.ftSvcStat_busy = true ∨ s.rdB F.ftStat_recovering = true) → s.barWrite fn 0x90100 v = s.wr F.ftSvcStat_result 1) ∧
    (s.rdB F.ftSvcStat_busy = false → s.rdB F.ftStat_recovering = false → s.barWrite fn 0x90100 v = s.wr F.ftSvcStat_result 2)

/-- R347, R555 to R557, R567 to R569: a watchdog is an engine fault; a bole goes out after its drain, or at once where it serves nothing; a bole that is out is tested and scrubbed, and comes back only when
both are done; a row is marked for repair in both devices; the selected record is snapshotted.
Rests on the model's choices of log entries 43, 59, 60, 61, 71, 94, 108. -/
def Obligations.ServiceRequests : Prop :=
  (∀ (s : State) (e : Fin 6), exec (.watchdogExpiry e) s = exec (.engineFault e false) s ∧
    ((s.engine e.val).mode = 1 → (s.engine e.val).job = none → (s.engine e.val).watch = 0 →
      ∃ u : State, exec (.watchdogExpiry e) s = .next u.settle ∧ (u.engine e.val).mode = 4 ∧ (u.engine e.val).watch = 16)) ∧
  (∀ (s t : State) (p : Fin 128), s.rdB F.ftSvcStat_busy = false → s.rdB F.ftStat_recovering = false → p.val < 68 → t = s.wr F.ftSvcStat_busy 1 →
    (∀ n, t.logOf p.val = some n → t.boleOnline n = true →
      exec (.boleOutOfService p) s = .next (State.settle (t.setBole p.val { s.bole p.val with draining := true }))) ∧
    (∀ n, t.logOf p.val = some n → t.boleOnline n = false → exec (.boleOutOfService p) s = .next (State.settle (t.serviceDone p.val 0))) ∧
    (t.logOf p.val = none → p.val % 17 = 16 → t.rd (F.status_state.at (blBase p.val)) = 3 → exec (.boleOutOfService p) s = .next (State.settle
      (State.serviceDone (((t.wr (F.spare_spareOk.at (cgBase (p.val / 17))) 0).wr (F.status_state.at (blBase p.val)) 0).mapChanged (p.val / 17)) p.val 0))) ∧
    (t.rd (F.status_state.at (blBase p.val)) = 0 ∨ t.rd (F.status_state.at (blBase p.val)) = 5 →
      ∃ u : State, exec (.boleIntoService p) s = .next u.settle ∧ u.bole p.val = { s.bole p.val with testing := true, scrubFor := 3 } ∧
        u.rd (F.status_state.at (blBase p.val)) = 2 ∧ u.rdB (F.scrub_busy.at (blBase p.val)) = true ∧ u.rdB F.ftSvcStat_busy = true ∧
        u = { s with regs := u.regs, boles := u.boles }) ∧
    (t.rd (F.status_state.at (blBase p.val)) ≠ 0 → t.rd (F.status_state.at (blBase p.val)) ≠ 5 →
      exec (.boleIntoService p) s = .next (State.settle (t.serviceDone p.val 0)))) ∧
  (∀ (s : State) (p r : Nat), r < 8 → (s.serviceDone p r).rd F.ftSvcStat_result = r ∧ (s.serviceDone p r).rdB F.ftSvcStat_busy = false ∧
    (s.serviceDone p r).rd F.ftSvcStat_count = (s.rd F.ftSvcStat_count + 1) % 2 ^ 16 ∧
    (s.serviceDone p r).bole p = { s.bole p with draining := false, testing := false, scrubFor := 0 } ∧ (s.serviceDone p r).cmds = s.cmds ∧
    (s.serviceDone p r).rd F.ftLast_code = 0x365) ∧
  (∀ (s : State) (p : Fin 68), ((s.bole p.val).draining = false ∨ s.slotsOn p.val ≠ []) → exec (.serviceDrainComplete p) s = .next s.settle) ∧
  (∀ (s : State) (p : Fin 68) (n : Nat), (s.bole p.val).draining = true → s.slotsOn p.val = [] → (s.bole (17 * (p.val / 17) + 16)).standFor = none →
    s.logOf p.val = some n → p.val % 17 ≠ 16 →
    (s.spareFree (p.val / 17) = true → exec (.serviceDrainComplete p) s = .next (State.settle (s.prepareSpare n)) ∧
      ((s.prepareSpare n).bole (17 * (n / 16) + 16)).standFor = some n ∧ ((s.prepareSpare n).bole (17 * (n / 16) + 16)).scrubFor = 1) ∧
    (s.spareFree (p.val / 17) = false → exec (.serviceDrainComplete p) s = .next (State.settle ((s.goOffline n).serviceDone p.val 5)))) ∧
  (∀ (s : State) (p : Fin 68) (n : Nat), (s.bole p.val).draining = true → s.slotsOn p.val = [] → (s.bole (17 * (p.val / 17) + 16)).standFor = none →
    s.logOf p.val = some n → p.val % 17 = 16 → ∃ u : State, exec (.serviceDrainComplete p) s = .next (State.settle ((u.goOffline n).serviceDone p.val 5)) ∧
      u.rd (F.spare_active.at (cgBase (p.val / 17))) = 0 ∧ u.rd (F.spare_spareOk.at (cgBase (p.val / 17))) = 0 ∧
      u.rd (F.status_state.at (blBase p.val)) = 0 ∧ u.rd (F.owner_owned.at (blBase p.val)) = 0 ∧ u = { s with regs := u.regs }) ∧
  (∀ (s : State) (p : Fin 68) (ok : Bool), ((s.bole p.val).testing = false → exec (.boleSelftestComplete p ok) s = .next s.settle) ∧
    ((s.bole p.val).testing = true → exec (.boleSelftestComplete p false) s = .next (State.settle (State.serviceDone
      ((s.wr (F.status_state.at (blBase p.val)) 0).wr (F.scrub_busy.at (blBase p.val)) 0) p.val 3))) ∧
    ((s.bole p.val).testing = true → (s.bole p.val).scrubFor ≠ 0 → exec (.boleSelftestComplete p true) s =
      .next (State.settle (s.setBole p.val { s.bole p.val with testing := false }))) ∧
    ((s.bole p.val).testing = true → (s.bole p.val).scrubFor = 0 → exec (.boleSelftestComplete p true) s =
      .next (State.settle (State.returnBole (s.setBole p.val { s.bole p.val with testing := false }) p.val)))) ∧
  (∀ s : State, s.rdB F.ftSvcStat_busy = false → s.rdB F.ftStat_recovering = false →
    (s.rd2 F.ftSvcAddrLo_addr F.ftSvcAddrHi_addr < dramSize → ∃ u : State, exec .rowRepairRequest s = .next u.settle ∧ u.rdB F.ftSvcStat_busy = true ∧
      u.dram.svcRow = some ((dramMap (s.rd2 F.ftSvcAddrLo_addr F.ftSvcAddrHi_addr)).1, rankRow (dramMap (s.rd2 F.ftSvcAddrLo_addr F.ftSvcAddrHi_addr)).2) ∧
      (∀ d, d < 2 → 2 * rankRow (dramMap (s.rd2 F.ftSvcAddrLo_addr F.ftSvcAddrHi_addr)).2 + d ∈
        (u.subch (dramMap (s.rd2 F.ftSvcAddrLo_addr F.ftSvcAddrHi_addr)).1).repairDue) ∧ u.dram.mem = s.dram.mem ∧ u.cmds = s.cmds)) ∧
  ∀ (s : State) (v : Word), ∃ u : State, exec (.ftRselWrite v) s = .next u.settle ∧ u.rd F.ftRsel_index = v.toNat % 2 ^ 24 ∧
    u.rdB F.ftRsel_flash = v.toNat.testBit 24 ∧ u.rd F.ftRsel_ready = 1 ∧ u = { s with regs := u.regs } ∧
    (v.toNat.testBit 24 = true → s.flashLog.length ≤ v.toNat % 2 ^ 24 → ∀ i, i < 16 → u.rd (F.ftRdata_data.at (4 * i)) = 0) ∧
    ∀ r, v.toNat.testBit 24 = true → s.flashLog[v.toNat % 2 ^ 24]? = some r → r.length = 64 → ∀ i, i < 14 → u.rd (F.ftRdata_data.at (4 * i)) = field r (4 * i) 4

/-! ### Security and updates (20) -/

/-- R579, R583, R588, R589, R592: a mailbox request is answered or refused as its kind says; one challenge waits at a time, its response unlocks at the next
start-up or resets the owner, and anything else is refused and discards it; an owner transfer takes the new owner's hash; the entropy source's failure is
shown and stops a start-up.
Rests on the model's choices of log entries 8, 21, 46, 51, 106, 108, 114. -/
def Obligations.SecurityRequests : Prop :=
  (∀ (s : State) (req : List Byte), s.managed = true → s.boot.stage ≠ 14 → (spdmFresh req = false ∨ s.rdB F.seStat_entropyOk = true) →
    exec (.spdmRequest (some req)) s = .next (State.settle (State.emit { s with fresh := s.fresh + 1 }
      (.mctp (State.spdmAnswer { s with fresh := s.fresh + 1 } s.fresh req))))) ∧
  (∀ (s : State) (req : List Byte), (s.managed = false ∨ s.boot.stage = 14 ∨ (spdmFresh req = true ∧ s.rdB F.seStat_entropyOk = false)) →
    exec (.spdmRequest (some req)) s = .next (State.settle { s with fresh := s.fresh + 1 })) ∧
  (∀ s : State, s.mbServes = true → (spdmFresh s.mbRequest = false ∨ s.rdB F.seStat_entropyOk = true) →
    exec (.spdmRequest none) s = .next (State.settle (State.mbAnswer { s with fresh := s.fresh + 1 }
      ((State.spdmAnswer { s with fresh := s.fresh + 1 } s.fresh s.mbRequest).take 4096)))) ∧
  (∀ (s : State) (d : Nat) (req : List Byte), field req 1 1 = 0x82 → field req 2 1 = 0 → field req 4 2 < s.certSlot.length →
    (s.spdmAnswer d req).drop 8 = bytesAt s.certSlot (field req 4 2) (min (field req 6 2) (s.certSlot.length - field req 4 2))) ∧
  (∀ s : State, (s.sec.unlocked = 0 → (s.sec.chain ++ s.sec.issued.take 1).flatMap Cert.bytes <:+ s.certSlot) ∧
    (s.sec.unlocked ≠ 0 → s.sec.issued.flatMap Cert.bytes <:+ s.certSlot)) ∧
  (∀ s : State, s.mbServes = false → exec (.spdmRequest none) s = .next (State.settle (State.mbRefuse { s with fresh := s.fresh + 1 })) ∧
    exec .debugChallenge s = .next (State.settle s.mbRefuse) ∧ exec .debugResponse s = .next (State.settle s.mbRefuse) ∧
    exec .ownerTransfer s = .next (State.settle s.mbRefuse)) ∧
  (∀ s : State, s.mbRefuse.rd F.seMbCtrl_error = 1 ∧ s.mbRefuse.rd F.seMbCtrl_busy = 0 ∧ s.mbRefuse = { s with regs := s.mbRefuse.regs }) ∧
  (∀ (s : State) (d : List Byte), d.length ≤ 4096 → (s.mbAnswer d).rd F.seMbRlen_len = d.length ∧ (s.mbAnswer d).rd F.seMbCtrl_done = 1 ∧
    (s.mbAnswer d).rd F.seMbCtrl_busy = 0 ∧ (∀ i, 4 * i < d.length → (s.mbAnswer d).rd (F.seMbBuf_data.at (4 * i)) = field d (4 * i) 4) ∧
    s.mbAnswer d = { s with regs := (s.mbAnswer d).regs }) ∧
  (∀ (s : State) (lv : Nat), s.mbServes = true → field s.mbRequest 0 1 = lv → 1 ≤ lv → lv ≤ 3 →
    (∀ c, s.sec.challenge = some c → exec .debugChallenge s = .next (State.settle s.debugRefuse)) ∧
    (s.sec.challenge = none → s.rdB F.seStat_entropyOk = true →
      ∃ (u : State) (c : List Byte), exec .debugChallenge s = .next u.settle ∧ u.sec = { s.sec with challenge := some (lv, c), challengedAt := s.now } ∧ c.length = 64 ∧
        field c 32 8 = Config.serial.toNat ∧ field c 40 1 = lv ∧ u.rd F.seMbRlen_len = 64 ∧ u.rd F.seMbCtrl_done = 1 ∧ u.fresh = s.fresh + 1)) ∧
  (∀ s : State, s.debugRefuse.sec = { s.sec with challenge := none } ∧ s.debugRefuse.rd F.seMbCtrl_error = 1 ∧ s.debugRefuse.rd F.ftLast_code = 0xF08) ∧
  (∀ s : State, s.mbServes = true → s.sec.challenge = none → exec .debugResponse s = .next (State.settle s.debugRefuse)) ∧
  (∀ (s : State) (lv : Nat) (c sig : List Byte), s.mbServes = true → s.sec.challenge = some (lv, c) → sig = s.mbRequest.take 96 →
    s.nsSince s.sec.challengedAt ≤ 10000000000 →
    ∃ u : State, exec .debugResponse s = .next (State.settle (if (if lv = 1 then s.sec.owner.any fun o => Config.ownerDebugSigned o c sig
        else Config.debugSigned c sig) then u else s.debugRefuse)) ∧
      (1 ≤ lv → lv ≤ 2 → u.sec = { s.sec with challenge := none, unlockNext := lv } ∧ u.rdB F.seStat_debugPending = true ∧ u.rd F.seMbCtrl_done = 1) ∧
      (lv = 3 → s.sec.unlocked = 0 → u.sec.owner = none ∧ u.sec.ownerGen = s.sec.ownerGen + 1 ∧ u.sec.slotA = [] ∧
        u.sec.slotB = [] ∧ u.sec.content = [] ∧ u.rdB F.seStat_ownerSet = false ∧ u.rdB F.glStatus_staged = false)) ∧
  (∀ (s : State) (lv : Nat) (c : List Byte), s.mbServes = true → s.sec.challenge = some (lv, c) → 10000000000 < s.nsSince s.sec.challengedAt →
    exec .debugResponse s = .next (State.settle s.debugRefuse)) ∧
  (∀ s : State, (10000000000 ≤ s.nsSince s.sec.challengedAt →
      exec .debugChallengeTimeout s = .next (State.settle { s with sec := { s.sec with challenge := none } })) ∧
    (s.nsSince s.sec.challengedAt < 10000000000 → exec .debugChallengeTimeout s = .next s.settle)) ∧
  (∀ (s : State) (hash o : List Byte) (gen serial : Nat), s.mbServes = true → s.mbRequest.length = 256 → s.sec.owner = some o →
    Config.transferFields s.mbRequest = (hash, gen, serial) →
    ∃ u : State, exec .ownerTransfer s = .next (State.settle (if s.sec.unlocked = 0 ∧ gen = s.sec.ownerGen ∧ serial = Config.serial.toNat ∧
        Config.transferSigned o s.mbRequest = true then u else s.mbRefuse)) ∧ u.sec = { s.sec with
          owner := some hash, ownerGen := s.sec.ownerGen + 1, slotA := [], slotB := [], content := [] } ∧ u.rdB F.seStat_ownerSet = true ∧
        u.rd F.seMbCtrl_done = 1 ∧ u.cmds = s.cmds) ∧
  (∀ s : State, (s.boot.stage = 13 → ∃ u : State, exec .entropyHealthFail s = .next u.settle ∧ u.rd F.seStat_entropyOk = 0 ∧ u.rd F.ftLast_code = 0xF0B ∧
      u.boot = s.boot ∧ u.cmds = s.cmds) ∧
    (1 ≤ s.boot.stage → s.boot.stage ≤ 7 → ∃ u : State, exec .entropyHealthFail s = .next u.settle ∧ u.boot.stage = 15 ∧ u.rd F.seStat_entropyOk = 0 ∧
      u.rd F.ftDfail_code = 0xF0B)) ∧
  ∀ s : State, exec .entropyHealthRecovered s = .next (State.settle (s.wr F.seStat_entropyOk 1))

/-- R595 to R602: a manifest that fails its checks, or that an older version or a refusal state forbids, changes nothing but the code shown; one that passes is
collected piece by piece; an activation needs every piece, writes the bank or slot that does not run, and ends the collection; an abort drops it; a
hand-over verifies the new image, and a missing heartbeat returns to the old one; the on-air bit takes the value written.
Rests on the model's choices of log entries 8, 9, 21, 31, 62, 63, 98, 106, 108. -/
def Obligations.Updates : Prop :=
  (∀ s : State, s.rdB F.upStat_busy = false → s.rdB (F.cfgCmd_busMaster.cfg 0) = true →
    exec .updateManifest s = .next (State.settle (State.requestHost { s.wr F.upStat_busy 1 with
      sec := { s.sec with updOp := 1, updPiece := 0, updBuf := [], updMissing := s.rd F.upLen_len } } 0 (s.rd2 F.upSrcLo_addr F.upSrcHi_addr)
      (s.rd F.upLen_len) fun o => .update o))) ∧
  (∀ (s : State) (n : Fin 65536), s.rdB F.upStat_busy = false → s.rdB (F.cfgCmd_busMaster.cfg 0) = true →
    exec (.updatePiece n) s = .next (State.settle (State.requestHost { s.wr F.upStat_busy 1 with
      sec := { s.sec with updOp := 2, updPiece := n.val, updBuf := [], updMissing := s.rd F.upLen_len } } 0 (s.rd2 F.upSrcLo_addr F.upSrcHi_addr)
      (s.rd F.upLen_len) fun o => .update o))) ∧
  (∀ s : State, s.rdB F.upStat_busy = true → s.sec.updOp = 1 → s.sec.updPiece = 0 → s.sec.updMissing = 0 →
    exec .updateManifest s = .next (State.settle (State.submitManifest (State.wr { s with sec := { s.sec with updOp := 0, updBuf := [] } } F.upStat_busy 0)
      ((List.range (s.rd F.upLen_len)).map fun i => (tget s.sec.updBuf i).getD 0) false))) ∧
  (∀ (s : State) (n : Fin 65536), s.rdB F.upStat_busy = true → s.sec.updOp = 2 → s.sec.updPiece = n.val → s.sec.updMissing = 0 → s.sec.byPldm = false →
    exec (.updatePiece n) s = .next (State.settle (State.submitPiece (State.wr { s with sec := { s.sec with updOp := 0, updBuf := [] } } F.upStat_busy 0) n.val
      ((List.range (s.rd F.upLen_len)).map fun i => (tget s.sec.updBuf i).getD 0)))) ∧
  (∀ (s : State) (d : List Byte) (b : Bool), (s.manifestOk d = false → s.submitManifest d b = s.upCode 0xF03) ∧
    (s.boot.stage ≠ 14 → manSvn (d.take (manSize d)) < s.compCounter (manComp d) →
      s.submitManifest d b = s.upCode (if s.manifestOk d then 0xF04 else 0xF03)) ∧
    (s.boot.stage ≠ 14 → s.compCounter (manComp d) ≤ manSvn (d.take (manSize d)) → s.updateRefused (d.take (manSize d)) = true →
      s.submitManifest d b = s.upCode (if s.manifestOk d then 0xF05 else 0xF03)) ∧
    (s.boot.stage ≠ 14 → s.compCounter (manComp d) ≤ manSvn (d.take (manSize d)) → s.updateRefused (d.take (manSize d)) = false → s.sec.manifest = [] →
      s.submitManifest d false = if s.manifestOk d then
        State.showUpdate { s with sec := { s.sec with manifest := d.take (manSize d), held := [], pieces := [], byPldm := false } }
      else s.upCode 0xF03)) ∧
  (∀ (s : State) (n : Nat) (d : List Byte), s.sec.manifest ≠ [] → n < manPieces s.sec.manifest → n ∉ s.sec.held → s.updateRefused s.sec.manifest = false →
    pieceLen s.sec.manifest n ≤ d.length → s.submitPiece n d =
      if Config.sha384 (d.take (pieceLen s.sec.manifest n)) = bytesAt s.sec.manifest (256 + 48 * n) 48 then State.showUpdate { s with sec := { s.sec with
        held := s.sec.held ++ [n], pieces := tput s.sec.pieces n (d.take (pieceLen s.sec.manifest n)) } }
      else s.upCode 0xF02 n) ∧
  (∀ (s : State) (code d : Nat), (s.upCode code d).sec = s.sec ∧ (s.upCode code d).rd F.upStat_code = code % 2 ^ 16 ∧ (s.upCode code d).cmds = s.cmds) ∧
  (∀ s : State, s.rdB F.upStat_busy = false → s.sec.byPldm = false →
    (s.sec.manifest = [] ∨ s.sec.held.length ≠ manPieces s.sec.manifest → exec (.updateActivate none) s = .next s.settle) ∧
    (s.sec.manifest ≠ [] → s.sec.held.length = manPieces s.sec.manifest → s.updateRefused s.sec.manifest = true →
      exec (.updateActivate none) s = .next (State.settle (s.upCode 0xF05))) ∧
    (s.sec.manifest ≠ [] → s.sec.held.length = manPieces s.sec.manifest → s.updateRefused s.sec.manifest = false → manComp s.sec.manifest = 1 →
      s.boot.stage ≠ 14 → ∃ u : State, exec (.updateActivate none) s = .next u.settle ∧ u.sec.manifest = [] ∧ u.sec.held = [] ∧ u.sec.pieces = [] ∧
        u.sec.handover = 1 ∧ u.rd F.upStat_code = 0xF06 ∧ u.rd F.upStat_state = 0 ∧
        (s.rdB F.seStat_bank = false → u.sec.stewA = s.sec.stewA ∧ u.sec.stewB.image = s.stagedImage ∧ u.sec.stewB.svn = manSvn s.sec.manifest) ∧
        (s.rdB F.seStat_bank = true → u.sec.stewB = s.sec.stewB ∧ u.sec.stewA.image = s.stagedImage ∧ u.sec.stewA.svn = manSvn s.sec.manifest)) ∧
    ∀ n : Fin 65536, s.sec.manifest ≠ [] → s.sec.held.length = manPieces s.sec.manifest → s.updateRefused s.sec.manifest = false → n.val ∈ s.sec.held →
      ∃ u : State, exec (.updateActivate (some n)) s = .next u.settle ∧ u.sec = { s.sec with
        held := s.sec.held.filter (· != n.val), pieces := tdel s.sec.pieces n.val } ∧ u.rd F.upStat_code = 0xF02) ∧
  (∀ (s : State) (b : Option (Fin 65536)), s.sec.byPldm = true → exec (.updateActivate b) s = .next s.settle) ∧
  (∀ s : State, (∃ u : State, exec .updateAbort s = .next u.settle ∧ u.sec = { s.sec with
      updOp := 0, updBuf := [], updMissing := 0, manifest := [], held := [], pieces := [], byPldm := false } ∧ u.rd F.upStat_busy = 0 ∧
      u.rd F.upStat_state = 0 ∧ u.rd F.upCount_held = 0 ∧ u = { s with regs := u.regs, sec := u.sec })) ∧
  (∀ (s : State) (b : List Byte), s.managed = true → exec (.pldmFwUpdate (.manifest b)) s = .next (State.settle (s.submitManifest b true))) ∧
  (∀ (s : State) (n : Nat) (b : List Byte) (bad : Option Nat), s.managed = true →
    (s.sec.byPldm = true → exec (.pldmFwUpdate (.piece n b)) s = .next (State.settle (s.submitPiece n b).askPiece) ∧
      exec (.pldmFwUpdate (.activate bad)) s = .next (State.settle (s.activateUpdate bad)) ∧
      exec (.pldmFwUpdate .cancel) s = .next (State.settle s.dropUpdate)) ∧
    (s.sec.byPldm = false → exec (.pldmFwUpdate (.piece n b)) s = .next (State.settle (s.upCode 0xF05 n)))) ∧
  (∀ (s : State) (n : Nat), (∀ k, k < n → k ∈ s.sec.held) → n < manPieces s.sec.manifest → n ∉ s.sec.held →
    s.askPiece = s.emit (.requestFirmware (65536 * n) (pieceLen s.sec.manifest n))) ∧
  (∀ (s : State) (hb : Bool) (new : Bank), s.rdB F.seMbCtrl_busy = false → s.sec.handover = 1 →
    new = (if s.rdB F.seStat_bank then s.sec.stewA else s.sec.stewB) →
    ∃ u v : State, exec (.stewardHandover hb) s = .next (State.settle (if new.passes s.sec.fwSvn then v else u)) ∧ u.sec = { s.sec with handover := 0 } ∧
      u.rd F.ftLast_code = 0xF07 ∧ u.rd F.seStat_bank = s.rd F.seStat_bank ∧ v.rdB F.seStat_bank = !s.rdB F.seStat_bank ∧ v.rd F.idFw_ver = new.ver.toNat ∧
      (s.sec.unlocked = 0 → v.sec.issued.map (·.key) = [.imageKey (Config.sha384 new.image), .cka (s.sec.owner.getD []) s.sec.ownerGen]) ∧
      (hb = false → v.sec = { s.sec with handover := 2, switchedAt := s.now, issued := v.sec.issued } ∧ v = { s with regs := v.regs, sec := v.sec }) ∧
      (hb = true → v.sec = { s.sec with
        handover := 0, bankB := !s.rdB F.seStat_bank, trial := true, trialFails := 0, newImage := true, switchedAt := s.now, issued := v.sec.issued } ∧
        v.rdB F.seStat_trial = true)) ∧
  (∀ (s : State) (hb : Bool), (s.rdB F.seMbCtrl_busy = true ∨ s.sec.handover = 0) → exec (.stewardHandover hb) s = .next s.settle) ∧
  (∀ s : State, s.rdB F.seMbCtrl_busy = false → s.sec.handover = 2 →
    (s.nsSince s.sec.switchedAt ≤ 100000000 → ∃ u : State, exec (.stewardHandover true) s = .next u.settle ∧ u.sec = { s.sec with
      handover := 0, bankB := s.rdB F.seStat_bank, trial := true, trialFails := 0, newImage := true } ∧ u.rd F.ftLast_code = 0xF07) ∧
    exec (.stewardHandover false) s = .next s.settle ∧ (100000000 < s.nsSince s.sec.switchedAt → exec (.stewardHandover true) s = .next s.settle)) ∧
  (∀ s : State, (s.sec.handover ≠ 2 ∨ s.nsSince s.sec.switchedAt < 100000000 → exec .handoverHeartbeatTimeout s = .next s.settle) ∧
    (s.sec.handover = 2 → 100000000 ≤ s.nsSince s.sec.switchedAt → ∃ u : State, exec .handoverHeartbeatTimeout s = .next u.settle ∧
      u.sec = { s.sec with handover := 0, issued := u.sec.issued } ∧ u.rdB F.seStat_bank = !s.rdB F.seStat_bank ∧ u.rd F.ftLast_code = 0xF07 ∧
      u.rd F.idFw_ver = (if s.rdB F.seStat_bank then s.sec.stewA else s.sec.stewB).ver.toNat)) ∧
  ∀ (s : State) (fn : Fin 16) (v : Bool), exec (.upOnairWrite fn v) s = .next (State.settle (s.wrB (F.upOnair_onAir.fn fn.val) v)) ∧
    (s.wrB (F.upOnair_onAir.fn fn.val) v).rdB (F.upOnair_onAir.fn fn.val) = v

/-! ### What the host reads and writes (01, 14) -/

/-- R5, R7, R28, R416 to R420, R424, R425, R436, R450: a write of a plain register stores what its access codes let it and changes nothing else; a function
that cannot be reached, and an offset out of range, change nothing; a read sees the register; an access of an illegal size or alignment is refused and
reported; a configuration request before the endpoint is ready is told to retry, a read of a plain word answers it, and a write stores its enabled
bytes.
Rests on the model's choices of log entries 2, 7, 8, 25, 26, 27, 28, 29, 33, 34, 108. -/
def Obligations.HostAccess : Prop :=
  (∀ (s t : State) (fn : Fin 16) (bar4 : Bool) (off : Nat) (v : Word), s.barOpen fn.val = true → off % 4 = 0 → off < barSize bar4 → t = s.wr F.glLink_l1 0 →
    exec (.registerWrite fn bar4 off v) s = .next (State.settle (t.hostStore fn bar4 off v))) ∧
  (∀ (s : State) (fn : Fin 16) (bar4 : Bool) (off : Nat) (v : Word), (s.barOpen fn.val = false ∨ off % 4 ≠ 0 ∨ barSize bar4 ≤ off) →
    exec (.registerWrite fn bar4 off v) s = .next s.settle) ∧
  (∀ (s : State) (fn : Fin 16) (o : Nat) (v : Word), o ∈ [0x40, 0x104, 0x10C, 0x20800, 0x20010, 0x30004, 0x90000, 0x90020] → s.vfWrites fn.val o = true ∨ fn.val = 0 →
    s.barWrite fn o v = s.regWrite o v.toNat ∧ ∀ a, a ≠ o → (s.barWrite fn o v).reg a = s.reg a) ∧
  (∀ (s : State) (fn : Fin 16) (o : Nat) (v : Word), fn.val ≠ 0 → s.vfWrites fn.val o = false → s.barWrite fn o v = s) ∧
  (∀ (s : State) (fn o d : Nat), fn ≠ 0 → s.vfReads fn o = false → s.regView fn o d = 0) ∧
  (∀ (s : State) (d : Nat), s.regView 0 0x10110 d = s.now % 2 ^ 32 ∧ s.regView 0 0x10114 d = s.now / 2 ^ 32 % 2 ^ 32 ∧
    s.regView 0 0x20000 d = (s.reg 0x20000).toNat ∧ s.regView 0 0x90000 d = (s.reg 0x90000).toNat) ∧
  (∀ (s t : State) (fn : Fin 16) (bar4 write : Bool) (off size v : Nat), (s.ep.linkUp = false → exec (.bar0Access fn bar4 write off size v) s = .next s.settle) ∧
    (s.ep.linkUp = true → t = s.wr F.glLink_l1 0 → (t.barOpen fn.val = false ∨ barSize bar4 < off + size) →
      exec (.bar0Access fn bar4 true off size v) s = .next t.settle ∧
      exec (.bar0Access fn bar4 false off size v) s = .next (State.settle (t.emit (.unsupported fn.val))))) ∧
  (∀ (s t : State) (fn : Fin 16) (bar4 : Bool) (off v : Nat), s.ep.linkUp = true → t = s.wr F.glLink_l1 0 → t.barOpen fn.val = true → off % 4 = 0 →
    off + 4 ≤ barSize bar4 →
    exec (.bar0Access fn bar4 false off 4 v) s = .next (State.settle (State.emit { t with fresh := t.fresh + 1 } (.readData fn.val
      (leBytes 4 (State.hostLoad { t with fresh := t.fresh + 1 } fn.val bar4 off t.fresh))))) ∧
    exec (.bar0Access fn bar4 true off 4 v) s = .next (State.settle (t.hostStore fn bar4 off (BitVec.ofNat 32 v)))) ∧
  (∀ (s t : State) (fn : Fin 16) (off v : Nat), s.ep.linkUp = true → t = s.wr F.glLink_l1 0 → t.barOpen fn.val = true → off % 8 = 0 → off + 8 ≤ 2 ^ 26 →
    exec (.bar0Access fn false false off 8 v) s = .next (State.settle (State.emit { t with fresh := t.fresh + 1 } (.readData fn.val (leBytes 8
      (State.regView { t with fresh := t.fresh + 1 } fn.val off t.fresh + State.regView { t with fresh := t.fresh + 1 } fn.val (off + 4) t.fresh * 2 ^ 32))))) ∧
    exec (.bar0Access fn false true off 8 v) s = .next (State.settle (State.barWrite (t.barWrite fn off (BitVec.ofNat 32 v)) fn (off + 4)
      (BitVec.ofNat 32 (v / 2 ^ 32))))) ∧
  (∀ (s t : State) (fn : Fin 16) (off size v : Nat), s.ep.linkUp = true → t = s.wr F.glLink_l1 0 → t.barOpen fn.val = true → off + size ≤ 2 ^ 26 →
    accessOk off size = false → ∃ u : State, exec (.bar0Access fn false true off size v) s = .next u.settle ∧
      exec (.bar0Access fn false false off size v) s = .next (State.settle (u.emit (.completerAbort fn.val))) ∧ u.rd (F.glHostLast_code.fn fn.val) = 0xD0A ∧
      u.rd F.ftLast_code = 0xD0A ∧ u.cmds = s.cmds ∧ u.sqs = s.sqs) ∧
  (∀ off size : Nat, accessOk off size = true ↔ (size = 4 ∧ off % 4 = 0) ∨ (size = 8 ∧ off % 8 = 0)) ∧
  (∀ (s : State) (fn : Fin 16) (vec : Nat) (v : Word), vec < fnVectors fn.val →
    ((s.bar4Write fn (0x400000 + 16 * vec + 8) v).msixEnt fn.val vec).data = v.toNat ∧
    (s.bar4Write fn (0x400000 + 16 * vec + 8) v).bar4View fn.val (0x400000 + 16 * vec + 8) = v.toNat ∧
    (v.toNat.testBit 0 = true → ((s.bar4Write fn (0x400000 + 16 * vec + 12) v).msixEnt fn.val vec).masked = true)) ∧
  (∀ (s : State) (fn : Fin 16) (w : Bool) (r : Fin 1024) (be : Fin 16) (v : Word), (s.ep.linkUp = false ∨ s.ep.perst = true →
      exec (.configRequest fn w r be v) s = .next s.settle) ∧
    (s.ep.linkUp = true → s.ep.perst = false → s.ep.cfgReady = false →
      exec (.configRequest fn w r be v) s = .next (State.settle (State.emit (s.wr F.glLink_l1 0) (.retryStatus fn.val)))) ∧
    (s.ep.linkUp = true → s.ep.perst = false → s.ep.cfgReady = true → (s.wr F.glLink_l1 0).fnExists fn.val = false →
      exec (.configRequest fn w r be v) s = .next (State.settle (State.emit (s.wr F.glLink_l1 0) (.unsupported fn.val))))) ∧
  (∀ (s t : State) (fn : Fin 16) (r : Fin 1024) (be : Fin 16) (v : Word), s.ep.linkUp = true → s.ep.perst = false → s.ep.cfgReady = true →
    t = s.wr F.glLink_l1 0 → t.fnExists fn.val = true →
    exec (.configRequest fn false r be v) s = .next (State.settle (t.emit (.readData fn.val (leBytes 4 (t.cfgView fn.val (4 * r.val)))))) ∧
    exec (.configRequest fn true r be v) s = .next (State.settle (State.cfgWrite (t.emit (.readData fn.val [])) fn.val (4 * r.val) be.val v.toNat))) ∧
  (∀ (s : State) (v : Nat), s.cfgWrite 0 0x310 15 v = s.numVfs (v % 2 ^ 16) ∧ s.cfgWrite 0 0x310 12 v = s) ∧
  ∀ (s : State) (fn o be v : Nat), fn ≠ 0 → pfOnly o = true → s.cfgWrite fn o be v = s
end

