-- ==== Sys2Proof/Laws/Tab.lean ====
section
/-! SUPPORT. Sparse tables and byte memories: what a read after a write gives, and that every operation keeps the canonical form. -/

namespace Sys2Proof.Machine

/-! ### Reads after writes -/

/-- A key just set holds its new entry. -/
@[simp] theorem tget_tput_same {α : Type} (t : Tab α) (a : Nat) (x : α) : tget (tput t a x) a = some x := by
  induction t with
  | nil => simp [tput, tget]
  | cons e t ih =>
    obtain ⟨k, v⟩ := e
    simp only [tput]
    split
    · simp [tget]
    · split
      · simp [tget]
      · rename_i h1 h2
        simp [tget, Ne.symm h2, ih]

/-- Setting a key leaves every other entry. -/
theorem tget_tput_ne {α : Type} (t : Tab α) (a b : Nat) (x : α) (h : b ≠ a) : tget (tput t a x) b = tget t b := by
  induction t with
  | nil => simp [tput, tget, Ne.symm h]
  | cons e t ih =>
    obtain ⟨k, v⟩ := e
    simp only [tput]
    split
    · simp [tget, Ne.symm h]
    · split
      · rename_i h1 h2
        subst h2
        simp [tget, Ne.symm h]
      · simp [tget, ih]

/-- Both reads in one line. -/
theorem tget_tput {α : Type} (t : Tab α) (a b : Nat) (x : α) : tget (tput t a x) b = if b = a then some x else tget t b := by
  split
  · rename_i h
    subst h
    simp
  · rename_i h
    exact tget_tput_ne t a b x h

/-- A removed key has no entry. -/
@[simp] theorem tget_tdel_same {α : Type} (t : Tab α) (a : Nat) : tget (tdel t a) a = none := by
  induction t with
  | nil => rfl
  | cons e t ih =>
    obtain ⟨k, v⟩ := e
    simp only [tdel]
    split
    · exact ih
    · rename_i h
      simp [tget, h, ih]

/-- Removing a key leaves every other entry. -/
theorem tget_tdel_ne {α : Type} (t : Tab α) (a b : Nat) (h : b ≠ a) : tget (tdel t a) b = tget t b := by
  induction t with
  | nil => rfl
  | cons e t ih =>
    obtain ⟨k, v⟩ := e
    simp only [tdel]
    split
    · rename_i hk
      subst hk
      simp [tget, Ne.symm h, ih]
    · simp [tget, ih]

/-! ### Canonical form -/

/-- The canonical form says that the keys rise strictly. -/
theorem Tab.wf_iff {α : Type} (t : Tab α) : Tab.wf t = true ↔ t.Pairwise (fun a b => a.1 < b.1) := by
  induction t with
  | nil => simp [Tab.wf]
  | cons e t ih =>
    obtain ⟨k, v⟩ := e
    cases t with
    | nil => simp [Tab.wf]
    | cons e' t =>
      obtain ⟨k', v'⟩ := e'
      simp only [Tab.wf, Bool.and_eq_true, decide_eq_true_eq, ih, List.pairwise_cons]
      constructor
      · rintro ⟨hk, h1, h2⟩
        refine ⟨?_, h1, h2⟩
        intro a ha
        rcases List.mem_cons.1 ha with rfl | ha
        · exact hk
        · exact Nat.lt_trans hk (h1 a ha)
      · rintro ⟨h0, h1, h2⟩
        exact ⟨h0 _ (List.mem_cons_self ..), h1, h2⟩

/-- The keys after setting one are the old ones and that one. -/
theorem mem_tput {α : Type} (t : Tab α) (a : Nat) (x : α) (e : Nat × α) : e ∈ tput t a x → e = (a, x) ∨ e ∈ t := by
  induction t with
  | nil => simp [tput]
  | cons c t ih =>
    obtain ⟨k, v⟩ := c
    simp only [tput]
    split
    · simp
    · split
      · intro h
        rcases List.mem_cons.1 h with h | h
        · exact .inl h
        · exact .inr (List.mem_cons_of_mem _ h)
      · intro h
        rcases List.mem_cons.1 h with h | h
        · exact .inr (h ▸ List.mem_cons_self ..)
        · rcases ih h with h | h
          · exact .inl h
          · exact .inr (List.mem_cons_of_mem _ h)

/-- Setting an entry keeps the canonical form. -/
theorem Tab.wf_tput {α : Type} (t : Tab α) (a : Nat) (x : α) (h : Tab.wf t = true) : Tab.wf (tput t a x) = true := by
  rw [Tab.wf_iff] at h ⊢
  induction t with
  | nil => simp [tput]
  | cons c t ih =>
    obtain ⟨k, v⟩ := c
    rw [List.pairwise_cons] at h
    simp only [tput]
    split
    · rename_i hk
      rw [List.pairwise_cons]
      refine ⟨?_, List.pairwise_cons.2 h⟩
      intro e he
      rcases List.mem_cons.1 he with rfl | he
      · exact hk
      · exact Nat.lt_trans hk (h.1 e he)
    · split
      · rename_i h1 h2
        subst h2
        exact List.pairwise_cons.2 h
      · rename_i h1 h2
        rw [List.pairwise_cons]
        refine ⟨?_, ih h.2⟩
        intro e he
        rcases mem_tput t a x e he with rfl | he
        · simp only; omega
        · exact h.1 e he

/-- A part of a table in its order keeps the canonical form. -/
theorem Tab.wf_sublist {α : Type} (t u : Tab α) (h : Tab.wf t = true) (hu : u.Sublist t) : Tab.wf u = true := by
  rw [Tab.wf_iff] at h ⊢
  exact h.sublist hu

/-- Selecting entries keeps the canonical form. -/
theorem Tab.wf_filter {α : Type} (t : Tab α) (p : Nat × α → Bool) (h : Tab.wf t = true) : Tab.wf (t.filter p) = true :=
  Tab.wf_sublist t _ h List.filter_sublist

/-- Removing a key selects the entries of the others. -/
theorem tdel_sublist {α : Type} (t : Tab α) (a : Nat) : (tdel t a).Sublist t := by
  induction t with
  | nil => exact List.Sublist.slnil
  | cons e t ih =>
    obtain ⟨k, v⟩ := e
    simp only [tdel]
    split
    · exact ih.cons _
    · exact ih.cons_cons _

/-- Removing a key keeps the canonical form. -/
theorem Tab.wf_tdel {α : Type} (t : Tab α) (a : Nat) (h : Tab.wf t = true) : Tab.wf (tdel t a) = true :=
  Tab.wf_sublist t _ h (tdel_sublist t a)

/-- Changing an entry in place keeps the canonical form. -/
theorem Tab.wf_tmod {α : Type} (t : Tab α) (a : Nat) (f : α → α) (h : Tab.wf t = true) : Tab.wf (tmod t a f) = true := by
  simp only [tmod]
  split
  · exact Tab.wf_tput t a _ h
  · exact h

/-- Changing every entry keeps the canonical form. -/
theorem Tab.wf_tmap {α : Type} (t : Tab α) (f : α → α) (h : Tab.wf t = true) : Tab.wf (tmap t f) = true := by
  rw [Tab.wf_iff] at h ⊢
  simp only [tmap, List.pairwise_map]
  exact h

/-- Setting a word of a table of words keeps the canonical form. -/
theorem Tab.wf_wput {n : Nat} (t : Tab (BitVec n)) (a : Nat) (x : BitVec n) (h : Tab.wf t = true) : Tab.wf (wput t a x) = true := by
  simp only [wput]
  split
  · exact Tab.wf_tdel t a h
  · exact Tab.wf_tput t a x h

/-! ### Byte memories -/

/-- Reading back a byte just written. -/
@[simp] theorem mget_mput_same (d : Byte) (m : Mem) (a : Nat) (b : Byte) : mget d (mput d m a b) a = b := by
  simp only [mget, mput, tgetD]
  split
  · rename_i h
    simp [h]
  · simp

/-- A write of one byte leaves every other. -/
theorem mget_mput_ne (d : Byte) (m : Mem) (a c : Nat) (b : Byte) (h : c ≠ a) : mget d (mput d m a b) c = mget d m c := by
  simp only [mget, mput, tgetD]
  split
  · rw [tget_tdel_ne _ _ _ h]
  · rw [tget_tput_ne _ _ _ _ h]

/-- A write of consecutive bytes leaves the bytes outside them. -/
theorem mget_mwrite_ne (d : Byte) (m : Mem) (a c : Nat) (bs : List Byte) (h : c < a ∨ a + bs.length ≤ c) :
    mget d (mwrite d m a bs) c = mget d m c := by
  induction bs generalizing m a with
  | nil => rfl
  | cons b bs ih =>
    simp only [List.length_cons] at h
    rw [mwrite, ih _ _ (by omega), mget_mput_ne _ _ _ _ _ (by omega)]

/-- A byte of a write of consecutive bytes reads back. -/
theorem mget_mwrite (d : Byte) (m : Mem) (a i : Nat) (bs : List Byte) (h : i < bs.length) :
    mget d (mwrite d m a bs) (a + i) = bs[i] := by
  induction bs generalizing m a i with
  | nil => simp at h
  | cons b bs ih =>
    cases i with
    | zero => rw [mwrite, mget_mwrite_ne _ _ _ _ _ (by omega)]; simp
    | succ i =>
      have := ih (mput d m a b) (a + 1) i (by simpa using h)
      rw [mwrite, show a + (i + 1) = a + 1 + i by omega, this]
      simp

/-- The entries of a memory after a removal are entries from before. -/
theorem mem_tdel {α : Type} (t : Tab α) (a : Nat) (e : Nat × α) (h : e ∈ tdel t a) : e ∈ t := (tdel_sublist t a).subset h

/-- Writing one byte keeps the canonical form of a memory. -/
theorem Memory.wf_mput (d : Byte) (m : Mem) (a : Nat) (b : Byte) (h : Memory.wf d m = true) : Memory.wf d (mput d m a b) = true := by
  simp only [Memory.wf, Bool.and_eq_true, List.all_eq_true] at h ⊢
  simp only [mput]
  split
  · exact ⟨Tab.wf_tdel m a h.1, fun c hc => h.2 c (mem_tdel m a c hc)⟩
  · rename_i hb
    refine ⟨Tab.wf_tput m a b h.1, fun c hc => ?_⟩
    rcases mem_tput m a b c hc with rfl | hc
    · simpa using hb
    · exact h.2 c hc

/-- Writing consecutive bytes keeps the canonical form of a memory. -/
theorem Memory.wf_mwrite (d : Byte) (m : Mem) (a : Nat) (bs : List Byte) (h : Memory.wf d m = true) : Memory.wf d (mwrite d m a bs) = true := by
  induction bs generalizing m a with
  | nil => exact h
  | cons b bs ih => exact ih _ _ (Memory.wf_mput d m a b h)

/-- Clearing a range keeps the canonical form of a memory. -/
theorem Memory.wf_mclear (d : Byte) (m : Mem) (lo hi : Nat) (h : Memory.wf d m = true) : Memory.wf d (mclear m lo hi) = true := by
  simp only [Memory.wf, Bool.and_eq_true, List.all_eq_true] at h ⊢
  exact ⟨Tab.wf_filter m _ h.1, fun c hc => h.2 c (List.mem_filter.1 hc).1⟩

/-- Clearing a range keeps the canonical form of an open memory. -/
theorem Memory.wfOpen_mclear (m : Mem) (lo hi : Nat) (h : Memory.wfOpen m = true) : Memory.wfOpen (mclear m lo hi) = true :=
  Tab.wf_filter m _ h

end Sys2Proof.Machine
end

