-- ==== Sys2Proof/Laws/Regs.lean ====
section
/-! SUPPORT. Registers and their fields: what a read after a write gives, and what a write leaves. -/

namespace Sys2Proof.Machine

/-! ### Bit fields -/

/-- Replacing bits, as quotient and remainder. -/
theorem setBits_eq (v lo w x : Nat) : setBits v lo w x = 2 ^ lo * (2 ^ w * (v / 2 ^ (lo + w)) + x % 2 ^ w) + v % 2 ^ lo := by
  have hv : v = 2 ^ lo * (2 ^ w * (v / 2 ^ (lo + w)) + v / 2 ^ lo % 2 ^ w) + v % 2 ^ lo := by
    have h1 := Nat.div_add_mod v (2 ^ lo)
    have h2 := Nat.div_add_mod (v / 2 ^ lo) (2 ^ w)
    rw [Nat.div_div_eq_div_mul, ← Nat.pow_add] at h2
    rw [h2, h1]
  have hb : bits v lo w = v / 2 ^ lo % 2 ^ w := by simp [bits, Nat.shiftRight_eq_div_pow]
  have hm : bits v lo w * 2 ^ lo = 2 ^ lo * (v / 2 ^ lo % 2 ^ w) := by rw [hb, Nat.mul_comm]
  have hx : x % 2 ^ w * 2 ^ lo = 2 ^ lo * (x % 2 ^ w) := Nat.mul_comm _ _
  simp only [setBits]
  rw [hm, hx, Nat.mul_add]
  rw [Nat.mul_add] at hv
  omega

/-- One bit of a number with some bits replaced. -/
theorem testBit_setBits (v lo w x i : Nat) :
    (setBits v lo w x).testBit i = if lo ≤ i ∧ i < lo + w then x.testBit (i - lo) else v.testBit i := by
  have hr : v % 2 ^ lo < 2 ^ lo := Nat.mod_lt _ (Nat.two_pow_pos lo)
  have hx : x % 2 ^ w < 2 ^ w := Nat.mod_lt _ (Nat.two_pow_pos w)
  rw [setBits_eq, Nat.testBit_two_pow_mul_add _ hr]
  split
  · rename_i h
    rw [if_neg (by omega), Nat.testBit_mod_two_pow]
    simp [h]
  · rename_i h
    rw [Nat.testBit_two_pow_mul_add _ hx]
    split
    · rename_i h2
      rw [if_pos (by omega), Nat.testBit_mod_two_pow]
      simp [h2]
    · rename_i h2
      rw [if_neg (by omega), Nat.testBit_div_two_pow]
      congr 1
      omega

/-- One bit of a bit field. -/
theorem testBit_bits (v lo w i : Nat) : (bits v lo w).testBit i = (decide (i < w) && v.testBit (lo + i)) := by
  simp [bits, Nat.testBit_mod_two_pow, Nat.testBit_shiftRight]

/-- Reading the bits just replaced. -/
theorem bits_setBits_same (v lo w x : Nat) : bits (setBits v lo w x) lo w = x % 2 ^ w := by
  apply Nat.eq_of_testBit_eq
  intro i
  rw [testBit_bits, testBit_setBits, Nat.testBit_mod_two_pow]
  by_cases h : i < w
  · simp [h]
  · simp [h]

/-- Reading bits apart from those replaced. -/
theorem bits_setBits_disj (v lo w x lo' w' : Nat) (h : lo' + w' ≤ lo ∨ lo + w ≤ lo') :
    bits (setBits v lo w x) lo' w' = bits v lo' w' := by
  apply Nat.eq_of_testBit_eq
  intro i
  rw [testBit_bits, testBit_bits, testBit_setBits]
  by_cases hi : i < w'
  · rw [if_neg (by omega)]
  · simp [hi]

/-- Cutting a word to 32 bits leaves a field inside them. -/
theorem bits_mod_word (v lo w : Nat) (h : lo + w ≤ 32) : bits (v % 2 ^ 32) lo w = bits v lo w := by
  apply Nat.eq_of_testBit_eq
  intro i
  rw [testBit_bits, testBit_bits, Nat.testBit_mod_two_pow]
  by_cases hi : i < w
  · have : lo + i < 32 := by omega
    simp [this]
  · simp [hi]

/-- A bit field is below 2 to its width. -/
theorem bits_lt (v lo w : Nat) : bits v lo w < 2 ^ w := Nat.mod_lt _ (Nat.two_pow_pos w)

/-! ### Registers -/

/-- A register just set. -/
@[simp] theorem State.reg_setReg_same (s : State) (o : Nat) (v : Word) : (s.setReg o v).reg o = v := by simp [State.reg, State.setReg]

/-- Setting a register leaves every other. -/
theorem State.reg_setReg_ne (s : State) (o a : Nat) (v : Word) (h : a ≠ o) : (s.setReg o v).reg a = s.reg a := by
  simp [State.reg, State.setReg, tget_tput_ne _ _ _ _ h]

/-- Setting a field leaves every register but its own. -/
theorem State.reg_wr_ne (s : State) (f : Fld) (v a : Nat) (h : a ≠ f.off) : (s.wr f v).reg a = s.reg a := s.reg_setReg_ne _ _ _ h

/-- A field just set holds the value, cut to its width. -/
theorem State.rd_wr_same (s : State) (f : Fld) (v : Nat) (h : f.lo + f.w ≤ 32) : (s.wr f v).rd f = v % 2 ^ f.w := by
  simp only [State.rd, State.wr, State.reg_setReg_same, BitVec.toNat_ofNat]
  rw [bits_mod_word _ _ _ h, bits_setBits_same]

/-- Setting a field leaves the fields of other registers. -/
theorem State.rd_wr_ne (s : State) (f g : Fld) (v : Nat) (h : g.off ≠ f.off) : (s.wr f v).rd g = s.rd g := by
  simp only [State.rd, s.reg_wr_ne f v g.off h]

/-- Setting a field leaves the other fields of its register. -/
theorem State.rd_wr_disj (s : State) (f g : Fld) (v : Nat) (hg : g.lo + g.w ≤ 32) (h : g.lo + g.w ≤ f.lo ∨ f.lo + f.w ≤ g.lo) :
    (s.wr f v).rd g = s.rd g := by
  by_cases ho : g.off = f.off
  · simp only [State.rd, State.wr, ho, State.reg_setReg_same, BitVec.toNat_ofNat]
    rw [bits_mod_word _ _ _ hg, bits_setBits_disj _ _ _ _ _ _ h]
  · exact s.rd_wr_ne f g v ho

/-- The registers keep their canonical form when one is set. -/
theorem State.regs_wf_setReg (s : State) (o : Nat) (v : Word) (h : Tab.wf s.regs = true) : Tab.wf (s.setReg o v).regs = true := Tab.wf_tput _ _ _ h

end Sys2Proof.Machine
end

