-- ==== Sys2Proof/Laws/State.lean ====
section
/-! SUPPORT. What each update of the state leaves: one lemma per field and update, true by definition. -/

namespace Sys2Proof.Machine

@[simp] theorem State.setReg_pending (s : State) (o : Nat) (v : Word) : (s.setReg o v).pending = s.pending := rfl
@[simp] theorem State.setReg_tl (s : State) (o : Nat) (v : Word) : (s.setReg o v).tl = s.tl := rfl
@[simp] theorem State.setReg_ck (s : State) (o : Nat) (v : Word) : (s.setReg o v).ck = s.ck := rfl
@[simp] theorem State.setReg_ep (s : State) (o : Nat) (v : Word) : (s.setReg o v).ep = s.ep := rfl
@[simp] theorem State.setReg_sqs (s : State) (o : Nat) (v : Word) : (s.setReg o v).sqs = s.sqs := rfl
@[simp] theorem State.setReg_cqs (s : State) (o : Nat) (v : Word) : (s.setReg o v).cqs = s.cqs := rfl
@[simp] theorem State.setReg_mrings (s : State) (o : Nat) (v : Word) : (s.setReg o v).mrings = s.mrings := rfl
@[simp] theorem State.setReg_cmds (s : State) (o : Nat) (v : Word) : (s.setReg o v).cmds = s.cmds := rfl
@[simp] theorem State.setReg_sched (s : State) (o : Nat) (v : Word) : (s.setReg o v).sched = s.sched := rfl
@[simp] theorem State.setReg_boles (s : State) (o : Nat) (v : Word) : (s.setReg o v).boles = s.boles := rfl
@[simp] theorem State.setReg_lands (s : State) (o : Nat) (v : Word) : (s.setReg o v).lands = s.lands := rfl
@[simp] theorem State.setReg_remote (s : State) (o : Nat) (v : Word) : (s.setReg o v).remote = s.remote := rfl
@[simp] theorem State.setReg_fills (s : State) (o : Nat) (v : Word) : (s.setReg o v).fills = s.fills := rfl
@[simp] theorem State.setReg_lists (s : State) (o : Nat) (v : Word) : (s.setReg o v).lists = s.lists := rfl
@[simp] theorem State.setReg_dicts (s : State) (o : Nat) (v : Word) : (s.setReg o v).dicts = s.dicts := rfl
@[simp] theorem State.setReg_ctxs (s : State) (o : Nat) (v : Word) : (s.setReg o v).ctxs = s.ctxs := rfl
@[simp] theorem State.setReg_dram (s : State) (o : Nat) (v : Word) : (s.setReg o v).dram = s.dram := rfl
@[simp] theorem State.setReg_decks (s : State) (o : Nat) (v : Word) : (s.setReg o v).decks = s.decks := rfl
@[simp] theorem State.setReg_engines (s : State) (o : Nat) (v : Word) : (s.setReg o v).engines = s.engines := rfl
@[simp] theorem State.setReg_sky (s : State) (o : Nat) (v : Word) : (s.setReg o v).sky = s.sky := rfl
@[simp] theorem State.setReg_pow (s : State) (o : Nat) (v : Word) : (s.setReg o v).pow = s.pow := rfl
@[simp] theorem State.setReg_boot (s : State) (o : Nat) (v : Word) : (s.setReg o v).boot = s.boot := rfl
@[simp] theorem State.setReg_sec (s : State) (o : Nat) (v : Word) : (s.setReg o v).sec = s.sec := rfl
@[simp] theorem State.setReg_seeds (s : State) (o : Nat) (v : Word) : (s.setReg o v).seeds = s.seeds := rfl
@[simp] theorem State.setReg_acct (s : State) (o : Nat) (v : Word) : (s.setReg o v).acct = s.acct := rfl
@[simp] theorem State.setReg_logSeq (s : State) (o : Nat) (v : Word) : (s.setReg o v).logSeq = s.logSeq := rfl
@[simp] theorem State.setReg_flashLog (s : State) (o : Nat) (v : Word) : (s.setReg o v).flashLog = s.flashLog := rfl
@[simp] theorem State.setReg_out (s : State) (o : Nat) (v : Word) : (s.setReg o v).out = s.out := rfl
@[simp] theorem State.setReg_fresh (s : State) (o : Nat) (v : Word) : (s.setReg o v).fresh = s.fresh := rfl

@[simp] theorem State.wr_pending (s : State) (f : Fld) (v : Nat) : (s.wr f v).pending = s.pending := rfl
@[simp] theorem State.wr_tl (s : State) (f : Fld) (v : Nat) : (s.wr f v).tl = s.tl := rfl
@[simp] theorem State.wr_ck (s : State) (f : Fld) (v : Nat) : (s.wr f v).ck = s.ck := rfl
@[simp] theorem State.wr_ep (s : State) (f : Fld) (v : Nat) : (s.wr f v).ep = s.ep := rfl
@[simp] theorem State.wr_sqs (s : State) (f : Fld) (v : Nat) : (s.wr f v).sqs = s.sqs := rfl
@[simp] theorem State.wr_cqs (s : State) (f : Fld) (v : Nat) : (s.wr f v).cqs = s.cqs := rfl
@[simp] theorem State.wr_mrings (s : State) (f : Fld) (v : Nat) : (s.wr f v).mrings = s.mrings := rfl
@[simp] theorem State.wr_cmds (s : State) (f : Fld) (v : Nat) : (s.wr f v).cmds = s.cmds := rfl
@[simp] theorem State.wr_sched (s : State) (f : Fld) (v : Nat) : (s.wr f v).sched = s.sched := rfl
@[simp] theorem State.wr_boles (s : State) (f : Fld) (v : Nat) : (s.wr f v).boles = s.boles := rfl
@[simp] theorem State.wr_lands (s : State) (f : Fld) (v : Nat) : (s.wr f v).lands = s.lands := rfl
@[simp] theorem State.wr_remote (s : State) (f : Fld) (v : Nat) : (s.wr f v).remote = s.remote := rfl
@[simp] theorem State.wr_fills (s : State) (f : Fld) (v : Nat) : (s.wr f v).fills = s.fills := rfl
@[simp] theorem State.wr_lists (s : State) (f : Fld) (v : Nat) : (s.wr f v).lists = s.lists := rfl
@[simp] theorem State.wr_dicts (s : State) (f : Fld) (v : Nat) : (s.wr f v).dicts = s.dicts := rfl
@[simp] theorem State.wr_ctxs (s : State) (f : Fld) (v : Nat) : (s.wr f v).ctxs = s.ctxs := rfl
@[simp] theorem State.wr_dram (s : State) (f : Fld) (v : Nat) : (s.wr f v).dram = s.dram := rfl
@[simp] theorem State.wr_decks (s : State) (f : Fld) (v : Nat) : (s.wr f v).decks = s.decks := rfl
@[simp] theorem State.wr_engines (s : State) (f : Fld) (v : Nat) : (s.wr f v).engines = s.engines := rfl
@[simp] theorem State.wr_sky (s : State) (f : Fld) (v : Nat) : (s.wr f v).sky = s.sky := rfl
@[simp] theorem State.wr_pow (s : State) (f : Fld) (v : Nat) : (s.wr f v).pow = s.pow := rfl
@[simp] theorem State.wr_boot (s : State) (f : Fld) (v : Nat) : (s.wr f v).boot = s.boot := rfl
@[simp] theorem State.wr_sec (s : State) (f : Fld) (v : Nat) : (s.wr f v).sec = s.sec := rfl
@[simp] theorem State.wr_seeds (s : State) (f : Fld) (v : Nat) : (s.wr f v).seeds = s.seeds := rfl
@[simp] theorem State.wr_acct (s : State) (f : Fld) (v : Nat) : (s.wr f v).acct = s.acct := rfl
@[simp] theorem State.wr_logSeq (s : State) (f : Fld) (v : Nat) : (s.wr f v).logSeq = s.logSeq := rfl
@[simp] theorem State.wr_flashLog (s : State) (f : Fld) (v : Nat) : (s.wr f v).flashLog = s.flashLog := rfl
@[simp] theorem State.wr_out (s : State) (f : Fld) (v : Nat) : (s.wr f v).out = s.out := rfl
@[simp] theorem State.wr_fresh (s : State) (f : Fld) (v : Nat) : (s.wr f v).fresh = s.fresh := rfl

@[simp] theorem State.wrB_pending (s : State) (f : Fld) (b : Bool) : (s.wrB f b).pending = s.pending := rfl
@[simp] theorem State.wrB_tl (s : State) (f : Fld) (b : Bool) : (s.wrB f b).tl = s.tl := rfl
@[simp] theorem State.wrB_ck (s : State) (f : Fld) (b : Bool) : (s.wrB f b).ck = s.ck := rfl
@[simp] theorem State.wrB_ep (s : State) (f : Fld) (b : Bool) : (s.wrB f b).ep = s.ep := rfl
@[simp] theorem State.wrB_sqs (s : State) (f : Fld) (b : Bool) : (s.wrB f b).sqs = s.sqs := rfl
@[simp] theorem State.wrB_cqs (s : State) (f : Fld) (b : Bool) : (s.wrB f b).cqs = s.cqs := rfl
@[simp] theorem State.wrB_mrings (s : State) (f : Fld) (b : Bool) : (s.wrB f b).mrings = s.mrings := rfl
@[simp] theorem State.wrB_cmds (s : State) (f : Fld) (b : Bool) : (s.wrB f b).cmds = s.cmds := rfl
@[simp] theorem State.wrB_sched (s : State) (f : Fld) (b : Bool) : (s.wrB f b).sched = s.sched := rfl
@[simp] theorem State.wrB_boles (s : State) (f : Fld) (b : Bool) : (s.wrB f b).boles = s.boles := rfl
@[simp] theorem State.wrB_lands (s : State) (f : Fld) (b : Bool) : (s.wrB f b).lands = s.lands := rfl
@[simp] theorem State.wrB_remote (s : State) (f : Fld) (b : Bool) : (s.wrB f b).remote = s.remote := rfl
@[simp] theorem State.wrB_fills (s : State) (f : Fld) (b : Bool) : (s.wrB f b).fills = s.fills := rfl
@[simp] theorem State.wrB_lists (s : State) (f : Fld) (b : Bool) : (s.wrB f b).lists = s.lists := rfl
@[simp] theorem State.wrB_dicts (s : State) (f : Fld) (b : Bool) : (s.wrB f b).dicts = s.dicts := rfl
@[simp] theorem State.wrB_ctxs (s : State) (f : Fld) (b : Bool) : (s.wrB f b).ctxs = s.ctxs := rfl
@[simp] theorem State.wrB_dram (s : State) (f : Fld) (b : Bool) : (s.wrB f b).dram = s.dram := rfl
@[simp] theorem State.wrB_decks (s : State) (f : Fld) (b : Bool) : (s.wrB f b).decks = s.decks := rfl
@[simp] theorem State.wrB_engines (s : State) (f : Fld) (b : Bool) : (s.wrB f b).engines = s.engines := rfl
@[simp] theorem State.wrB_sky (s : State) (f : Fld) (b : Bool) : (s.wrB f b).sky = s.sky := rfl
@[simp] theorem State.wrB_pow (s : State) (f : Fld) (b : Bool) : (s.wrB f b).pow = s.pow := rfl
@[simp] theorem State.wrB_boot (s : State) (f : Fld) (b : Bool) : (s.wrB f b).boot = s.boot := rfl
@[simp] theorem State.wrB_sec (s : State) (f : Fld) (b : Bool) : (s.wrB f b).sec = s.sec := rfl
@[simp] theorem State.wrB_seeds (s : State) (f : Fld) (b : Bool) : (s.wrB f b).seeds = s.seeds := rfl
@[simp] theorem State.wrB_acct (s : State) (f : Fld) (b : Bool) : (s.wrB f b).acct = s.acct := rfl
@[simp] theorem State.wrB_logSeq (s : State) (f : Fld) (b : Bool) : (s.wrB f b).logSeq = s.logSeq := rfl
@[simp] theorem State.wrB_flashLog (s : State) (f : Fld) (b : Bool) : (s.wrB f b).flashLog = s.flashLog := rfl
@[simp] theorem State.wrB_out (s : State) (f : Fld) (b : Bool) : (s.wrB f b).out = s.out := rfl
@[simp] theorem State.wrB_fresh (s : State) (f : Fld) (b : Bool) : (s.wrB f b).fresh = s.fresh := rfl

@[simp] theorem State.inc_pending (s : State) (f : Fld) (n : Nat) : (s.inc f n).pending = s.pending := rfl
@[simp] theorem State.inc_tl (s : State) (f : Fld) (n : Nat) : (s.inc f n).tl = s.tl := rfl
@[simp] theorem State.inc_ck (s : State) (f : Fld) (n : Nat) : (s.inc f n).ck = s.ck := rfl
@[simp] theorem State.inc_ep (s : State) (f : Fld) (n : Nat) : (s.inc f n).ep = s.ep := rfl
@[simp] theorem State.inc_sqs (s : State) (f : Fld) (n : Nat) : (s.inc f n).sqs = s.sqs := rfl
@[simp] theorem State.inc_cqs (s : State) (f : Fld) (n : Nat) : (s.inc f n).cqs = s.cqs := rfl
@[simp] theorem State.inc_mrings (s : State) (f : Fld) (n : Nat) : (s.inc f n).mrings = s.mrings := rfl
@[simp] theorem State.inc_cmds (s : State) (f : Fld) (n : Nat) : (s.inc f n).cmds = s.cmds := rfl
@[simp] theorem State.inc_sched (s : State) (f : Fld) (n : Nat) : (s.inc f n).sched = s.sched := rfl
@[simp] theorem State.inc_boles (s : State) (f : Fld) (n : Nat) : (s.inc f n).boles = s.boles := rfl
@[simp] theorem State.inc_lands (s : State) (f : Fld) (n : Nat) : (s.inc f n).lands = s.lands := rfl
@[simp] theorem State.inc_remote (s : State) (f : Fld) (n : Nat) : (s.inc f n).remote = s.remote := rfl
@[simp] theorem State.inc_fills (s : State) (f : Fld) (n : Nat) : (s.inc f n).fills = s.fills := rfl
@[simp] theorem State.inc_lists (s : State) (f : Fld) (n : Nat) : (s.inc f n).lists = s.lists := rfl
@[simp] theorem State.inc_dicts (s : State) (f : Fld) (n : Nat) : (s.inc f n).dicts = s.dicts := rfl
@[simp] theorem State.inc_ctxs (s : State) (f : Fld) (n : Nat) : (s.inc f n).ctxs = s.ctxs := rfl
@[simp] theorem State.inc_dram (s : State) (f : Fld) (n : Nat) : (s.inc f n).dram = s.dram := rfl
@[simp] theorem State.inc_decks (s : State) (f : Fld) (n : Nat) : (s.inc f n).decks = s.decks := rfl
@[simp] theorem State.inc_engines (s : State) (f : Fld) (n : Nat) : (s.inc f n).engines = s.engines := rfl
@[simp] theorem State.inc_sky (s : State) (f : Fld) (n : Nat) : (s.inc f n).sky = s.sky := rfl
@[simp] theorem State.inc_pow (s : State) (f : Fld) (n : Nat) : (s.inc f n).pow = s.pow := rfl
@[simp] theorem State.inc_boot (s : State) (f : Fld) (n : Nat) : (s.inc f n).boot = s.boot := rfl
@[simp] theorem State.inc_sec (s : State) (f : Fld) (n : Nat) : (s.inc f n).sec = s.sec := rfl
@[simp] theorem State.inc_seeds (s : State) (f : Fld) (n : Nat) : (s.inc f n).seeds = s.seeds := rfl
@[simp] theorem State.inc_acct (s : State) (f : Fld) (n : Nat) : (s.inc f n).acct = s.acct := rfl
@[simp] theorem State.inc_logSeq (s : State) (f : Fld) (n : Nat) : (s.inc f n).logSeq = s.logSeq := rfl
@[simp] theorem State.inc_flashLog (s : State) (f : Fld) (n : Nat) : (s.inc f n).flashLog = s.flashLog := rfl
@[simp] theorem State.inc_out (s : State) (f : Fld) (n : Nat) : (s.inc f n).out = s.out := rfl
@[simp] theorem State.inc_fresh (s : State) (f : Fld) (n : Nat) : (s.inc f n).fresh = s.fresh := rfl

@[simp] theorem State.wr2_pending (s : State) (lo hi : Fld) (v : Nat) : (s.wr2 lo hi v).pending = s.pending := rfl
@[simp] theorem State.wr2_tl (s : State) (lo hi : Fld) (v : Nat) : (s.wr2 lo hi v).tl = s.tl := rfl
@[simp] theorem State.wr2_ck (s : State) (lo hi : Fld) (v : Nat) : (s.wr2 lo hi v).ck = s.ck := rfl
@[simp] theorem State.wr2_ep (s : State) (lo hi : Fld) (v : Nat) : (s.wr2 lo hi v).ep = s.ep := rfl
@[simp] theorem State.wr2_sqs (s : State) (lo hi : Fld) (v : Nat) : (s.wr2 lo hi v).sqs = s.sqs := rfl
@[simp] theorem State.wr2_cqs (s : State) (lo hi : Fld) (v : Nat) : (s.wr2 lo hi v).cqs = s.cqs := rfl
@[simp] theorem State.wr2_mrings (s : State) (lo hi : Fld) (v : Nat) : (s.wr2 lo hi v).mrings = s.mrings := rfl
@[simp] theorem State.wr2_cmds (s : State) (lo hi : Fld) (v : Nat) : (s.wr2 lo hi v).cmds = s.cmds := rfl
@[simp] theorem State.wr2_sched (s : State) (lo hi : Fld) (v : Nat) : (s.wr2 lo hi v).sched = s.sched := rfl
@[simp] theorem State.wr2_boles (s : State) (lo hi : Fld) (v : Nat) : (s.wr2 lo hi v).boles = s.boles := rfl
@[simp] theorem State.wr2_lands (s : State) (lo hi : Fld) (v : Nat) : (s.wr2 lo hi v).lands = s.lands := rfl
@[simp] theorem State.wr2_remote (s : State) (lo hi : Fld) (v : Nat) : (s.wr2 lo hi v).remote = s.remote := rfl
@[simp] theorem State.wr2_fills (s : State) (lo hi : Fld) (v : Nat) : (s.wr2 lo hi v).fills = s.fills := rfl
@[simp] theorem State.wr2_lists (s : State) (lo hi : Fld) (v : Nat) : (s.wr2 lo hi v).lists = s.lists := rfl
@[simp] theorem State.wr2_dicts (s : State) (lo hi : Fld) (v : Nat) : (s.wr2 lo hi v).dicts = s.dicts := rfl
@[simp] theorem State.wr2_ctxs (s : State) (lo hi : Fld) (v : Nat) : (s.wr2 lo hi v).ctxs = s.ctxs := rfl
@[simp] theorem State.wr2_dram (s : State) (lo hi : Fld) (v : Nat) : (s.wr2 lo hi v).dram = s.dram := rfl
@[simp] theorem State.wr2_decks (s : State) (lo hi : Fld) (v : Nat) : (s.wr2 lo hi v).decks = s.decks := rfl
@[simp] theorem State.wr2_engines (s : State) (lo hi : Fld) (v : Nat) : (s.wr2 lo hi v).engines = s.engines := rfl
@[simp] theorem State.wr2_sky (s : State) (lo hi : Fld) (v : Nat) : (s.wr2 lo hi v).sky = s.sky := rfl
@[simp] theorem State.wr2_pow (s : State) (lo hi : Fld) (v : Nat) : (s.wr2 lo hi v).pow = s.pow := rfl
@[simp] theorem State.wr2_boot (s : State) (lo hi : Fld) (v : Nat) : (s.wr2 lo hi v).boot = s.boot := rfl
@[simp] theorem State.wr2_sec (s : State) (lo hi : Fld) (v : Nat) : (s.wr2 lo hi v).sec = s.sec := rfl
@[simp] theorem State.wr2_seeds (s : State) (lo hi : Fld) (v : Nat) : (s.wr2 lo hi v).seeds = s.seeds := rfl
@[simp] theorem State.wr2_acct (s : State) (lo hi : Fld) (v : Nat) : (s.wr2 lo hi v).acct = s.acct := rfl
@[simp] theorem State.wr2_logSeq (s : State) (lo hi : Fld) (v : Nat) : (s.wr2 lo hi v).logSeq = s.logSeq := rfl
@[simp] theorem State.wr2_flashLog (s : State) (lo hi : Fld) (v : Nat) : (s.wr2 lo hi v).flashLog = s.flashLog := rfl
@[simp] theorem State.wr2_out (s : State) (lo hi : Fld) (v : Nat) : (s.wr2 lo hi v).out = s.out := rfl
@[simp] theorem State.wr2_fresh (s : State) (lo hi : Fld) (v : Nat) : (s.wr2 lo hi v).fresh = s.fresh := rfl

@[simp] theorem State.inc2_pending (s : State) (lo hi : Fld) (n : Nat) : (s.inc2 lo hi n).pending = s.pending := rfl
@[simp] theorem State.inc2_tl (s : State) (lo hi : Fld) (n : Nat) : (s.inc2 lo hi n).tl = s.tl := rfl
@[simp] theorem State.inc2_ck (s : State) (lo hi : Fld) (n : Nat) : (s.inc2 lo hi n).ck = s.ck := rfl
@[simp] theorem State.inc2_ep (s : State) (lo hi : Fld) (n : Nat) : (s.inc2 lo hi n).ep = s.ep := rfl
@[simp] theorem State.inc2_sqs (s : State) (lo hi : Fld) (n : Nat) : (s.inc2 lo hi n).sqs = s.sqs := rfl
@[simp] theorem State.inc2_cqs (s : State) (lo hi : Fld) (n : Nat) : (s.inc2 lo hi n).cqs = s.cqs := rfl
@[simp] theorem State.inc2_mrings (s : State) (lo hi : Fld) (n : Nat) : (s.inc2 lo hi n).mrings = s.mrings := rfl
@[simp] theorem State.inc2_cmds (s : State) (lo hi : Fld) (n : Nat) : (s.inc2 lo hi n).cmds = s.cmds := rfl
@[simp] theorem State.inc2_sched (s : State) (lo hi : Fld) (n : Nat) : (s.inc2 lo hi n).sched = s.sched := rfl
@[simp] theorem State.inc2_boles (s : State) (lo hi : Fld) (n : Nat) : (s.inc2 lo hi n).boles = s.boles := rfl
@[simp] theorem State.inc2_lands (s : State) (lo hi : Fld) (n : Nat) : (s.inc2 lo hi n).lands = s.lands := rfl
@[simp] theorem State.inc2_remote (s : State) (lo hi : Fld) (n : Nat) : (s.inc2 lo hi n).remote = s.remote := rfl
@[simp] theorem State.inc2_fills (s : State) (lo hi : Fld) (n : Nat) : (s.inc2 lo hi n).fills = s.fills := rfl
@[simp] theorem State.inc2_lists (s : State) (lo hi : Fld) (n : Nat) : (s.inc2 lo hi n).lists = s.lists := rfl
@[simp] theorem State.inc2_dicts (s : State) (lo hi : Fld) (n : Nat) : (s.inc2 lo hi n).dicts = s.dicts := rfl
@[simp] theorem State.inc2_ctxs (s : State) (lo hi : Fld) (n : Nat) : (s.inc2 lo hi n).ctxs = s.ctxs := rfl
@[simp] theorem State.inc2_dram (s : State) (lo hi : Fld) (n : Nat) : (s.inc2 lo hi n).dram = s.dram := rfl
@[simp] theorem State.inc2_decks (s : State) (lo hi : Fld) (n : Nat) : (s.inc2 lo hi n).decks = s.decks := rfl
@[simp] theorem State.inc2_engines (s : State) (lo hi : Fld) (n : Nat) : (s.inc2 lo hi n).engines = s.engines := rfl
@[simp] theorem State.inc2_sky (s : State) (lo hi : Fld) (n : Nat) : (s.inc2 lo hi n).sky = s.sky := rfl
@[simp] theorem State.inc2_pow (s : State) (lo hi : Fld) (n : Nat) : (s.inc2 lo hi n).pow = s.pow := rfl
@[simp] theorem State.inc2_boot (s : State) (lo hi : Fld) (n : Nat) : (s.inc2 lo hi n).boot = s.boot := rfl
@[simp] theorem State.inc2_sec (s : State) (lo hi : Fld) (n : Nat) : (s.inc2 lo hi n).sec = s.sec := rfl
@[simp] theorem State.inc2_seeds (s : State) (lo hi : Fld) (n : Nat) : (s.inc2 lo hi n).seeds = s.seeds := rfl
@[simp] theorem State.inc2_acct (s : State) (lo hi : Fld) (n : Nat) : (s.inc2 lo hi n).acct = s.acct := rfl
@[simp] theorem State.inc2_logSeq (s : State) (lo hi : Fld) (n : Nat) : (s.inc2 lo hi n).logSeq = s.logSeq := rfl
@[simp] theorem State.inc2_flashLog (s : State) (lo hi : Fld) (n : Nat) : (s.inc2 lo hi n).flashLog = s.flashLog := rfl
@[simp] theorem State.inc2_out (s : State) (lo hi : Fld) (n : Nat) : (s.inc2 lo hi n).out = s.out := rfl
@[simp] theorem State.inc2_fresh (s : State) (lo hi : Fld) (n : Nat) : (s.inc2 lo hi n).fresh = s.fresh := rfl

@[simp] theorem State.acAdd_pending (s : State) (p off n : Nat) : (s.acAdd p off n).pending = s.pending := rfl
@[simp] theorem State.acAdd_tl (s : State) (p off n : Nat) : (s.acAdd p off n).tl = s.tl := rfl
@[simp] theorem State.acAdd_ck (s : State) (p off n : Nat) : (s.acAdd p off n).ck = s.ck := rfl
@[simp] theorem State.acAdd_ep (s : State) (p off n : Nat) : (s.acAdd p off n).ep = s.ep := rfl
@[simp] theorem State.acAdd_sqs (s : State) (p off n : Nat) : (s.acAdd p off n).sqs = s.sqs := rfl
@[simp] theorem State.acAdd_cqs (s : State) (p off n : Nat) : (s.acAdd p off n).cqs = s.cqs := rfl
@[simp] theorem State.acAdd_mrings (s : State) (p off n : Nat) : (s.acAdd p off n).mrings = s.mrings := rfl
@[simp] theorem State.acAdd_cmds (s : State) (p off n : Nat) : (s.acAdd p off n).cmds = s.cmds := rfl
@[simp] theorem State.acAdd_sched (s : State) (p off n : Nat) : (s.acAdd p off n).sched = s.sched := rfl
@[simp] theorem State.acAdd_boles (s : State) (p off n : Nat) : (s.acAdd p off n).boles = s.boles := rfl
@[simp] theorem State.acAdd_lands (s : State) (p off n : Nat) : (s.acAdd p off n).lands = s.lands := rfl
@[simp] theorem State.acAdd_remote (s : State) (p off n : Nat) : (s.acAdd p off n).remote = s.remote := rfl
@[simp] theorem State.acAdd_fills (s : State) (p off n : Nat) : (s.acAdd p off n).fills = s.fills := rfl
@[simp] theorem State.acAdd_lists (s : State) (p off n : Nat) : (s.acAdd p off n).lists = s.lists := rfl
@[simp] theorem State.acAdd_dicts (s : State) (p off n : Nat) : (s.acAdd p off n).dicts = s.dicts := rfl
@[simp] theorem State.acAdd_ctxs (s : State) (p off n : Nat) : (s.acAdd p off n).ctxs = s.ctxs := rfl
@[simp] theorem State.acAdd_dram (s : State) (p off n : Nat) : (s.acAdd p off n).dram = s.dram := rfl
@[simp] theorem State.acAdd_decks (s : State) (p off n : Nat) : (s.acAdd p off n).decks = s.decks := rfl
@[simp] theorem State.acAdd_engines (s : State) (p off n : Nat) : (s.acAdd p off n).engines = s.engines := rfl
@[simp] theorem State.acAdd_sky (s : State) (p off n : Nat) : (s.acAdd p off n).sky = s.sky := rfl
@[simp] theorem State.acAdd_pow (s : State) (p off n : Nat) : (s.acAdd p off n).pow = s.pow := rfl
@[simp] theorem State.acAdd_boot (s : State) (p off n : Nat) : (s.acAdd p off n).boot = s.boot := rfl
@[simp] theorem State.acAdd_sec (s : State) (p off n : Nat) : (s.acAdd p off n).sec = s.sec := rfl
@[simp] theorem State.acAdd_seeds (s : State) (p off n : Nat) : (s.acAdd p off n).seeds = s.seeds := rfl
@[simp] theorem State.acAdd_acct (s : State) (p off n : Nat) : (s.acAdd p off n).acct = s.acct := rfl
@[simp] theorem State.acAdd_logSeq (s : State) (p off n : Nat) : (s.acAdd p off n).logSeq = s.logSeq := rfl
@[simp] theorem State.acAdd_flashLog (s : State) (p off n : Nat) : (s.acAdd p off n).flashLog = s.flashLog := rfl
@[simp] theorem State.acAdd_out (s : State) (p off n : Nat) : (s.acAdd p off n).out = s.out := rfl
@[simp] theorem State.acAdd_fresh (s : State) (p off n : Nat) : (s.acAdd p off n).fresh = s.fresh := rfl

@[simp] theorem State.emit_pending (s : State) (m : OutMsg) : (s.emit m).pending = s.pending := rfl
@[simp] theorem State.emit_regs (s : State) (m : OutMsg) : (s.emit m).regs = s.regs := rfl
@[simp] theorem State.emit_tl (s : State) (m : OutMsg) : (s.emit m).tl = s.tl := rfl
@[simp] theorem State.emit_ck (s : State) (m : OutMsg) : (s.emit m).ck = s.ck := rfl
@[simp] theorem State.emit_ep (s : State) (m : OutMsg) : (s.emit m).ep = s.ep := rfl
@[simp] theorem State.emit_sqs (s : State) (m : OutMsg) : (s.emit m).sqs = s.sqs := rfl
@[simp] theorem State.emit_cqs (s : State) (m : OutMsg) : (s.emit m).cqs = s.cqs := rfl
@[simp] theorem State.emit_mrings (s : State) (m : OutMsg) : (s.emit m).mrings = s.mrings := rfl
@[simp] theorem State.emit_cmds (s : State) (m : OutMsg) : (s.emit m).cmds = s.cmds := rfl
@[simp] theorem State.emit_sched (s : State) (m : OutMsg) : (s.emit m).sched = s.sched := rfl
@[simp] theorem State.emit_boles (s : State) (m : OutMsg) : (s.emit m).boles = s.boles := rfl
@[simp] theorem State.emit_lands (s : State) (m : OutMsg) : (s.emit m).lands = s.lands := rfl
@[simp] theorem State.emit_remote (s : State) (m : OutMsg) : (s.emit m).remote = s.remote := rfl
@[simp] theorem State.emit_fills (s : State) (m : OutMsg) : (s.emit m).fills = s.fills := rfl
@[simp] theorem State.emit_lists (s : State) (m : OutMsg) : (s.emit m).lists = s.lists := rfl
@[simp] theorem State.emit_dicts (s : State) (m : OutMsg) : (s.emit m).dicts = s.dicts := rfl
@[simp] theorem State.emit_ctxs (s : State) (m : OutMsg) : (s.emit m).ctxs = s.ctxs := rfl
@[simp] theorem State.emit_dram (s : State) (m : OutMsg) : (s.emit m).dram = s.dram := rfl
@[simp] theorem State.emit_decks (s : State) (m : OutMsg) : (s.emit m).decks = s.decks := rfl
@[simp] theorem State.emit_engines (s : State) (m : OutMsg) : (s.emit m).engines = s.engines := rfl
@[simp] theorem State.emit_sky (s : State) (m : OutMsg) : (s.emit m).sky = s.sky := rfl
@[simp] theorem State.emit_pow (s : State) (m : OutMsg) : (s.emit m).pow = s.pow := rfl
@[simp] theorem State.emit_boot (s : State) (m : OutMsg) : (s.emit m).boot = s.boot := rfl
@[simp] theorem State.emit_sec (s : State) (m : OutMsg) : (s.emit m).sec = s.sec := rfl
@[simp] theorem State.emit_seeds (s : State) (m : OutMsg) : (s.emit m).seeds = s.seeds := rfl
@[simp] theorem State.emit_acct (s : State) (m : OutMsg) : (s.emit m).acct = s.acct := rfl
@[simp] theorem State.emit_logSeq (s : State) (m : OutMsg) : (s.emit m).logSeq = s.logSeq := rfl
@[simp] theorem State.emit_flashLog (s : State) (m : OutMsg) : (s.emit m).flashLog = s.flashLog := rfl
@[simp] theorem State.emit_fresh (s : State) (m : OutMsg) : (s.emit m).fresh = s.fresh := rfl

@[simp] theorem State.setMsix_pending (s : State) (fn vec : Nat) (e : MsixEnt) : (s.setMsix fn vec e).pending = s.pending := rfl
@[simp] theorem State.setMsix_regs (s : State) (fn vec : Nat) (e : MsixEnt) : (s.setMsix fn vec e).regs = s.regs := rfl
@[simp] theorem State.setMsix_tl (s : State) (fn vec : Nat) (e : MsixEnt) : (s.setMsix fn vec e).tl = s.tl := rfl
@[simp] theorem State.setMsix_ck (s : State) (fn vec : Nat) (e : MsixEnt) : (s.setMsix fn vec e).ck = s.ck := rfl
@[simp] theorem State.setMsix_sqs (s : State) (fn vec : Nat) (e : MsixEnt) : (s.setMsix fn vec e).sqs = s.sqs := rfl
@[simp] theorem State.setMsix_cqs (s : State) (fn vec : Nat) (e : MsixEnt) : (s.setMsix fn vec e).cqs = s.cqs := rfl
@[simp] theorem State.setMsix_mrings (s : State) (fn vec : Nat) (e : MsixEnt) : (s.setMsix fn vec e).mrings = s.mrings := rfl
@[simp] theorem State.setMsix_cmds (s : State) (fn vec : Nat) (e : MsixEnt) : (s.setMsix fn vec e).cmds = s.cmds := rfl
@[simp] theorem State.setMsix_sched (s : State) (fn vec : Nat) (e : MsixEnt) : (s.setMsix fn vec e).sched = s.sched := rfl
@[simp] theorem State.setMsix_boles (s : State) (fn vec : Nat) (e : MsixEnt) : (s.setMsix fn vec e).boles = s.boles := rfl
@[simp] theorem State.setMsix_lands (s : State) (fn vec : Nat) (e : MsixEnt) : (s.setMsix fn vec e).lands = s.lands := rfl
@[simp] theorem State.setMsix_remote (s : State) (fn vec : Nat) (e : MsixEnt) : (s.setMsix fn vec e).remote = s.remote := rfl
@[simp] theorem State.setMsix_fills (s : State) (fn vec : Nat) (e : MsixEnt) : (s.setMsix fn vec e).fills = s.fills := rfl
@[simp] theorem State.setMsix_lists (s : State) (fn vec : Nat) (e : MsixEnt) : (s.setMsix fn vec e).lists = s.lists := rfl
@[simp] theorem State.setMsix_dicts (s : State) (fn vec : Nat) (e : MsixEnt) : (s.setMsix fn vec e).dicts = s.dicts := rfl
@[simp] theorem State.setMsix_ctxs (s : State) (fn vec : Nat) (e : MsixEnt) : (s.setMsix fn vec e).ctxs = s.ctxs := rfl
@[simp] theorem State.setMsix_dram (s : State) (fn vec : Nat) (e : MsixEnt) : (s.setMsix fn vec e).dram = s.dram := rfl
@[simp] theorem State.setMsix_decks (s : State) (fn vec : Nat) (e : MsixEnt) : (s.setMsix fn vec e).decks = s.decks := rfl
@[simp] theorem State.setMsix_engines (s : State) (fn vec : Nat) (e : MsixEnt) : (s.setMsix fn vec e).engines = s.engines := rfl
@[simp] theorem State.setMsix_sky (s : State) (fn vec : Nat) (e : MsixEnt) : (s.setMsix fn vec e).sky = s.sky := rfl
@[simp] theorem State.setMsix_pow (s : State) (fn vec : Nat) (e : MsixEnt) : (s.setMsix fn vec e).pow = s.pow := rfl
@[simp] theorem State.setMsix_boot (s : State) (fn vec : Nat) (e : MsixEnt) : (s.setMsix fn vec e).boot = s.boot := rfl
@[simp] theorem State.setMsix_sec (s : State) (fn vec : Nat) (e : MsixEnt) : (s.setMsix fn vec e).sec = s.sec := rfl
@[simp] theorem State.setMsix_seeds (s : State) (fn vec : Nat) (e : MsixEnt) : (s.setMsix fn vec e).seeds = s.seeds := rfl
@[simp] theorem State.setMsix_acct (s : State) (fn vec : Nat) (e : MsixEnt) : (s.setMsix fn vec e).acct = s.acct := rfl
@[simp] theorem State.setMsix_logSeq (s : State) (fn vec : Nat) (e : MsixEnt) : (s.setMsix fn vec e).logSeq = s.logSeq := rfl
@[simp] theorem State.setMsix_flashLog (s : State) (fn vec : Nat) (e : MsixEnt) : (s.setMsix fn vec e).flashLog = s.flashLog := rfl
@[simp] theorem State.setMsix_out (s : State) (fn vec : Nat) (e : MsixEnt) : (s.setMsix fn vec e).out = s.out := rfl
@[simp] theorem State.setMsix_fresh (s : State) (fn vec : Nat) (e : MsixEnt) : (s.setMsix fn vec e).fresh = s.fresh := rfl

@[simp] theorem State.setSubch_pending (s : State) (sc : Nat) (c : SubCh) : (s.setSubch sc c).pending = s.pending := rfl
@[simp] theorem State.setSubch_regs (s : State) (sc : Nat) (c : SubCh) : (s.setSubch sc c).regs = s.regs := rfl
@[simp] theorem State.setSubch_tl (s : State) (sc : Nat) (c : SubCh) : (s.setSubch sc c).tl = s.tl := rfl
@[simp] theorem State.setSubch_ck (s : State) (sc : Nat) (c : SubCh) : (s.setSubch sc c).ck = s.ck := rfl
@[simp] theorem State.setSubch_ep (s : State) (sc : Nat) (c : SubCh) : (s.setSubch sc c).ep = s.ep := rfl
@[simp] theorem State.setSubch_sqs (s : State) (sc : Nat) (c : SubCh) : (s.setSubch sc c).sqs = s.sqs := rfl
@[simp] theorem State.setSubch_cqs (s : State) (sc : Nat) (c : SubCh) : (s.setSubch sc c).cqs = s.cqs := rfl
@[simp] theorem State.setSubch_mrings (s : State) (sc : Nat) (c : SubCh) : (s.setSubch sc c).mrings = s.mrings := rfl
@[simp] theorem State.setSubch_cmds (s : State) (sc : Nat) (c : SubCh) : (s.setSubch sc c).cmds = s.cmds := rfl
@[simp] theorem State.setSubch_sched (s : State) (sc : Nat) (c : SubCh) : (s.setSubch sc c).sched = s.sched := rfl
@[simp] theorem State.setSubch_boles (s : State) (sc : Nat) (c : SubCh) : (s.setSubch sc c).boles = s.boles := rfl
@[simp] theorem State.setSubch_lands (s : State) (sc : Nat) (c : SubCh) : (s.setSubch sc c).lands = s.lands := rfl
@[simp] theorem State.setSubch_remote (s : State) (sc : Nat) (c : SubCh) : (s.setSubch sc c).remote = s.remote := rfl
@[simp] theorem State.setSubch_fills (s : State) (sc : Nat) (c : SubCh) : (s.setSubch sc c).fills = s.fills := rfl
@[simp] theorem State.setSubch_lists (s : State) (sc : Nat) (c : SubCh) : (s.setSubch sc c).lists = s.lists := rfl
@[simp] theorem State.setSubch_dicts (s : State) (sc : Nat) (c : SubCh) : (s.setSubch sc c).dicts = s.dicts := rfl
@[simp] theorem State.setSubch_ctxs (s : State) (sc : Nat) (c : SubCh) : (s.setSubch sc c).ctxs = s.ctxs := rfl
@[simp] theorem State.setSubch_decks (s : State) (sc : Nat) (c : SubCh) : (s.setSubch sc c).decks = s.decks := rfl
@[simp] theorem State.setSubch_engines (s : State) (sc : Nat) (c : SubCh) : (s.setSubch sc c).engines = s.engines := rfl
@[simp] theorem State.setSubch_sky (s : State) (sc : Nat) (c : SubCh) : (s.setSubch sc c).sky = s.sky := rfl
@[simp] theorem State.setSubch_pow (s : State) (sc : Nat) (c : SubCh) : (s.setSubch sc c).pow = s.pow := rfl
@[simp] theorem State.setSubch_boot (s : State) (sc : Nat) (c : SubCh) : (s.setSubch sc c).boot = s.boot := rfl
@[simp] theorem State.setSubch_sec (s : State) (sc : Nat) (c : SubCh) : (s.setSubch sc c).sec = s.sec := rfl
@[simp] theorem State.setSubch_seeds (s : State) (sc : Nat) (c : SubCh) : (s.setSubch sc c).seeds = s.seeds := rfl
@[simp] theorem State.setSubch_acct (s : State) (sc : Nat) (c : SubCh) : (s.setSubch sc c).acct = s.acct := rfl
@[simp] theorem State.setSubch_logSeq (s : State) (sc : Nat) (c : SubCh) : (s.setSubch sc c).logSeq = s.logSeq := rfl
@[simp] theorem State.setSubch_flashLog (s : State) (sc : Nat) (c : SubCh) : (s.setSubch sc c).flashLog = s.flashLog := rfl
@[simp] theorem State.setSubch_out (s : State) (sc : Nat) (c : SubCh) : (s.setSubch sc c).out = s.out := rfl
@[simp] theorem State.setSubch_fresh (s : State) (sc : Nat) (c : SubCh) : (s.setSubch sc c).fresh = s.fresh := rfl

@[simp] theorem State.setBole_pending (s : State) (p : Nat) (b : Bole) : (s.setBole p b).pending = s.pending := rfl
@[simp] theorem State.setBole_regs (s : State) (p : Nat) (b : Bole) : (s.setBole p b).regs = s.regs := rfl
@[simp] theorem State.setBole_tl (s : State) (p : Nat) (b : Bole) : (s.setBole p b).tl = s.tl := rfl
@[simp] theorem State.setBole_ck (s : State) (p : Nat) (b : Bole) : (s.setBole p b).ck = s.ck := rfl
@[simp] theorem State.setBole_ep (s : State) (p : Nat) (b : Bole) : (s.setBole p b).ep = s.ep := rfl
@[simp] theorem State.setBole_sqs (s : State) (p : Nat) (b : Bole) : (s.setBole p b).sqs = s.sqs := rfl
@[simp] theorem State.setBole_cqs (s : State) (p : Nat) (b : Bole) : (s.setBole p b).cqs = s.cqs := rfl
@[simp] theorem State.setBole_mrings (s : State) (p : Nat) (b : Bole) : (s.setBole p b).mrings = s.mrings := rfl
@[simp] theorem State.setBole_cmds (s : State) (p : Nat) (b : Bole) : (s.setBole p b).cmds = s.cmds := rfl
@[simp] theorem State.setBole_sched (s : State) (p : Nat) (b : Bole) : (s.setBole p b).sched = s.sched := rfl
@[simp] theorem State.setBole_lands (s : State) (p : Nat) (b : Bole) : (s.setBole p b).lands = s.lands := rfl
@[simp] theorem State.setBole_remote (s : State) (p : Nat) (b : Bole) : (s.setBole p b).remote = s.remote := rfl
@[simp] theorem State.setBole_fills (s : State) (p : Nat) (b : Bole) : (s.setBole p b).fills = s.fills := rfl
@[simp] theorem State.setBole_lists (s : State) (p : Nat) (b : Bole) : (s.setBole p b).lists = s.lists := rfl
@[simp] theorem State.setBole_dicts (s : State) (p : Nat) (b : Bole) : (s.setBole p b).dicts = s.dicts := rfl
@[simp] theorem State.setBole_ctxs (s : State) (p : Nat) (b : Bole) : (s.setBole p b).ctxs = s.ctxs := rfl
@[simp] theorem State.setBole_dram (s : State) (p : Nat) (b : Bole) : (s.setBole p b).dram = s.dram := rfl
@[simp] theorem State.setBole_decks (s : State) (p : Nat) (b : Bole) : (s.setBole p b).decks = s.decks := rfl
@[simp] theorem State.setBole_engines (s : State) (p : Nat) (b : Bole) : (s.setBole p b).engines = s.engines := rfl
@[simp] theorem State.setBole_sky (s : State) (p : Nat) (b : Bole) : (s.setBole p b).sky = s.sky := rfl
@[simp] theorem State.setBole_pow (s : State) (p : Nat) (b : Bole) : (s.setBole p b).pow = s.pow := rfl
@[simp] theorem State.setBole_boot (s : State) (p : Nat) (b : Bole) : (s.setBole p b).boot = s.boot := rfl
@[simp] theorem State.setBole_sec (s : State) (p : Nat) (b : Bole) : (s.setBole p b).sec = s.sec := rfl
@[simp] theorem State.setBole_seeds (s : State) (p : Nat) (b : Bole) : (s.setBole p b).seeds = s.seeds := rfl
@[simp] theorem State.setBole_acct (s : State) (p : Nat) (b : Bole) : (s.setBole p b).acct = s.acct := rfl
@[simp] theorem State.setBole_logSeq (s : State) (p : Nat) (b : Bole) : (s.setBole p b).logSeq = s.logSeq := rfl
@[simp] theorem State.setBole_flashLog (s : State) (p : Nat) (b : Bole) : (s.setBole p b).flashLog = s.flashLog := rfl
@[simp] theorem State.setBole_out (s : State) (p : Nat) (b : Bole) : (s.setBole p b).out = s.out := rfl
@[simp] theorem State.setBole_fresh (s : State) (p : Nat) (b : Bole) : (s.setBole p b).fresh = s.fresh := rfl

@[simp] theorem State.setLand_pending (s : State) (g : Nat) (l : Landing) : (s.setLand g l).pending = s.pending := rfl
@[simp] theorem State.setLand_regs (s : State) (g : Nat) (l : Landing) : (s.setLand g l).regs = s.regs := rfl
@[simp] theorem State.setLand_tl (s : State) (g : Nat) (l : Landing) : (s.setLand g l).tl = s.tl := rfl
@[simp] theorem State.setLand_ck (s : State) (g : Nat) (l : Landing) : (s.setLand g l).ck = s.ck := rfl
@[simp] theorem State.setLand_ep (s : State) (g : Nat) (l : Landing) : (s.setLand g l).ep = s.ep := rfl
@[simp] theorem State.setLand_sqs (s : State) (g : Nat) (l : Landing) : (s.setLand g l).sqs = s.sqs := rfl
@[simp] theorem State.setLand_cqs (s : State) (g : Nat) (l : Landing) : (s.setLand g l).cqs = s.cqs := rfl
@[simp] theorem State.setLand_mrings (s : State) (g : Nat) (l : Landing) : (s.setLand g l).mrings = s.mrings := rfl
@[simp] theorem State.setLand_cmds (s : State) (g : Nat) (l : Landing) : (s.setLand g l).cmds = s.cmds := rfl
@[simp] theorem State.setLand_sched (s : State) (g : Nat) (l : Landing) : (s.setLand g l).sched = s.sched := rfl
@[simp] theorem State.setLand_boles (s : State) (g : Nat) (l : Landing) : (s.setLand g l).boles = s.boles := rfl
@[simp] theorem State.setLand_remote (s : State) (g : Nat) (l : Landing) : (s.setLand g l).remote = s.remote := rfl
@[simp] theorem State.setLand_fills (s : State) (g : Nat) (l : Landing) : (s.setLand g l).fills = s.fills := rfl
@[simp] theorem State.setLand_lists (s : State) (g : Nat) (l : Landing) : (s.setLand g l).lists = s.lists := rfl
@[simp] theorem State.setLand_dicts (s : State) (g : Nat) (l : Landing) : (s.setLand g l).dicts = s.dicts := rfl
@[simp] theorem State.setLand_ctxs (s : State) (g : Nat) (l : Landing) : (s.setLand g l).ctxs = s.ctxs := rfl
@[simp] theorem State.setLand_dram (s : State) (g : Nat) (l : Landing) : (s.setLand g l).dram = s.dram := rfl
@[simp] theorem State.setLand_decks (s : State) (g : Nat) (l : Landing) : (s.setLand g l).decks = s.decks := rfl
@[simp] theorem State.setLand_engines (s : State) (g : Nat) (l : Landing) : (s.setLand g l).engines = s.engines := rfl
@[simp] theorem State.setLand_sky (s : State) (g : Nat) (l : Landing) : (s.setLand g l).sky = s.sky := rfl
@[simp] theorem State.setLand_pow (s : State) (g : Nat) (l : Landing) : (s.setLand g l).pow = s.pow := rfl
@[simp] theorem State.setLand_boot (s : State) (g : Nat) (l : Landing) : (s.setLand g l).boot = s.boot := rfl
@[simp] theorem State.setLand_sec (s : State) (g : Nat) (l : Landing) : (s.setLand g l).sec = s.sec := rfl
@[simp] theorem State.setLand_seeds (s : State) (g : Nat) (l : Landing) : (s.setLand g l).seeds = s.seeds := rfl
@[simp] theorem State.setLand_acct (s : State) (g : Nat) (l : Landing) : (s.setLand g l).acct = s.acct := rfl
@[simp] theorem State.setLand_logSeq (s : State) (g : Nat) (l : Landing) : (s.setLand g l).logSeq = s.logSeq := rfl
@[simp] theorem State.setLand_flashLog (s : State) (g : Nat) (l : Landing) : (s.setLand g l).flashLog = s.flashLog := rfl
@[simp] theorem State.setLand_out (s : State) (g : Nat) (l : Landing) : (s.setLand g l).out = s.out := rfl
@[simp] theorem State.setLand_fresh (s : State) (g : Nat) (l : Landing) : (s.setLand g l).fresh = s.fresh := rfl

@[simp] theorem State.setEngine_pending (s : State) (e : Nat) (x : Engine) : (s.setEngine e x).pending = s.pending := rfl
@[simp] theorem State.setEngine_regs (s : State) (e : Nat) (x : Engine) : (s.setEngine e x).regs = s.regs := rfl
@[simp] theorem State.setEngine_tl (s : State) (e : Nat) (x : Engine) : (s.setEngine e x).tl = s.tl := rfl
@[simp] theorem State.setEngine_ck (s : State) (e : Nat) (x : Engine) : (s.setEngine e x).ck = s.ck := rfl
@[simp] theorem State.setEngine_ep (s : State) (e : Nat) (x : Engine) : (s.setEngine e x).ep = s.ep := rfl
@[simp] theorem State.setEngine_sqs (s : State) (e : Nat) (x : Engine) : (s.setEngine e x).sqs = s.sqs := rfl
@[simp] theorem State.setEngine_cqs (s : State) (e : Nat) (x : Engine) : (s.setEngine e x).cqs = s.cqs := rfl
@[simp] theorem State.setEngine_mrings (s : State) (e : Nat) (x : Engine) : (s.setEngine e x).mrings = s.mrings := rfl
@[simp] theorem State.setEngine_cmds (s : State) (e : Nat) (x : Engine) : (s.setEngine e x).cmds = s.cmds := rfl
@[simp] theorem State.setEngine_sched (s : State) (e : Nat) (x : Engine) : (s.setEngine e x).sched = s.sched := rfl
@[simp] theorem State.setEngine_boles (s : State) (e : Nat) (x : Engine) : (s.setEngine e x).boles = s.boles := rfl
@[simp] theorem State.setEngine_lands (s : State) (e : Nat) (x : Engine) : (s.setEngine e x).lands = s.lands := rfl
@[simp] theorem State.setEngine_remote (s : State) (e : Nat) (x : Engine) : (s.setEngine e x).remote = s.remote := rfl
@[simp] theorem State.setEngine_fills (s : State) (e : Nat) (x : Engine) : (s.setEngine e x).fills = s.fills := rfl
@[simp] theorem State.setEngine_lists (s : State) (e : Nat) (x : Engine) : (s.setEngine e x).lists = s.lists := rfl
@[simp] theorem State.setEngine_dicts (s : State) (e : Nat) (x : Engine) : (s.setEngine e x).dicts = s.dicts := rfl
@[simp] theorem State.setEngine_ctxs (s : State) (e : Nat) (x : Engine) : (s.setEngine e x).ctxs = s.ctxs := rfl
@[simp] theorem State.setEngine_dram (s : State) (e : Nat) (x : Engine) : (s.setEngine e x).dram = s.dram := rfl
@[simp] theorem State.setEngine_decks (s : State) (e : Nat) (x : Engine) : (s.setEngine e x).decks = s.decks := rfl
@[simp] theorem State.setEngine_sky (s : State) (e : Nat) (x : Engine) : (s.setEngine e x).sky = s.sky := rfl
@[simp] theorem State.setEngine_pow (s : State) (e : Nat) (x : Engine) : (s.setEngine e x).pow = s.pow := rfl
@[simp] theorem State.setEngine_boot (s : State) (e : Nat) (x : Engine) : (s.setEngine e x).boot = s.boot := rfl
@[simp] theorem State.setEngine_sec (s : State) (e : Nat) (x : Engine) : (s.setEngine e x).sec = s.sec := rfl
@[simp] theorem State.setEngine_seeds (s : State) (e : Nat) (x : Engine) : (s.setEngine e x).seeds = s.seeds := rfl
@[simp] theorem State.setEngine_acct (s : State) (e : Nat) (x : Engine) : (s.setEngine e x).acct = s.acct := rfl
@[simp] theorem State.setEngine_logSeq (s : State) (e : Nat) (x : Engine) : (s.setEngine e x).logSeq = s.logSeq := rfl
@[simp] theorem State.setEngine_flashLog (s : State) (e : Nat) (x : Engine) : (s.setEngine e x).flashLog = s.flashLog := rfl
@[simp] theorem State.setEngine_out (s : State) (e : Nat) (x : Engine) : (s.setEngine e x).out = s.out := rfl
@[simp] theorem State.setEngine_fresh (s : State) (e : Nat) (x : Engine) : (s.setEngine e x).fresh = s.fresh := rfl

@[simp] theorem State.setCmd_pending (s : State) (slot : Nat) (c : Cmd) : (s.setCmd slot c).pending = s.pending := rfl
@[simp] theorem State.setCmd_regs (s : State) (slot : Nat) (c : Cmd) : (s.setCmd slot c).regs = s.regs := rfl
@[simp] theorem State.setCmd_tl (s : State) (slot : Nat) (c : Cmd) : (s.setCmd slot c).tl = s.tl := rfl
@[simp] theorem State.setCmd_ck (s : State) (slot : Nat) (c : Cmd) : (s.setCmd slot c).ck = s.ck := rfl
@[simp] theorem State.setCmd_ep (s : State) (slot : Nat) (c : Cmd) : (s.setCmd slot c).ep = s.ep := rfl
@[simp] theorem State.setCmd_sqs (s : State) (slot : Nat) (c : Cmd) : (s.setCmd slot c).sqs = s.sqs := rfl
@[simp] theorem State.setCmd_cqs (s : State) (slot : Nat) (c : Cmd) : (s.setCmd slot c).cqs = s.cqs := rfl
@[simp] theorem State.setCmd_mrings (s : State) (slot : Nat) (c : Cmd) : (s.setCmd slot c).mrings = s.mrings := rfl
@[simp] theorem State.setCmd_sched (s : State) (slot : Nat) (c : Cmd) : (s.setCmd slot c).sched = s.sched := rfl
@[simp] theorem State.setCmd_boles (s : State) (slot : Nat) (c : Cmd) : (s.setCmd slot c).boles = s.boles := rfl
@[simp] theorem State.setCmd_lands (s : State) (slot : Nat) (c : Cmd) : (s.setCmd slot c).lands = s.lands := rfl
@[simp] theorem State.setCmd_remote (s : State) (slot : Nat) (c : Cmd) : (s.setCmd slot c).remote = s.remote := rfl
@[simp] theorem State.setCmd_fills (s : State) (slot : Nat) (c : Cmd) : (s.setCmd slot c).fills = s.fills := rfl
@[simp] theorem State.setCmd_lists (s : State) (slot : Nat) (c : Cmd) : (s.setCmd slot c).lists = s.lists := rfl
@[simp] theorem State.setCmd_dicts (s : State) (slot : Nat) (c : Cmd) : (s.setCmd slot c).dicts = s.dicts := rfl
@[simp] theorem State.setCmd_ctxs (s : State) (slot : Nat) (c : Cmd) : (s.setCmd slot c).ctxs = s.ctxs := rfl
@[simp] theorem State.setCmd_dram (s : State) (slot : Nat) (c : Cmd) : (s.setCmd slot c).dram = s.dram := rfl
@[simp] theorem State.setCmd_decks (s : State) (slot : Nat) (c : Cmd) : (s.setCmd slot c).decks = s.decks := rfl
@[simp] theorem State.setCmd_engines (s : State) (slot : Nat) (c : Cmd) : (s.setCmd slot c).engines = s.engines := rfl
@[simp] theorem State.setCmd_sky (s : State) (slot : Nat) (c : Cmd) : (s.setCmd slot c).sky = s.sky := rfl
@[simp] theorem State.setCmd_pow (s : State) (slot : Nat) (c : Cmd) : (s.setCmd slot c).pow = s.pow := rfl
@[simp] theorem State.setCmd_boot (s : State) (slot : Nat) (c : Cmd) : (s.setCmd slot c).boot = s.boot := rfl
@[simp] theorem State.setCmd_sec (s : State) (slot : Nat) (c : Cmd) : (s.setCmd slot c).sec = s.sec := rfl
@[simp] theorem State.setCmd_seeds (s : State) (slot : Nat) (c : Cmd) : (s.setCmd slot c).seeds = s.seeds := rfl
@[simp] theorem State.setCmd_acct (s : State) (slot : Nat) (c : Cmd) : (s.setCmd slot c).acct = s.acct := rfl
@[simp] theorem State.setCmd_logSeq (s : State) (slot : Nat) (c : Cmd) : (s.setCmd slot c).logSeq = s.logSeq := rfl
@[simp] theorem State.setCmd_flashLog (s : State) (slot : Nat) (c : Cmd) : (s.setCmd slot c).flashLog = s.flashLog := rfl
@[simp] theorem State.setCmd_out (s : State) (slot : Nat) (c : Cmd) : (s.setCmd slot c).out = s.out := rfl
@[simp] theorem State.setCmd_fresh (s : State) (slot : Nat) (c : Cmd) : (s.setCmd slot c).fresh = s.fresh := rfl

@[simp] theorem State.modCmd_pending (s : State) (slot : Nat) (f : Cmd → Cmd) : (s.modCmd slot f).pending = s.pending := rfl
@[simp] theorem State.modCmd_regs (s : State) (slot : Nat) (f : Cmd → Cmd) : (s.modCmd slot f).regs = s.regs := rfl
@[simp] theorem State.modCmd_tl (s : State) (slot : Nat) (f : Cmd → Cmd) : (s.modCmd slot f).tl = s.tl := rfl
@[simp] theorem State.modCmd_ck (s : State) (slot : Nat) (f : Cmd → Cmd) : (s.modCmd slot f).ck = s.ck := rfl
@[simp] theorem State.modCmd_ep (s : State) (slot : Nat) (f : Cmd → Cmd) : (s.modCmd slot f).ep = s.ep := rfl
@[simp] theorem State.modCmd_sqs (s : State) (slot : Nat) (f : Cmd → Cmd) : (s.modCmd slot f).sqs = s.sqs := rfl
@[simp] theorem State.modCmd_cqs (s : State) (slot : Nat) (f : Cmd → Cmd) : (s.modCmd slot f).cqs = s.cqs := rfl
@[simp] theorem State.modCmd_mrings (s : State) (slot : Nat) (f : Cmd → Cmd) : (s.modCmd slot f).mrings = s.mrings := rfl
@[simp] theorem State.modCmd_sched (s : State) (slot : Nat) (f : Cmd → Cmd) : (s.modCmd slot f).sched = s.sched := rfl
@[simp] theorem State.modCmd_boles (s : State) (slot : Nat) (f : Cmd → Cmd) : (s.modCmd slot f).boles = s.boles := rfl
@[simp] theorem State.modCmd_lands (s : State) (slot : Nat) (f : Cmd → Cmd) : (s.modCmd slot f).lands = s.lands := rfl
@[simp] theorem State.modCmd_remote (s : State) (slot : Nat) (f : Cmd → Cmd) : (s.modCmd slot f).remote = s.remote := rfl
@[simp] theorem State.modCmd_fills (s : State) (slot : Nat) (f : Cmd → Cmd) : (s.modCmd slot f).fills = s.fills := rfl
@[simp] theorem State.modCmd_lists (s : State) (slot : Nat) (f : Cmd → Cmd) : (s.modCmd slot f).lists = s.lists := rfl
@[simp] theorem State.modCmd_dicts (s : State) (slot : Nat) (f : Cmd → Cmd) : (s.modCmd slot f).dicts = s.dicts := rfl
@[simp] theorem State.modCmd_ctxs (s : State) (slot : Nat) (f : Cmd → Cmd) : (s.modCmd slot f).ctxs = s.ctxs := rfl
@[simp] theorem State.modCmd_dram (s : State) (slot : Nat) (f : Cmd → Cmd) : (s.modCmd slot f).dram = s.dram := rfl
@[simp] theorem State.modCmd_decks (s : State) (slot : Nat) (f : Cmd → Cmd) : (s.modCmd slot f).decks = s.decks := rfl
@[simp] theorem State.modCmd_engines (s : State) (slot : Nat) (f : Cmd → Cmd) : (s.modCmd slot f).engines = s.engines := rfl
@[simp] theorem State.modCmd_sky (s : State) (slot : Nat) (f : Cmd → Cmd) : (s.modCmd slot f).sky = s.sky := rfl
@[simp] theorem State.modCmd_pow (s : State) (slot : Nat) (f : Cmd → Cmd) : (s.modCmd slot f).pow = s.pow := rfl
@[simp] theorem State.modCmd_boot (s : State) (slot : Nat) (f : Cmd → Cmd) : (s.modCmd slot f).boot = s.boot := rfl
@[simp] theorem State.modCmd_sec (s : State) (slot : Nat) (f : Cmd → Cmd) : (s.modCmd slot f).sec = s.sec := rfl
@[simp] theorem State.modCmd_seeds (s : State) (slot : Nat) (f : Cmd → Cmd) : (s.modCmd slot f).seeds = s.seeds := rfl
@[simp] theorem State.modCmd_acct (s : State) (slot : Nat) (f : Cmd → Cmd) : (s.modCmd slot f).acct = s.acct := rfl
@[simp] theorem State.modCmd_logSeq (s : State) (slot : Nat) (f : Cmd → Cmd) : (s.modCmd slot f).logSeq = s.logSeq := rfl
@[simp] theorem State.modCmd_flashLog (s : State) (slot : Nat) (f : Cmd → Cmd) : (s.modCmd slot f).flashLog = s.flashLog := rfl
@[simp] theorem State.modCmd_out (s : State) (slot : Nat) (f : Cmd → Cmd) : (s.modCmd slot f).out = s.out := rfl
@[simp] theorem State.modCmd_fresh (s : State) (slot : Nat) (f : Cmd → Cmd) : (s.modCmd slot f).fresh = s.fresh := rfl

@[simp] theorem State.setDeck_pending (s : State) (d : Nat) (k : Deck) : (s.setDeck d k).pending = s.pending := rfl
@[simp] theorem State.setDeck_regs (s : State) (d : Nat) (k : Deck) : (s.setDeck d k).regs = s.regs := rfl
@[simp] theorem State.setDeck_tl (s : State) (d : Nat) (k : Deck) : (s.setDeck d k).tl = s.tl := rfl
@[simp] theorem State.setDeck_ck (s : State) (d : Nat) (k : Deck) : (s.setDeck d k).ck = s.ck := rfl
@[simp] theorem State.setDeck_ep (s : State) (d : Nat) (k : Deck) : (s.setDeck d k).ep = s.ep := rfl
@[simp] theorem State.setDeck_sqs (s : State) (d : Nat) (k : Deck) : (s.setDeck d k).sqs = s.sqs := rfl
@[simp] theorem State.setDeck_cqs (s : State) (d : Nat) (k : Deck) : (s.setDeck d k).cqs = s.cqs := rfl
@[simp] theorem State.setDeck_mrings (s : State) (d : Nat) (k : Deck) : (s.setDeck d k).mrings = s.mrings := rfl
@[simp] theorem State.setDeck_cmds (s : State) (d : Nat) (k : Deck) : (s.setDeck d k).cmds = s.cmds := rfl
@[simp] theorem State.setDeck_sched (s : State) (d : Nat) (k : Deck) : (s.setDeck d k).sched = s.sched := rfl
@[simp] theorem State.setDeck_boles (s : State) (d : Nat) (k : Deck) : (s.setDeck d k).boles = s.boles := rfl
@[simp] theorem State.setDeck_lands (s : State) (d : Nat) (k : Deck) : (s.setDeck d k).lands = s.lands := rfl
@[simp] theorem State.setDeck_remote (s : State) (d : Nat) (k : Deck) : (s.setDeck d k).remote = s.remote := rfl
@[simp] theorem State.setDeck_fills (s : State) (d : Nat) (k : Deck) : (s.setDeck d k).fills = s.fills := rfl
@[simp] theorem State.setDeck_lists (s : State) (d : Nat) (k : Deck) : (s.setDeck d k).lists = s.lists := rfl
@[simp] theorem State.setDeck_dicts (s : State) (d : Nat) (k : Deck) : (s.setDeck d k).dicts = s.dicts := rfl
@[simp] theorem State.setDeck_ctxs (s : State) (d : Nat) (k : Deck) : (s.setDeck d k).ctxs = s.ctxs := rfl
@[simp] theorem State.setDeck_dram (s : State) (d : Nat) (k : Deck) : (s.setDeck d k).dram = s.dram := rfl
@[simp] theorem State.setDeck_engines (s : State) (d : Nat) (k : Deck) : (s.setDeck d k).engines = s.engines := rfl
@[simp] theorem State.setDeck_sky (s : State) (d : Nat) (k : Deck) : (s.setDeck d k).sky = s.sky := rfl
@[simp] theorem State.setDeck_pow (s : State) (d : Nat) (k : Deck) : (s.setDeck d k).pow = s.pow := rfl
@[simp] theorem State.setDeck_boot (s : State) (d : Nat) (k : Deck) : (s.setDeck d k).boot = s.boot := rfl
@[simp] theorem State.setDeck_sec (s : State) (d : Nat) (k : Deck) : (s.setDeck d k).sec = s.sec := rfl
@[simp] theorem State.setDeck_seeds (s : State) (d : Nat) (k : Deck) : (s.setDeck d k).seeds = s.seeds := rfl
@[simp] theorem State.setDeck_acct (s : State) (d : Nat) (k : Deck) : (s.setDeck d k).acct = s.acct := rfl
@[simp] theorem State.setDeck_logSeq (s : State) (d : Nat) (k : Deck) : (s.setDeck d k).logSeq = s.logSeq := rfl
@[simp] theorem State.setDeck_flashLog (s : State) (d : Nat) (k : Deck) : (s.setDeck d k).flashLog = s.flashLog := rfl
@[simp] theorem State.setDeck_out (s : State) (d : Nat) (k : Deck) : (s.setDeck d k).out = s.out := rfl
@[simp] theorem State.setDeck_fresh (s : State) (d : Nat) (k : Deck) : (s.setDeck d k).fresh = s.fresh := rfl

@[simp] theorem State.setPort_pending (s : State) (n : Nat) (p : Port) : (s.setPort n p).pending = s.pending := rfl
@[simp] theorem State.setPort_regs (s : State) (n : Nat) (p : Port) : (s.setPort n p).regs = s.regs := rfl
@[simp] theorem State.setPort_tl (s : State) (n : Nat) (p : Port) : (s.setPort n p).tl = s.tl := rfl
@[simp] theorem State.setPort_ck (s : State) (n : Nat) (p : Port) : (s.setPort n p).ck = s.ck := rfl
@[simp] theorem State.setPort_ep (s : State) (n : Nat) (p : Port) : (s.setPort n p).ep = s.ep := rfl
@[simp] theorem State.setPort_sqs (s : State) (n : Nat) (p : Port) : (s.setPort n p).sqs = s.sqs := rfl
@[simp] theorem State.setPort_cqs (s : State) (n : Nat) (p : Port) : (s.setPort n p).cqs = s.cqs := rfl
@[simp] theorem State.setPort_mrings (s : State) (n : Nat) (p : Port) : (s.setPort n p).mrings = s.mrings := rfl
@[simp] theorem State.setPort_cmds (s : State) (n : Nat) (p : Port) : (s.setPort n p).cmds = s.cmds := rfl
@[simp] theorem State.setPort_sched (s : State) (n : Nat) (p : Port) : (s.setPort n p).sched = s.sched := rfl
@[simp] theorem State.setPort_boles (s : State) (n : Nat) (p : Port) : (s.setPort n p).boles = s.boles := rfl
@[simp] theorem State.setPort_lands (s : State) (n : Nat) (p : Port) : (s.setPort n p).lands = s.lands := rfl
@[simp] theorem State.setPort_remote (s : State) (n : Nat) (p : Port) : (s.setPort n p).remote = s.remote := rfl
@[simp] theorem State.setPort_fills (s : State) (n : Nat) (p : Port) : (s.setPort n p).fills = s.fills := rfl
@[simp] theorem State.setPort_lists (s : State) (n : Nat) (p : Port) : (s.setPort n p).lists = s.lists := rfl
@[simp] theorem State.setPort_dicts (s : State) (n : Nat) (p : Port) : (s.setPort n p).dicts = s.dicts := rfl
@[simp] theorem State.setPort_ctxs (s : State) (n : Nat) (p : Port) : (s.setPort n p).ctxs = s.ctxs := rfl
@[simp] theorem State.setPort_dram (s : State) (n : Nat) (p : Port) : (s.setPort n p).dram = s.dram := rfl
@[simp] theorem State.setPort_decks (s : State) (n : Nat) (p : Port) : (s.setPort n p).decks = s.decks := rfl
@[simp] theorem State.setPort_engines (s : State) (n : Nat) (p : Port) : (s.setPort n p).engines = s.engines := rfl
@[simp] theorem State.setPort_pow (s : State) (n : Nat) (p : Port) : (s.setPort n p).pow = s.pow := rfl
@[simp] theorem State.setPort_boot (s : State) (n : Nat) (p : Port) : (s.setPort n p).boot = s.boot := rfl
@[simp] theorem State.setPort_sec (s : State) (n : Nat) (p : Port) : (s.setPort n p).sec = s.sec := rfl
@[simp] theorem State.setPort_seeds (s : State) (n : Nat) (p : Port) : (s.setPort n p).seeds = s.seeds := rfl
@[simp] theorem State.setPort_acct (s : State) (n : Nat) (p : Port) : (s.setPort n p).acct = s.acct := rfl
@[simp] theorem State.setPort_logSeq (s : State) (n : Nat) (p : Port) : (s.setPort n p).logSeq = s.logSeq := rfl
@[simp] theorem State.setPort_flashLog (s : State) (n : Nat) (p : Port) : (s.setPort n p).flashLog = s.flashLog := rfl
@[simp] theorem State.setPort_out (s : State) (n : Nat) (p : Port) : (s.setPort n p).out = s.out := rfl
@[simp] theorem State.setPort_fresh (s : State) (n : Nat) (p : Port) : (s.setPort n p).fresh = s.fresh := rfl

end Sys2Proof.Machine
end

