-- ==== Sys2Proof/Laws/Ops.lean ====
section
/-! SUPPORT. What each shared operation can change: one lemma per operation, which says that the rest of the state is as it was. -/

namespace Sys2Proof.Machine

/-! ### Loops -/

/-- A value that no step of a loop changes is as it was before the loop. -/
theorem foldl_keeps {α β γ : Type} (g : α → γ) (f : α → β → α) (h : ∀ a b, g (f a b) = g a) (l : List β) (a : α) : g (l.foldl f a) = g a := by
  induction l generalizing a with
  | nil => rfl
  | cons b l ih => rw [List.foldl_cons, ih, h]

/-- A relation that holds between the ends of every step, that is reflexive and transitive, holds between the ends of a loop. -/
theorem foldl_rel {α β : Type} (R : α → α → Prop) (f : α → β → α) (refl : ∀ a, R a a) (trans : ∀ a b c, R a b → R b c → R a c)
    (h : ∀ a b, R a (f a b)) (l : List β) (a : α) : R a (l.foldl f a) := by
  induction l generalizing a with
  | nil => exact refl a
  | cons b l ih => exact trans _ _ _ (h a b) (ih _)

/-! ### Registers -/

/-- A write by access codes changes registers only. -/
theorem State.regWrite_frame (s : State) (o v : Nat) : s.regWrite o v = { s with regs := (s.regWrite o v).regs } := by
  unfold State.regWrite
  split <;> rfl

/-- Removing registers changes registers only. -/
theorem State.clearRegs_frame (s : State) (lo n : Nat) : s.clearRegs lo n = { s with regs := (s.clearRegs lo n).regs } := rfl

/-- A register outside a range that is cleared is as it was. -/
theorem State.reg_clearRegs_out (s : State) (lo n a : Nat) (h : a < lo ∨ lo + n ≤ a) : (s.clearRegs lo n).reg a = s.reg a := by
  have hk : tget (s.clearRegs lo n).regs a = tget s.regs a := by
    simp only [State.clearRegs]
    induction s.regs with
    | nil => rfl
    | cons e t ih =>
      by_cases he : (e.1 < lo || lo + n ≤ e.1) = true
      · rw [List.filter_cons_of_pos (by simpa using he)]
        simp only [tget]
        rw [ih]
      · rw [List.filter_cons_of_neg (by simpa using he)]
        have : e.1 ≠ a := by
          intro e'
          subst e'
          simp at he
          omega
        simp only [tget]
        rw [if_neg (by simpa using this), ih]
  simp only [State.reg, hk]

/-! ### Messages outward -/

/-- An event on a vector changes the endpoint and what is sent. -/
theorem State.raiseVec_frame (s : State) (fn vec : Nat) : s.raiseVec fn vec = { s with ep := (s.raiseVec fn vec).ep, out := (s.raiseVec fn vec).out } := by
  unfold State.raiseVec
  dsimp only
  split
  · rfl
  · split <;> rfl

/-- An event on a vector sends at most one message, and that after all others. -/
theorem State.raiseVec_out (s : State) (fn vec : Nat) :
    (s.raiseVec fn vec).out = s.out ∨ (s.raiseVec fn vec).out = s.out ++ [.msix fn vec (s.msixEnt fn vec).addr (s.msixEnt fn vec).data] := by
  unfold State.raiseVec
  dsimp only
  split
  · exact .inl rfl
  · split
    · exact .inl rfl
    · exact .inr rfl

/-- Sending what is pending changes the endpoint and what is sent. -/
theorem State.sendPending_frame (s : State) (fn vec : Nat) :
    s.sendPending fn vec = { s with ep := (s.sendPending fn vec).ep, out := (s.sendPending fn vec).out } := by
  unfold State.sendPending
  dsimp only
  split <;> rfl

/-- A host write changes the endpoint and what is sent. -/
theorem State.hostWrite_frame (s : State) (fn addr : Nat) (d : List Byte) :
    s.hostWrite fn addr d = { s with ep := (s.hostWrite fn addr d).ep, out := (s.hostWrite fn addr d).out } := by
  unfold State.hostWrite
  dsimp only
  split <;> rfl

/-- A report through AER changes registers and what is sent. -/
theorem State.aer_frame (s : State) (fn : Nat) (k : AerKind) : s.aer fn k = { s with regs := (s.aer fn k).regs, out := (s.aer fn k).out } := by
  cases k <;> rfl

/-- A CQ's vector changes the endpoint and what is sent. -/
theorem State.cqVector_frame (s : State) (c : Cmd) : s.cqVector c = { s with ep := (s.cqVector c).ep, out := (s.cqVector c).out } := by
  unfold State.cqVector
  split
  · exact s.raiseVec_frame _ _
  · rfl

/-! ### DRAM -/

/-- Only DRAM and registers differ. -/
def OnlyDram (s t : State) : Prop := t = { s with dram := t.dram, regs := t.regs }

/-- Nothing differs from itself. -/
theorem OnlyDram.refl (s : State) : OnlyDram s s := rfl

/-- Two changes of DRAM and registers are one. -/
theorem OnlyDram.trans {s t u : State} (h : OnlyDram s t) (k : OnlyDram t u) : OnlyDram s u := by
  unfold OnlyDram at *
  rw [k, h]

/-- A store into the data space changes DRAM, and the count of the poison list. -/
theorem State.dramPut_frame (s : State) (a : Nat) (d : List Byte) : OnlyDram s (s.dramPut a d) := by
  unfold State.dramPut
  refine OnlyDram.trans (foldl_rel OnlyDram _ OnlyDram.refl (fun _ _ _ => OnlyDram.trans) (fun s b => ?_) _ s) rfl
  dsimp only
  split <;> rfl

/-- Forgetting a range changes DRAM only. -/
theorem State.dramForget_frame (s : State) (lo hi : Nat) : s.dramForget lo hi = { s with dram := (s.dramForget lo hi).dram } := rfl

/-- A write that goes ahead changes DRAM, and the count of the poison list. -/
theorem State.dramWrite_frame (s t : State) (p a : Nat) (d : List Byte) (h : s.dramWrite p a d = some t) : OnlyDram s t := by
  unfold State.dramWrite at h
  split at h
  · cases h
    exact s.dramPut_frame a d
  · cases h

/-- A new entry of a poison list changes DRAM and its count. -/
theorem State.poisonAdd_frame (s : State) (sc p : Nat) : OnlyDram s (s.poisonAdd sc p).1 := by
  unfold State.poisonAdd
  dsimp only
  split
  · rfl
  · split <;> rfl

/-! ### Queue objects -/

/-- Only what a write of a queue object reaches differs: DRAM, registers, the endpoint, what is sent, and the refused writes that are due. -/
def OnlyQueue (s t : State) : Prop :=
  t = { s with dram := t.dram, regs := t.regs, ep := t.ep, out := t.out, sched := { s.sched with pfailDue := t.sched.pfailDue } }

/-- Nothing differs from itself. -/
theorem OnlyQueue.refl (s : State) : OnlyQueue s s := rfl

/-- Two such changes are one. -/
theorem OnlyQueue.trans {s t u : State} (h : OnlyQueue s t) (k : OnlyQueue t u) : OnlyQueue s u := by
  unfold OnlyQueue at *
  rw [k, h]

/-- A change of DRAM and registers is such a change. -/
theorem OnlyDram.queue {s t : State} (h : OnlyDram s t) : OnlyQueue s t := by
  unfold OnlyDram at h
  unfold OnlyQueue
  rw [h]

/-- A write of a queue object (R473, R605). -/
theorem State.queueWrite_frame (s : State) (p a : Nat) (host : Bool) (d : List Byte) : OnlyQueue s (s.queueWrite p a host d) := by
  unfold State.queueWrite
  split
  · have h := State.hostWrite_frame (s.acAdd p 0x48 d.length) p a d
    unfold OnlyQueue
    rw [h]
    rfl
  · split
    · rename_i h
      exact (s.dramWrite_frame _ _ _ _ h).queue
    · rfl

/-- A fold of queue writes. -/
theorem State.queueWrites_frame {β : Type} (f : State → β → State) (h : ∀ s b, OnlyQueue s (f s b)) (l : List β) (s : State) : OnlyQueue s (l.foldl f s) :=
  foldl_rel OnlyQueue f OnlyQueue.refl (fun _ _ _ => OnlyQueue.trans) h l s

/-! ### Reads of host memory, slots -/

/-- Reads that nothing waits for change the endpoint only. -/
theorem State.dropReads_frame (s : State) (g : HostUse → Bool) : s.dropReads g = { s with ep := (s.dropReads g).ep } := rfl

/-- A reset's abandoned reads change the endpoint only. -/
theorem State.abandonReads_frame (s : State) (p : Nat) : s.abandonReads p = { s with ep := (s.abandonReads p).ep } := rfl

/-- A slot that is freed holds no command. -/
theorem State.freeSlot_cmds (s : State) (slot : Nat) : (s.freeSlot slot).cmds = tdel s.cmds slot := rfl

/-- The command of another slot is as it was when a slot is freed. -/
theorem State.freeSlot_other (s : State) (slot k : Nat) (h : k ≠ slot) : tget (s.freeSlot slot).cmds k = tget s.cmds k := tget_tdel_ne _ _ _ h

/-- The command of another slot when one is changed. -/
theorem State.modCmd_other (s : State) (slot k : Nat) (f : Cmd → Cmd) (h : k ≠ slot) : tget (s.modCmd slot f).cmds k = tget s.cmds k := by
  simp only [State.modCmd, tmod]
  split
  · exact tget_tput_ne _ _ _ _ h
  · rfl

/-- A command that is put in a slot. -/
theorem State.setCmd_same (s : State) (slot : Nat) (c : Cmd) : tget (s.setCmd slot c).cmds slot = some c := tget_tput_same _ _ _

/-- The command of another slot. -/
theorem State.setCmd_other (s : State) (slot k : Nat) (c : Cmd) (h : k ≠ slot) : tget (s.setCmd slot c).cmds k = tget s.cmds k := tget_tput_ne _ _ _ _ h

/-- A bole that is put. -/
theorem State.bole_setBole_same (s : State) (p : Nat) (b : Bole) : (s.setBole p b).bole p = b := by
  simp [State.bole, State.setBole, tgetD, tget_tput_same]

/-- Another bole. -/
theorem State.bole_setBole_ne (s : State) (p q : Nat) (b : Bole) (h : q ≠ p) : (s.setBole p b).bole q = s.bole q := by
  simp [State.bole, State.setBole, tgetD, tget_tput_ne _ _ _ _ h]

end Sys2Proof.Machine
end

