-- ==== Sys2Proof/WellFormed.lean ====
section
/-! DEFINITION. Which commands are well formed: their operands are ones that their source can present. -/

namespace Sys2Proof

/-- Bytes of BAR4 or BAR0 (R420). -/
def barBytes (bar4 : Bool) : Nat := if bar4 then 2 ^ 23 else 2 ^ 26

/-- A list of numbers without repeats. -/
def distinct : List Nat → Bool
  | [] => true
  | a :: l => !l.contains a && distinct l

/-- Symbol errors of a burst: at most 39 symbols of 16 bits, each named once (R371). -/
def errPattern (e : List (Nat × Nat)) : Bool := e.all (fun x => decide (x.1 < 39) && decide (x.2 < 65536)) && distinct (e.map (·.1))

/-- The operands of a command are within what the spec lets its source present: a register write is aligned and inside its BAR (R28, R420), an access
has 1 to 4,096 bytes (R428), a link trains at a rate and width it has (R414), a vector lies in its function's table (R434), errors name symbols of a
burst (R371), a Skidway write carries at most 1 KiB (R485), a gate names a bank of its unit (R181), and so on. [DESIGN CHOICE, log entry 6] -/
def Instr.wf : Instr → Bool
  | .frameBoundary => true
  | .tlSwitchArm _ => true
  | .tlSwitchAtStamp => true
  | .tlSyncInFramePulse _ => true
  | .tlSyncInLinePulse => true
  | .frameSyncEdge _ => true
  | .tlHoldoverEntry => true
  | .ptmDialog _ _ => true
  | .ptmValidTimeout => true
  | .tlPtmMappingWrite _ _ => true
  | .skidwayFrameBlock _ _ _ => true
  | .tlAlarmLoWrite _ _ => true
  | .tlAlarmHiWrite _ _ => true
  | .tlAlarmFire _ => true
  | .ckSwitchArm _ => true
  | .ckSwitchAtStamp => true
  | .clockLoss _ => true
  | .fallbackClockLost => true
  | .ckClkoutWrite _ => true
  | .clockSourceReady _ => true
  | .sqFetch _ => true
  | .sqDoorbell _ _ _ => true
  | .cqDoorbell _ _ _ => true
  | .ringDoorbell _ _ _ => true
  | .scCtlEnable _ _ => true
  | .scCtlSqTailWrite _ _ => true
  | .scCtlCqHeadWrite _ _ => true
  | .scQselWrite _ _ => true
  | .commandEligible _ => true
  | .deadlinePass _ => true
  | .computeCommand _ => true
  | .sliceExpiry _ => true
  | .ptPreemptRequest _ => true
  | .groupSaveComplete _ => true
  | .groupRestoreComplete _ => true
  | .saveWindowWaitExpiry _ => true
  | .epochShadowWrite _ _ _ => true
  | .scEpochArm _ => true
  | .epochSwitchStamp => true
  | .unitEpochSwitch _ => true
  | .compartmentHandOver _ => true
  | .energyCalibration _ _ _ => true
  | .acQselWrite _ _ => true
  | .ptSeedHiWrite _ _ => true
  | .ptSeedInvalidate _ _ _ => true
  | .nop _ => true
  | .tallyInit _ => true
  | .div _ _ => true
  | .shareStart _ _ => true
  | .windowExpiry _ _ => true
  | .tallyTake _ _ _ => true
  | .instrBlockFetched _ _ => true
  | .cmdBudgetExceeded _ _ => true
  | .commit _ _ => true
  | .loop _ _ => true
  | .endl _ _ => true
  | .skip _ _ => true
  | .skipChangeMap _ _ => true
  | .scaleBind _ _ => true
  | .scaleUnbind _ _ => true
  | .winOpen _ _ => true
  | .winClose _ _ => true
  | .waitSemaphore _ _ => true
  | .waitWindow _ _ => true
  | .waitTokens _ _ => true
  | .sigLocal _ _ => true
  | .sigRemote _ _ => true
  | .statOpen _ _ => true
  | .statClose _ _ => true
  | .tallyRead _ _ => true
  | .tile _ _ _ => true
  | .tileCheckComplete _ _ => true
  | .diagnosisComplete _ _ => true
  | .blArrDiagStart _ _ => true
  | .boleScrubComplete _ _ => true
  | .mvDot _ _ _ _ => true
  | .mvAxpy _ _ _ _ => true
  | .vecArith _ _ _ => true
  | .vecConvert _ _ _ => true
  | .vecRequantize _ _ _ => true
  | .vecFloatRequantize _ _ _ => true
  | .vecBlockQuantize _ _ _ => true
  | .vecFunction _ _ _ => true
  | .vecReduce _ _ _ => true
  | .vecReduceStore _ _ _ => true
  | .vecDropout _ _ _ => true
  | .vecDraw _ _ _ => true
  | .fetch _ _ _ => true
  | .fetchBoom _ _ _ => true
  | .boomStagingLineFilled _ => true
  | .putStore _ _ _ => true
  | .putReduce _ _ _ => true
  | .unitInstructionComplete _ _ _ _ => true
  | .spadGateRequest landing _ n _ => !landing || decide (n.val < 4)
  | .bankGateEntry landing n k => !landing || (decide (n.val < 4) && decide (k.val < 16))
  | .bankUngateComplete landing n k => !landing || (decide (n.val < 4) && decide (k.val < 16))
  | .landingScrubComplete _ _ _ => true
  | .commandCommit _ _ => true
  | .deckInitComplete _ => true
  | .deckWaiterServed _ => true
  | .dkReturn _ _ => true
  | .dkReclaim _ _ => true
  | .dkMinFreeRearm _ _ => true
  | .deckRingRebuildComplete _ => true
  | .dramRead _ a _ e1 e2 => a % 64 == 0 && decide (a < 2 ^ 48) && errPattern e1 && errPattern e2
  | .dramWrite _ a data => decide (a < 2 ^ 48) && decide (1 ≤ data.length) && decide (a % 64 + data.length ≤ 64)
  | .bankRefresh _ _ _ => true
  | .dramTempReport _ _ => true
  | .retrainDue _ _ => true
  | .retrainStart _ => true
  | .retrainForced _ => true
  | .retrainComplete _ _ => true
  | .writeCrcError _ _ => true
  | .powerDownEntry _ _ => true
  | .selfRefreshEntry _ => true
  | .selfRefreshExit _ _ => true
  | .patrolScrubRead e1 e2 => errPattern e1 && errPattern e2
  | .pprRepair _ => true
  | .sendPhase _ => true
  | .remoteWrite _ => true
  | .helloReceived _ _ _ _ _ => true
  | .skidwayWriteReceived _ _ _ data => decide (1 ≤ data.length) && decide (data.length ≤ 1024)
  | .doneReceived _ _ _ _ _ _ _ _ => true
  | .lnakReceived _ _ => true
  | .lackReceived _ _ => true
  | .skidwayBadMessage _ => true
  | .lackTimer _ => true
  | .portSilenceTimeout _ => true
  | .portRetryTraining _ => true
  | .skidwayPortTrained _ _ => true
  | .swAckTimeout _ _ => true
  | .swRxwCtlWrite _ _ => true
  | .createSq _ => true
  | .deleteSq _ => true
  | .deleteSqComplete _ => true
  | .createCq _ => true
  | .deleteCq _ => true
  | .createRing _ => true
  | .deleteRing _ => true
  | .openContext _ => true
  | .closeContext _ => true
  | .writeContext _ => true
  | .readContext _ => true
  | .loadCutList _ => true
  | .unloadCutList _ => true
  | .loadDictionary _ => true
  | .unloadDictionary _ => true
  | .decodeAccessUnit _ => true
  | .decodeFlush _ order => distinct order
  | .pictureEngineStart _ _ => true
  | .segmentCheckpoint _ => true
  | .pictureBudgetExpiry _ => true
  | .pictureSetAside _ => true
  | .pictureComplete _ r => distinct r.outs && distinct r.leaves && distinct r.hidden && distinct r.marked
  | .encodePicture _ _ => true
  | .engineFault _ _ => true
  | .engineReload _ => true
  | .engineReloadComplete _ => true
  | .engineOfflineRequest _ _ => true
  | .batchCommand _ => true
  | .tokenize _ => true
  | .track _ => true
  | .roiCommand _ => true
  | .startupStageComplete n f => decide (1 ≤ n.val) && distinct (f.boles.map (·.val)) && distinct (f.engines.map (·.val)) && distinct (f.scrubs.map (·.val))
  | .startUp => true
  | .modReset => true
  | .glSeal _ => true
  | .glRestart _ _ => true
  | .preloadComplete _ => true
  | .linkTrained speed width _ => decide (1 ≤ speed.val) && (width.val == 1 || width.val == 2 || width.val == 4)
  | .aspmL1Entry => true
  | .apertureRead _ _ n => decide (1 ≤ n.val)
  | .apertureWrite _ _ data => decide (1 ≤ data.length) && decide (data.length ≤ 4096)
  | .functionLevelReset _ => true
  | .flrComplete _ => true
  | .numvfsWrite _ => true
  | .vfEnableClear => true
  | .linkDown => true
  | .perstAssert => true
  | .perstDeassert => true
  | .hostCompletion _ _ _ data => decide (data.length ≤ 4096)
  | .completionTimeout _ _ => true
  | .tagQuarantineEnd _ _ => true
  | .poisonedTlpReceived _ => true
  | .busMasterEnableChange _ _ => true
  | .msixUnmask fn vec => decide (fn.val = 0) || decide (vec.val < 64)
  | .powerStateWrite _ _ => true
  | .skidwayWake _ => true
  | .pldmSensorRead _ => true
  | .mctpControl _ _ => true
  | .msSlotOff => true
  | .pldmPowerOff => true
  | .pldmPowerOn => true
  | .attnButtonPress => true
  | .auxPowerOn => true
  | .auxPowerLoss => true
  | .presenceMated => true
  | .inputQualified => true
  | .presenceLost _ => true
  | .inputOvervoltage _ => true
  | .overvoltageRecovery => true
  | .overcurrentTrip cause _ => decide (2 ≤ cause.val)
  | .inputUndervoltage => true
  | .inputRecovered => true
  | .rideThroughExpiry _ => true
  | .holdupMeasure _ => true
  | .railPowerGood _ => true
  | .railFault _ _ => true
  | .pwLimitWrite _ => true
  | .pldmPowerLimitSet _ => true
  | .powerSample _ _ _ _ _ => true
  | .pwRailSelWrite _ _ _ => true
  | .thermalSample _ _ _ _ _ _ _ _ => true
  | .thermalComparatorTrip => true
  | .watchdogExpiry _ => true
  | .boleOutOfService _ => true
  | .serviceDrainComplete _ => true
  | .boleIntoService _ => true
  | .boleSelftestComplete _ _ => true
  | .rowRepairRequest => true
  | .ftRselWrite _ => true
  | .spdmRequest mctp => match mctp with | some b => decide (1 ≤ b.length) | none => true
  | .debugChallenge => true
  | .debugResponse => true
  | .debugChallengeTimeout => true
  | .ownerTransfer => true
  | .updateManifest => true
  | .updatePiece _ => true
  | .updateActivate _ => true
  | .updateAbort => true
  | .pldmFwUpdate r => match r with | .piece n _ => decide (n < 65536) | .activate (some n) => decide (n < 65536) | _ => true
  | .stewardHandover _ => true
  | .handoverHeartbeatTimeout => true
  | .upOnairWrite _ _ => true
  | .entropyHealthFail => true
  | .entropyHealthRecovered => true
  | .registerWrite _ bar4 off _ => off % 4 == 0 && decide (off < barBytes bar4)
  | .bar0Access _ bar4 _ off size _ => decide (1 ≤ size) && decide (size ≤ 4096) && decide (off + size ≤ barBytes bar4)
  | .configRequest _ _ _ _ _ => true

end Sys2Proof
end

