-- ==== Sys2Proof/Tests/Slice0.lean ====
section
/-! SUPPORT. Tests of the model, and for every statement with hypotheses a theorem that shows states and operands that meet the hypotheses of each of its
clauses. -/

namespace Sys2Proof.Tests

set_option Elab.async false

open Sys2Proof.Machine Sys2Proof.Safety

/-! ### Sample states -/

/-- The state of a dispatch that goes ahead. -/
def goneOf (d : State) : DispRes → State
  | .go u => u
  | _ => d

/-- A dispatch goes ahead. -/
def goes : DispRes → Bool
  | .go _ => true
  | _ => false

/-- A dispatch that goes ahead goes to its state. -/
theorem goneOf_eq (d : State) (r : DispRes) (h : goes r = true) : r = .go (goneOf d r) := by cases r <;> first | rfl | cases h

/-- What a computation that ends well gives. -/
def got {α : Type} (d : α) : Except Bad α → α
  | .ok a => a
  | .error _ => d

/-- It ends well. -/
def well {α : Type} : Except Bad α → Bool
  | .ok _ => true
  | .error _ => false

/-- A computation that ends well gives what it gives. -/
theorem got_eq {α : Type} (d : α) (r : Except Bad α) (h : well r = true) : r = .ok (got d r) := by cases r <;> first | rfl | cases h

/-- A computation that gives a value gives that value. -/
theorem got_is {α : Type} (d a : α) (r : Except Bad α) (h : well r = true) (e : got d r = a) : r = .ok a := by subst e; exact got_eq d r h

/-- A step answers a next state. -/
def went : Host.Outcome State Fault Refusal → Bool
  | .next _ => true
  | _ => false

/-- A step that answers a next state answers that one. -/
theorem nextOr_eq (d : State) (r : Host.Outcome State Fault Refusal) (h : went r = true) : r = .next (nextOr d r) := by
  cases r <;> first | rfl | cases h

/-- A value that is there is what it gives in place of another. -/
theorem some_getD {α : Type} (o : Option α) (d : α) (h : o.isSome = true) : o = some (o.getD d) := by cases o <;> first | rfl | cases h

/-- A value that is not there. -/
theorem is_none {α : Type} (o : Option α) (h : o.isNone = true) : o = none := by cases o <;> first | rfl | cases h

/-- A list of zero bytes is the number 0. -/
theorem leNat_zeros (n : Nat) : leNat (List.replicate n 0) = 0 := by
  induction n with
  | zero => rfl
  | succ n ih => show (0 : Byte).toNat + 256 * leNat (List.replicate n 0) = 0; rw [ih]; rfl

/-- A requantization record of zeros is valid for INT8. -/
theorem requant_zeros (f k n : Nat) (h : f = 0) : Requant.of f ((List.replicate n (0 : Byte)).drop k) = some ⟨0, 0, 0, false, 0, 0, 0⟩ := by
  subst h; simp only [Requant.of, field, List.drop_replicate, List.take_replicate, leNat_zeros]; rfl

/-- How a computation ends that does not end well. -/
def badOf {α : Type} : Except Bad α → Option Bad
  | .ok _ => none
  | .error b => some b

/-- It ends that way. -/
theorem bad_is {α : Type} (r : Except Bad α) (b : Bad) (h : badOf r = some b) : r = .error b := by
  cases r with
  | ok _ => cases h
  | error e => exact congrArg Except.error (Option.some.inj h)

/-- A check that passes. -/
theorem ok_unit (r : Except Bad Unit) (h : well r = true) : r = .ok () := got_is () () r h rfl

/-- A pair that is there, by its first part. -/
theorem some_is {α β : Type} (o : Option (α × β)) (d : α × β) (a : α) (h : o.isSome = true) (e : (o.getD d).1 = a) : o = some (a, (o.getD d).2) := by
  cases o with
  | none => cases h
  | some v => subst e; rfl

/-- A pair, by its first part. -/
theorem pair_eq {α β : Type} (x : α × β) (a : α) (h : x.1 = a) : x = (a, x.2) := by subst h; rfl

/-- The data of a read that ends well. -/
def readOf : MemRes (List Byte) → Option (List Byte)
  | .ok d => some d
  | _ => none

/-- It is what the read gives. -/
theorem read_eq (r : MemRes (List Byte)) (d : List Byte) (h : readOf r = some d) : r = .ok d := by
  cases r with
  | ok x => exact congrArg MemRes.ok (Option.some.inj h)
  | denied _ => cases h
  | bad _ => cases h

/-- A read that ends well gives its data. -/
theorem mem_ok (r : MemRes (List Byte)) (h : (readOf r).isSome = true) : r = .ok ((readOf r).getD []) :=
  read_eq r _ (by cases e : readOf r with | none => rw [e] at h; cases h | some v => rfl)
/-- The state right after reset. -/
def r0 : State := State.reset
/-- A field of reset set to a value. -/
def rw (f : Fld) (v : Nat) : State := r0.wr f v
/-- A fault for the log. -/
def flt : FaultInfo := { mkFault 0x0B07 .scheduler with cls := .partitionFatal }

/-- Reset with fields set. -/
def ws (l : List (Fld × Nat)) : State := l.foldl (fun s e => s.wr e.1 e.2) r0

/-- Queue memory in the host. -/
def plc : QPlace := ⟨0x10000, true, 0x20000, true⟩
/-- A submission queue of partition 1, of class BATCH, with one command due. -/
def sq1 : Sq := { part := 1, place := { plc with base := 0, baseHost := false }, log2 := 4, head := 6, tail := 7, cls := 2, drop := false, cq := 2, stopped := false, deleting := none, templated := false, fetching := false, plan := false, bad := [], outs := [], fetched := 0 }
/-- A completion queue of partition 1. -/
def cq1 : Cq := { part := 1, place := plc, log2 := 4, prod := 9, cons := 5, vector := 3, irqEn := true, reserved := 1, plan := false, written := 0 }
/-- A metadata ring of partition 1. -/
def ring1 : Ring := { part := 1, place := plc, log2 := 4, prod := 9, cons := 5, discard := false, faultEn := true, loadEn := false, vector := 4, irqEn := true, interval := 0, plan := false, dropped := 0 }
/-- A descriptor of partition 1: class compute, cut list 5, bole 0, no constraints. -/
def raw1 : List Byte := [1, 0, 5, 0x10] ++ List.replicate 12 0 ++ List.replicate 16 0xFF ++ List.replicate 96 0
/-- Its command, eligible. -/
def cmd1 : Cmd := { Cmd.ofDesc (Desc.ofBytes raw1) 3 5 1 with phase := .eligible }
/-- A bole-level cut list of partition 1 with one COMMIT. -/
def list1 : CutList := { part := 1, level := 0, usesRandom := false, budget := 1000, zeroMask := 0, outMask := 0, maxS := List.replicate 8 100, aConst := [], check := 0, code := [0x70], plan := false }
/-- A state that is ready, with queues, a list and boles 0 to 3 online. -/
def rdy : State := { ws [(F.glStatus_ready, 1), (F.glStatus_memReady, 1), (F.status_state.at (blBase 0), 1), (F.status_state.at (blBase 1), 1), (F.status_state.at (blBase 2), 1), (F.status_state.at (blBase 3), 1), (F.ptOwnLo_own.at (ptBase 1), 15), (F.ptQuota_inflight.at (ptBase 1), 8), (F.ptCtrl_enabled.at (ptBase 1), 1)] with
  sqs := [(3, sq1)], cqs := [(2, cq1)], lists := [(5, list1)] }
/-- The same with a command in slot 0. -/
def rdyC (c : Cmd) : State := { rdy with cmds := [(0, c)] }
/-- Function 1 can be reached. -/
def bar1 (s : State) : State :=
  let s := ((s.wr (F.cfgSriovCtl_vfEnable.cfg 0) 1).wr (F.cfgSriovNum_numVfs.cfg 0) 15).wr (F.cfgSriovCtl_vfMse.cfg 0) 1
  { s with ep := { s.ep with linkUp := true } }
/-- The descriptor stands in module DRAM where sq1's head points. -/
def rdyD : State := { rdy.setReg 0x50900 1 with dram := { r0.dram with mem := (raw1.zipIdx.map fun (b, i) => (768 + i, b)) } }
/-- The control queue pair of partition 1. -/
def ctl1 : State := { ws [(F.ctlCfg_en.at (ctlBase 1), 1)] with sqs := [(16385, sq1)], cqs := [(4097, cq1)] }

/-- Sample commands. -/
def cmdW : Cmd := { cmd1 with phase := .waiting }
/-- A running one on bole 0. -/
def cmdR : Cmd := { cmd1 with phase := .running, attempts := 1, first := 1, shares := [0] }
/-- An issue context of bole 0 that runs slot 0. -/
def ic : IssueCtx := { slot := 0, pc := 0, ireg := List.replicate 32 0, areg := List.replicate 16 0, sreg := List.replicate 8 100, loops := [], flight := [], sems := List.replicate 16 0, scales := List.replicate 4 none, tickets := none, fetchedTo := 64, blocked := false, reported := false, startAt := 0, ranNs := 5, gatedAt := 0, ranGated := 0, stopped := false, refreshed := false }
/-- A bole that holds it. -/
def boleI : Bole := { Bole.new with ctxs := [(0, ic)], spadLive := [1], accLive := [0] }
/-- The window of a command. -/
def win1 : Win := { base := 0, limit := 4096, src := 0, modMask := 0, modPart := 0, expiry := noStamp, wlim := 2, wcnt := 0, bytes := 0, state := 1, rejects := 0, part := 1, slot := 0, opener := 0, ids := [] }

/-- A cut list with a code. -/
def lst (ws : List Nat) : CutList := { list1 with code := ws }
/-- Context 0 of bole 0 runs a code. -/
def run (ws : List Nat) (c : IssueCtx) : State := { rdyC cmdR with lists := [(5, lst ws)], boles := [(0, { Bole.new with ctxs := [(0, c)] })] }
/-- The instruction it issues. -/
def isx (ws : List Nat) (c : IssueCtx) : Iss := ⟨0, 0, c, cmdR, lst ws, ws.getD c.pc 0⟩
/-- Bole 0 changed. -/
def onBole (s : State) (f : Bole → Bole) : State := s.setBole 0 (f (s.bole 0))
/-- DRAM holds bytes from an address on, in granules of partition 1. -/
def mem (s : State) (a : Nat) (d : List Byte) : State := { s.setReg 0x50900 1 with dram := { s.dram with mem := d.zipIdx.map fun (b, i) => (a + i, b) } }
/-- A change map of 2 by 2 blocks, of which the first has changed. -/
def map1 : List Byte := leBytes 4 7 ++ leBytes 12 0 ++ leBytes 2 2 ++ leBytes 2 2 ++ leBytes 2 2 ++ leBytes 42 0 ++ [5, 0, 0, 0] ++ leBytes 60 0
/-- A loop in progress. -/
def loop1 : LoopEnt := ⟨0, 3, 1, 64, 128⟩
/-- A quad command with a prologue. -/
def cmdQ : Cmd := { cmdR with desc := { cmdR.desc with target := 1 }, shares := [0, 1] }
/-- It runs in the first quad. -/
def quad (ws : List Nat) : State := { rdyC cmdQ with lists := [(5, { lst ws with level := 1 })] }
/-- A statistics slot of context 0. -/
def st1 : StatSlot := ⟨0, 0, 9, 3, 5, 1, 2, 0, false⟩
/-- A command whose output 0 is the append tensor at 0. -/
def cmdS : Cmd := { cmdR with desc := { cmdR.desc with args := [3 * 2 ^ 50 + 64, 0, 0, 0, 0, 0, 0, 0] } }
/-- It runs. -/
def statS (ws : List Nat) : State := { run ws ic with cmds := [(0, cmdS)], lists := [(5, { lst ws with outMask := 1 })] }

/-- Partition 1 owns the first two groups of tally counters of grove 0; counter 3 holds `v`. -/
def tal (v : Nat) (s : State) : State := ((s.wr (F.tallyOwned_mask.at (cgBase 0)) 3).setReg (cgBase 0 + 0x1110) 0x11).setLand 0 { Landing.new with tally := [(3, (v, none))] }
/-- Tickets of a share. -/
def tk1 : TicketSrc := ⟨true, 10, 2, 4, 1, 16, 3⟩
/-- The scratchpad of bole 0 holds bytes from 0 on. -/
def spad (s : State) (d : List Byte) : State := s.setBole 0 { s.bole 0 with spad := mwrite 0 [] 0 d }
/-- A context whose A1 is address 0 of the scratchpad. -/
def icS : IssueCtx := { ic with areg := setAt ic.areg 1 (BitVec.ofNat 64 (2 * 2 ^ 48)) }
/-- The record of a window over the second KiB of the scratchpad. -/
def winRec : List Byte := leBytes 4 1024 ++ leBytes 4 2048 ++ leBytes 8 1 ++ leBytes 4 0 ++ leBytes 8 noStamp ++ leBytes 4 2
/-- A write of bole 0 at window 3 of itself. -/
def rw1 : RemoteW := { src := 0, part := 1, slot := 0, p := 0, ctx := 0, dst := 0, win := 3, off := 8, data := leBytes 8 5, stage := none, stamp := 0, tag := 0 }
/-- Its window. -/
def win2 : Win := { win1 with src := 1 }
/-- Bole 0 with window 3. -/
def winS (v : Win) : State := rdy.setBole 0 { Bole.new with wins := [(3, v)] }
/-- A command that waits to start on bole 0. -/
def cmdU : Cmd := { cmdR with unstarted := [0] }
/-- A command that is due to commit. -/
def cmdK : Cmd := { cmdR with reported := [0], desc := { cmdR.desc with args := [], deadline := noStamp } }
/-- Its state, with function 1 awake. -/
def comS (c : Cmd) : State := { rdyC c with regs := ((rdyC c).wr (F.cfgCmd_busMaster.cfg 1) 1).regs, cqs := [(2, { cq1 with irqEn := false })] }

/-- A context for tiles: A1 is the scratchpad from 0, A2 from 4096, S0 is 1. -/
def icT : IssueCtx := { ic with areg := setAt (setAt ic.areg 1 (BitVec.ofNat 64 (2 * 2 ^ 48))) 2 (BitVec.ofNat 64 (2 * 2 ^ 48 + 4096)), sreg := List.replicate 8 1 }
/-- It has a scale tensor in slot 0. -/
def icB : IssueCtx := { icT with scales := [some ⟨false, 2, 8192, 1, 0⟩, none, none, none] }
/-- A tile whose checks are due. -/
def job1 : TileJob := { slot := 0, ctx := 0, bank := 0, shape := 0, bw := 0, acc := false, mv := 1, nv := 1, k := 1, flt := false, sums := [], checks := [] }
/-- A bole with it. -/
def boleJ : Bole := { Bole.new with tiles := [job1], accBanks := [(0, ⟨0, 0, 0, false, false⟩), (8, ⟨0, 0, 0, false, false⟩)] }

/-- A context for VEC and MV: A1, A2, A3 and A15 point into the scratchpad. -/
def icV : IssueCtx := { ic with areg := [0, BitVec.ofNat 64 (2 * 2 ^ 48), BitVec.ofNat 64 (2 * 2 ^ 48 + 4096), BitVec.ofNat 64 (2 * 2 ^ 48 + 8192), 0, 0, 0, 0, 0, 0, 0, 0, 0, 0, 0, BitVec.ofNat 64 (2 * 2 ^ 48 + 16384)] }
/-- A context with an earlier DMA instruction that waits in its queue. -/
def heldBy (c : IssueCtx) (u : ExUnit) (w : Nat) : IssueCtx := { c with flight := [⟨u, some 3, true, some (c.regs w), []⟩] }
/-- An element-index record of rows of 128. -/
def rec1 : List Byte := leBytes 4 9 ++ leBytes 6 0 ++ leBytes 2 128 ++ leBytes 4 128

/-- A boom line that waits for a staging line. -/
def fill1 : BoomFill := ⟨0, 0, 0, 0, [1, 2], 3, 0, List.replicate 8 5⟩
/-- Partition 1 owns segment 0 of the first Landing slice. -/
def segs (s : State) : State := (s.wr (F.lndOwned_mask.at (cgBase 0)) 1).setReg (cgBase 0 + 0x1100) 1
/-- A context that reads the Landing through A0. -/
def icL : IssueCtx := { icV with areg := setAt icV.areg 0 (BitVec.ofNat 64 (2 ^ 48)) }
/-- The header of an append tensor at 64, and data. -/
def tens : List Byte := leBytes 72 0 ++ leBytes 8 4096 ++ leBytes 48 0
/-- A command that stores to it from a cut list with one output. -/
def put1 (ws : List Nat) : State := mem { run ws icV with cmds := [(0, cmdS)], lists := [(5, { lst ws with outMask := 1 })] } 0 tens
/-- Its instruction. -/
def isP (ws : List Nat) : Iss := { isx ws icV with cmd := cmdS, code := { lst ws with outMask := 1 } }
/-- Deck 0 with three free buffers of 256 bytes at 4096. -/
def deckS (s : State) : State := { ((((s.wr (F.dkCfg_en.at (dkBase 0)) 1).wr (F.dkCount_count.at (dkBase 0)) 3).wr (F.dkBaseLo_base.at (dkBase 0)) 4096).wr (F.dkStat_ready.at (dkBase 0)) 1).wr (F.dkQuota_quota.at (0x42000 + 4)) 2 with decks := [(0, { Deck.new with ring := [(0, 3)] })] }
/-- The result of taking staging buffers. -/
def stageOf (d : State) : StageRes → List BufRef × State
  | .got l s => (l, s)
  | _ => ([], d)
/-- Staging buffers were taken. -/
def staged : StageRes → Bool
  | .got _ _ => true
  | _ => false
/-- They are the ones taken. -/
theorem staged_eq (d : State) (r : StageRes) (l : List BufRef) (h : staged r = true) (e : (stageOf d r).1 = l) : r = .got l (stageOf d r).2 := by
  cases r <;> first | (subst e; rfl) | cases h
/-- What a read of compressed data gives. -/
def zcOf : ZcRes → Option (List Byte × Nat)
  | .ok d n => some (d, n)
  | _ => none
/-- It gives that. -/
theorem zcOf_eq (r : ZcRes) (d : List Byte) (n : Nat) (h : zcOf r = some (d, n)) : r = .ok d n := by
  cases r <;> first | (cases h; rfl) | cases h

/-- Deck 0 of deckS with its first buffer allocated to partition 1. -/
def deckA (h : List Holder) : State := { deckS r0 with decks := [(0, { Deck.new with ring := [(1, 2)], owners := [(0, ⟨1, 2, 0, h⟩)] })] }
/-- A waiter. -/
def wtr : Waiter := ⟨0, false, noStamp, false, 4⟩

/-- Subchannel `sc` is ready, and partition 1 has the first granule. -/
def drm (sc : Nat) : State := ((ws [(F.drGStat_memReady, 1)]).setScState sc 2).setReg 0x50900 1
/-- A subchannel's record changed. -/
def onSub (s : State) (sc : Nat) (f : SubCh → SubCh) : State := s.setSubch sc (f (s.subch sc))
/-- A bank with row 5 open. -/
def bank5 : PageBank := ⟨1, false, some 5, 5⟩

/-- Port 0 of module 0 of two: its state `st` and its record. -/
def sky (st : Nat) (p : Port) : State :=
  { ((((ws [(F.swCfg_en, 1), (F.swCfg_count, 1)]).wr (F.swPortStat_state.at (swBase 0)) st).wr (F.swPortStat_peer.at (swBase 0)) 1).wr (credFld 0 0) 3).setReg F.swRoute_p0.off 4 with
    sky := { ports := [(0, p)], xfers := [], rxIds := [] } }
/-- A port that has trained; the next message it expects is 7. -/
def prt : Port := { Port.new with linked := true, rxSeq := 7, txSeq := 4 }
/-- A message that is not acknowledged. -/
def kept1 : SkyKept := ⟨3, 0, List.replicate 24 0⟩
/-- A transfer without a DONE. -/
def xf1 : Xfer := ⟨0, 5, 2, 1, 0, 0, [], 0⟩
/-- The second transfer of command 0 waits for its DONE. -/
def skyX : State := { sky 2 prt with cmds := [(0, cmdR)], sky := { ports := [(0, prt)], xfers := [(5, xf1)], rxIds := [] } }
/-- A command that has 8 bytes to send from DRAM address 0. -/
def cmdT : Cmd := { cmdK with stored := [(0, 8)] }
/-- Its state: address 0 lies in send window 0, which goes to module 1. -/
def sendS : State := mem { ((((sky 2 prt).wr (F.txwCtl_en.at 0x81000) 1).wr (F.txwCtl_partition.at 0x81000) 1).wr (F.txwCtl_dst.at 0x81000) 1).wr (F.txwLimitLo_limit.at 0x81000) 4096 with
  cmds := [(0, cmdT)] } 0 (leBytes 8 5)
/-- A write of module 1. -/
def sw1 : SkyWrite := ⟨1, 0, 0, 1, 0, 0, 3, 8, 9, 2⟩
/-- DRAM window 3 is open for module 1 and partition 1. -/
def rxS : State := (((((sky 2 prt).wr (F.rxwCtl_en.at (rxwBase 3)) 1).wr (F.rxwCtl_modMask.at (rxwBase 3)) 2).wr (F.rxwCtl_partition.at (rxwBase 3)) 1).wr (F.rxwLimitLo_limit.at (rxwBase 3)) 16).wr (F.rxwStat_state.at (rxwBase 3)) 1 |>.setReg 0x50900 1
/-- What is left of a link's message. -/
def linkOf (s : State) (l : Link) : State := (s.linkIn 0 l).getD r0
/-- The answer of a window and the state after it. -/
def dlv (s : State) (r : RemoteW) (t : Nat) : WriteRes × State := State.deliver { s with remote := s.remote.eraseIdx 0 } r t

/-- A control command of operation `op`. -/
def cmdO (op : Nat) (shapes args : List Nat) : Cmd := { cmd1 with phase := .waiting, desc := { cmd1.desc with cls := 0, op := op, shapes := shapes, args := args } }
/-- Its state; partition 1 has the first granule of DRAM, and two contexts. -/
def ctlS (c : Cmd) (d : List Byte) : State := mem { rdyC c with regs := ((rdyC c).wr (F.ptQuota_contexts.at (ptBase 1)) 4).regs, mrings := [(2, ring1)] } 0 d
/-- A command whose deadline is the first stamp. -/
def cmdLt : Cmd := { cmdR with desc := { cmdR.desc with deadline := 0 } }
/-- A session context and a decode context of partition 1. -/
def ctx4 : Ctx := Ctx.new 4 1 (List.replicate 16 0)
/-- A decode context. -/
def ctx0 : Ctx := Ctx.new 0 1 (List.replicate 64 0)
/-- A running control command's state. -/
def ctlR (s : State) (c : Cmd) : State := s.setCmd 0 { c with phase := .running }
/-- A binary with one COMMIT: header to byte 32, shapes, constants, code. -/
def bin1 : List Byte := [67, 85, 84, 76, 1, 0, 0, 0, 1, 0, 0, 0, 0, 0, 0, 0, 232, 3, 0, 0, 0, 0, 0, 0, 0, 0, 0, 0, 215, 67, 85, 167] ++ (List.replicate 8 (leBytes 4 100)).flatten ++ List.replicate 128 0 ++ leBytes 16 0x70
/-- A dictionary with one entry. -/
def dict1 : List Byte := [84, 75, 68, 84, 1, 0, 1, 0, 1, 0, 0, 0, 0, 0, 0, 0, 0, 0, 0, 0, 0, 0, 0, 0, 1, 0, 0, 0, 181, 96, 98, 103] ++ List.replicate 36 0 ++ [1, 0, 0, 0, 7] ++ List.replicate 7 0 ++ [97]
/-- A value that a computation gives. -/
def valOf {ε α : Type} : Except ε α → Option α
  | .ok a => some a
  | .error _ => none
/-- It gives that value. -/
theorem ok_of {ε α : Type} (r : Except ε α) (d : α) (h : valOf r = some d) : r = .ok d := by
  cases r with
  | ok x => exact congrArg Except.ok (Option.some.inj h)
  | error _ => cases h
/-- An error that a computation gives. -/
def errOf {ε α : Type} : Except ε α → Option ε
  | .ok _ => none
  | .error e => some e
/-- It gives that error. -/
theorem err_of {ε α : Type} (r : Except ε α) (d : ε) (h : errOf r = some d) : r = .error d := by
  cases r with
  | ok _ => cases h
  | error x => exact congrArg Except.error (Option.some.inj h)
/-- Data that a command reads. -/
def gotOf : Got → Option (List Byte)
  | .data b => some b
  | _ => none
/-- It reads that data. -/
theorem data_of (r : Got) (d : List Byte) (h : gotOf r = some d) : r = .data d := by
  cases r with
  | data x => exact congrArg Got.data (Option.some.inj h)
  | wait _ => cases h
  | fail _ _ => cases h

/-- A command of class `cls` in slot 0. -/
def cmdM (cls op : Nat) (ph : Phase) (shapes args : List Nat) : Cmd := { cmd1 with phase := ph, desc := { cmd1.desc with cls := cls, op := op, shapes := shapes, args := args, ctx := 6, ctxValid := true } }
/-- The parameter record of a decode context: pictures of up to 64 by 64, 8 bits, 4:2:0, four of them. -/
def dec1 : List Byte := [0, 0, 8, 1, 64, 0, 64, 0, 0, 0, 4] ++ List.replicate 53 0
/-- A decode context. -/
def ctxD : Ctx := Ctx.new 0 1 dec1
/-- The headers of a picture of 64 by 64. -/
def hd1 : PicHead := ⟨true, 64, 64, false, 1, true, true, []⟩
/-- A picture at work. -/
def jobP : Job := ⟨0, 6, false, false, false, hd1, 5⟩
/-- An engine online. -/
def eng1 : Engine := { Engine.new with mode := 1 }
/-- The state of a media command, with its context and engines. -/
def medS (c : Cmd) (x : Ctx) (es : Tab Engine) : State := { deckS (rdyC c) with ctxs := [(6, x)], engines := es }
/-- What a picture end says. -/
def pe1 : PicEnd := ⟨4096, 0, 0, false, false, false, none, [], [], [], [0], [], 0⟩
/-- An encode context: pictures of up to 64 by 64, one reference, motion seen. -/
def ctxE : Ctx := { Ctx.new 1 1 ([1, 0, 64, 0, 64, 0] ++ List.replicate 16 0 ++ [1, 1, 0, 0, 0] ++ List.replicate 5 0) with motion := true }
/-- The descriptor of a frame of 2 by 2. -/
def frmE : List Byte := leBytes 8 640 ++ leBytes 4 4 ++ leBytes 2 2 ++ leBytes 2 2 ++ leBytes 2 2 ++ List.replicate 46 0
/-- Buffers taken. -/
def freshOf (d : State) : FreshRes → List (Nat × BufRef) × State
  | .got l s => (l, s)
  | _ => ([], d)
/-- Buffers were taken. -/
def freshly : FreshRes → Bool
  | .got _ _ => true
  | _ => false
/-- They are those taken. -/
theorem fresh_eq (d : State) (r : FreshRes) (h : freshly r = true) : r = .got (freshOf d r).1 (freshOf d r).2 := by
  cases r <;> first | rfl | cases h
/-- A state that a computation gives. -/
def stOf {ε : Type} (d : State) : Except ε State → State
  | .ok s => s
  | .error _ => d
/-- It gives one. -/
def isOk {ε α : Type} : Except ε α → Bool
  | .ok _ => true
  | .error _ => false
/-- It gives that state. -/
theorem st_eq {ε : Type} (d : State) (r : Except ε State) (h : isOk r = true) : r = .ok (stOf d r) := by
  cases r <;> first | rfl | cases h
/-- Bytes read. -/
def memOf : MemRes (List Byte) → List Byte
  | .ok b => b
  | _ => []
/-- Bytes were read. -/
def isMem : MemRes (List Byte) → Bool
  | .ok _ => true
  | _ => false
/-- They are those bytes. -/
theorem mem_eq (r : MemRes (List Byte)) (h : isMem r = true) : r = .ok (memOf r) := by cases r <;> first | rfl | cases h
/-- The samples of a batch. -/
def smpOf : Sample → List (List Byte) × Nat
  | .data l n => (l, n)
  | _ => ([], 0)
/-- There are samples. -/
def isSmp : Sample → Bool
  | .data _ _ => true
  | _ => false
/-- They are those samples. -/
theorem smp_eq (r : Sample) (h : isSmp r = true) : r = .data (smpOf r).1 (smpOf r).2 := by cases r <;> first | rfl | cases h
/-- An encode command at work. -/
def cmdE : Cmd := { cmdM 3 0 .running [] [0] with frameBuf := some ⟨0, 0⟩, mapBuf := some ⟨0, 1⟩, src := frmE }
/-- Its state. -/
def stE : State := (medS cmdE ctxE [(4, { eng1 with job := some jobP })]).setReg 0x50900 1
/-- Its frame. -/
def fE : Frame := Frame.ofBytes frmE
/-- The samples that it reads. -/
def srcE : List Byte := memOf (stE.frameRead 1 fE)
/-- The frame is read. -/
theorem srcE_read : stE.frameRead 1 fE = .ok srcE := mem_eq _ (by decide +kernel)
/-- Its microcode. -/
def ucE : Word := BitVec.ofNat 32 (stE.rd (F.engVer_ver.at (engBase 4)))
/-- Its bitstream. -/
def outE : List Byte := Config.encBytes ctxE.params ctxE.encHist srcE 0 ucE
/-- The state in which the bitstream is stored. -/
def stE0 : State := (stE.dramWrite 1 (stE.bufAddr ⟨0, 1⟩) outE).getD stE
/-- The reconstruction. -/
def rfE : Frame := ⟨stE0.bufAddr ⟨0, 0⟩, stE0.bufSize 0, fE.w, fE.h, (frameLayout fE.w fE.h fE.wide 1).1, (frameLayout fE.w fE.h fE.wide 1).2.1, (frameLayout fE.w fE.h fE.wide 1).2.2.1, 1, fE.wide⟩
/-- The state in which it is stored. -/
def stE1 : State := State.engineDone (State.addWork (State.keepBuf (State.publishBuf (stE0.writeFrame 1 rfE 0 fE.h fun plane y k => Config.encSample ctxE.params ctxE.encHist srcE 0 ucE (plane, y, k)) ⟨0, 1⟩ 0 [.host]) ⟨0, 0⟩ 0 6)
  0 (fE.w * fE.h) 0 (outE.length + fE.w * fE.h) (fE.w * fE.h)) 4 (fE.w * fE.h) 1
/-- The box of a region. -/
def box4 : List Byte := (leBytes 8 0 ++ leBytes 4 131072 ++ leBytes 4 131072 ++ List.replicate 48 0)
/-- The frame it is taken from. -/
def frm4 : List Byte := (leBytes 8 640 ++ leBytes 4 4 ++ leBytes 2 2 ++ leBytes 2 2 ++ leBytes 2 2 ++ List.replicate 46 0)
/-- A command for one region of a frame. -/
def cmd4 : Cmd := { cmdM 5 0 .running [1, 1, 1, 1] [0, 0, 64] with fresh := [(1, ⟨0, 0⟩)] }
/-- Its state. -/
def st4 : State := mem (deckS (rdyC cmd4)) 0 (box4 ++ frm4 ++ List.replicate 512 0 ++ [1, 2, 3, 4])
/-- The box of it. -/
def theBox : Box := ({ x0 := 0, y0 := 0, x1 := 131072, y1 := 131072, frame := 0 } : Box)
/-- Data that is read is that data. -/
theorem data_get (r : Got) (h : (gotOf r).isSome = true) : r = .data ((gotOf r).getD []) := by
  cases r <;> first | rfl | cases h
/-- The table of frames as the command reads it. -/
def tb4 : List Byte := (gotOf (st4.inData 0 cmd4 1 (cmd4.desc.arg 2) 512)).getD []
/-- What the region gives. -/
def roi4 : List Byte := State.roiBytes st4 [(theBox, Frame.ofBytes frm4)] [0] 1 1 1
/-- The batch descriptor of one sample. -/
def bd7 : List Byte := ([1, 0, 8, 0, 1, 0, 1, 0] ++ leBytes 6 64 ++ [1, 0] ++ List.replicate 48 0)
/-- Its sample descriptor. -/
def sd7 : List Byte := ([2] ++ List.replicate 7 0 ++ leBytes 6 128 ++ List.replicate 50 0)
/-- A command for a batch. -/
def cmd7 : Cmd := { cmdM 4 0 .running [] [0, 0, 0, 0, 0, 0, 0, 0] with fresh := [(0, ⟨0, 0⟩), (6, ⟨0, 1⟩)] }
/-- Its state. -/
def st7 : State := mem ((deckS (rdyC cmd7)).wr (F.dkCfg_sizeLog2.at (dkBase 0)) 13) 0 (bd7 ++ sd7 ++ [7, 8, 9])
/-- The sample. -/
def sm7 : Sample := State.batchSample st7 0 cmd7 (Batch.of bd7) 0 (sd7.take 64)
/-- What the sample gives. -/
def ls7 : List (List Byte) := (smpOf sm7).1
/-- The state after the sample is put. -/
def t17 : State := stOf r0 (State.freshOut st7 0 0 (ls7.getD 0 []))

/-- Endpoint fields over the state after reset, with the link up. -/
def ws15 (l : List (Fld × Nat)) : State := { ws ([(F.cfgCmd_memSpace.cfg 0, 1), (F.glStatus_memReady, 1)] ++ l) with ep := { r0.ep with linkUp := true, cfgReady := true, perst := false } }
/-- With partition 0 in the first granule of DRAM. -/
def epS : State := { (ws15 []).setReg 0x50900 0 with dram := { r0.dram with mem := [(3, 9)] } }
/-- With a tag of function 1. -/
def tagS (t : Tag) : State := { ws15 [] with ep := { (ws15 []).ep with tags := [(1024 + 7, t)] } }
/-- With a message pending on vector 3 of function 0. -/
def pendS : State := { ws15 [(F.cfgMsix_enable.cfg 0, 1), (F.cfgCmd_busMaster.cfg 0, 1)] with ep := { (ws15 []).ep with msix := [(3, ⟨0x1000, 77, true, true⟩)] } }
/-- A command that waits for eight bytes of the host. -/
def cmdH : Cmd := { cmd1 with phase := .eligible, hostBufs := [(0, { addr := 0x8000, len := 8, got := [], missing := 8, code := 0 })] }
/-- Its state. -/
def cmdHS (q : Bool) : State := { rdyC cmdH with ep := { (ws15 []).ep with tags := [(1024 + 7, { len := 4, use := .cmdData 0 0 4, quarantined := q, at' := 0, hold := 0 })] } }
/-- Some frames later. -/
def laterS (s : State) : State := { s with tl := { s.tl with now := mkStamp 9 0 0 } }
/-- Virtual functions enabled. -/
def vfS : State := { rdyC cmd1 with regs := ((rdyC cmd1).wr (F.cfgSriovCtl_vfEnable.cfg 0) 1 |>.wr (F.cfgSriovNum_numVfs.cfg 0) 3).regs, ep := { (ws15 []).ep with flr := [1] } }

/-- The state of a start-up stage, with the rails up. -/
def stg (n : Nat) (tested : Bool) : State := { r0 with pow := { r0.pow with railsOn := [0, 1, 2, 3, 4, 5, 6] }, boot := { r0.boot with stage := n, tested := tested } }
/-- What a stage observes: all well, and bole 16 failed. -/
def obs : StageFacts := ⟨true, true, 3, [16], [], [], [], true, true, 900⟩
/-- A bank of an older security version does not pass. -/
theorem bank_old (b : Bank) (v : Nat) (h : b.svn < v) : b.passes v = false := by simp [Bank.passes, h]
/-- A preload of partition 1. -/
def pre1 : Preload := ⟨List.replicate 48 1, 0, 8, 1, 0⟩

/-- A powered module that is ready, with a command. -/
def pwS : State := { ws [(F.msHs_pres, 1), (F.msHs_state, 3), (F.glStatus_ready, 1), (F.glStatus_memReady, 1)] with pow := { r0.pow with auxOn := true, switchOn := true, wanted := true, railsOn := [0, 1, 2, 3, 4, 5, 6] }, boot := { r0.boot with stage := 13 }, cmds := [(0, cmd1)] }
/-- Its input switch open. -/
def pwOff : State := { ws [(F.msHs_pres, 1), (F.msHs_state, 1)] with pow := { r0.pow with auxOn := true, switchOn := false, wanted := true } }
/-- Paused for an undervoltage. -/
def pwP : State := { pwS with pow := { pwS.pow with paused := true } }
/-- No supply. -/
def pwN : State := { r0 with pow := { r0.pow with auxOn := false, switchOn := false } }

/-- A bole with service work. -/
def svc (p : Nat) (f : Bole → Bole) : State := rdy.setBole p (f (rdy.bole p))
/-- Bole 0 drains, with the spare of its group good. -/
def drn : State := { svc 0 fun b => { b with draining := true } with regs := (rdy.wr (F.spare_spareOk.at (cgBase 0)) 1).regs }
/-- The spare of group 0 serves bole 5 and drains. -/
def drnS : State := { svc 16 fun b => { b with draining := true } with regs := ((rdy.wr (F.spare_active.at (cgBase 0)) 1).wr (F.spare_slot.at (cgBase 0)) 5).regs }

/-- A module in operation with a request of one byte in its mailbox and an owner. -/
def mbS (b n : Nat) : State := { ws [(F.seMbCtrl_len, n), (F.seMbBuf_data.at 0, b), (F.seStat_entropyOk, 1), (F.cfgCmd_busMaster.cfg 0, 1)] with boot := { r0.boot with stage := 13 }, sec := { r0.sec with owner := some (List.replicate 48 7) }, pow := { r0.pow with auxOn := true } }
/-- The manifest of a steward image of ten bytes. -/
def man1 : List Byte := [0x4D, 0x46, 0x4E, 0x54, 1, 0, 1, 0] ++ leBytes 8 4 ++ leBytes 8 10 ++ leBytes 4 1 ++ List.replicate 532 0
/-- A collection of it, with the pieces held, where the supply allows an update. -/
def colS (h : List Nat) : State := { ws [(F.pwStat_holdupOk, 1), (F.pwStat_inputStable, 1)] with boot := { r0.boot with stage := 13 }, pow := { r0.pow with auxOn := true }, sec := { r0.sec with manifest := man1, held := h } }
/-- An operation of the update engine that has its data. -/
def opS (op n : Nat) : State := { ws [(F.upStat_busy, 1), (F.upLen_len, 4)] with sec := { r0.sec with updOp := op, updPiece := n, updBuf := [(0, 5)] } }




theorem wit_StepRunsFrontCommand :
    (∃ c : Instr, ∃ rest : List Instr, ∃ s : State, s.pending = c :: rest) ∧
    (∃ s : State, s.pending = []) :=
  ⟨⟨.startUp, [.modReset], { r0 with pending := [.startUp, .modReset] }, by decide +kernel⟩,
   ⟨r0, by decide +kernel⟩⟩

theorem wit_RegisterLaws :
    (∃ f : Fld, f.lo + f.w ≤ 32) ∧
    (∃ f : Fld, ∃ g : Fld, f.lo + f.w ≤ 32 ∧ g.off = f.off ∧ g.lo + g.w ≤ 32 ∧ (g.lo + g.w ≤ f.lo ∨ f.lo + f.w ≤ g.lo)) ∧
    (∃ f : Fld, ∃ o, f.lo + f.w ≤ 32 ∧ o ≠ f.off) ∧
    (∃ f : Fld, ∃ i, f.lo + f.w ≤ 32 ∧ i < 32 ∧ (i < f.lo ∨ f.lo + f.w ≤ i)) ∧
    (∃ o : Nat, ∃ f : Fld, f ∈ fldsAt o ∧ ((fldsAt o).Pairwise (fun a b => a.lo + a.w ≤ b.lo)) ∧ (∀ g ∈ fldsAt o, g.off = o ∧ g.lo + g.w ≤ 32) ∧ f.acc = .rw) ∧
    (∃ o : Nat, ∃ f : Fld, f ∈ fldsAt o ∧ ((fldsAt o).Pairwise (fun a b => a.lo + a.w ≤ b.lo)) ∧ (∀ g ∈ fldsAt o, g.off = o ∧ g.lo + g.w ≤ 32) ∧ f.acc = .rwp) ∧
    (∃ o : Nat, ∃ f : Fld, f ∈ fldsAt o ∧ ((fldsAt o).Pairwise (fun a b => a.lo + a.w ≤ b.lo)) ∧ (∀ g ∈ fldsAt o, g.off = o ∧ g.lo + g.w ≤ 32) ∧ f.acc = .w1c) ∧
    (∃ o : Nat, ∃ f : Fld, f ∈ fldsAt o ∧ ((fldsAt o).Pairwise (fun a b => a.lo + a.w ≤ b.lo)) ∧ (∀ g ∈ fldsAt o, g.off = o ∧ g.lo + g.w ≤ 32) ∧ f.acc = .w1s) ∧
    (∃ o : Nat, ∃ f : Fld, f ∈ fldsAt o ∧ ((fldsAt o).Pairwise (fun a b => a.lo + a.w ≤ b.lo)) ∧ (∀ g ∈ fldsAt o, g.off = o ∧ g.lo + g.w ≤ 32) ∧ f.acc = .ro) ∧
    (∃ o : Nat, ∃ f : Fld, ∃ a, f ∈ fldsAt o ∧ ((fldsAt o).Pairwise (fun a b => a.lo + a.w ≤ b.lo)) ∧ (∀ g ∈ fldsAt o, g.off = o ∧ g.lo + g.w ≤ 32) ∧ a ≠ o) :=
  ⟨⟨F.pwStat_level, by decide +kernel⟩,
   ⟨F.pwStat_level, F.pwStat_state, by decide +kernel⟩,
   ⟨F.pwStat_level, 0, by decide +kernel⟩,
   ⟨F.pwStat_level, 31, by decide +kernel⟩,
   ⟨0x20004, F.pwLimit_host, by decide +kernel⟩,
   ⟨0x20008, F.pwLimitCap_ceiling, by decide +kernel⟩,
   ⟨0x20040, F.pwEvent_uv, by decide +kernel⟩,
   ⟨0x100, F.glCtrl_seal, by decide +kernel⟩,
   ⟨0x20004, F.pwLimit_eff, by decide +kernel⟩,
   ⟨0x20004, F.pwLimit_host, 0x20008, by decide +kernel⟩⟩

theorem wit_MemoryLaws :
    (∃ s : State, Memory.wfOpen s.dram.mem = true) ∧
    (∃ s : State, Memory.wfOpen s.dram.mem = true) ∧
    (∃ i : Nat, ∃ d : List Byte, i < d.length) ∧
    (∃ a : Nat, ∃ x : Nat, ∃ d : List Byte, (x < a ∨ a + d.length ≤ x)) ∧
    (∃ s : State, ∃ t : State, ∃ p : Nat, ∃ a : Nat, ∃ d : List Byte, s.dramWrite p a d = some t) ∧
    (∃ s : State, ∃ t : State, ∃ p : Nat, ∃ a : Nat, ∃ d : List Byte, ∃ b, s.dramWrite p a d = some t ∧ b ∈ burstsOf a d.length) ∧
    (∃ d : Byte, ∃ m : Mem, Memory.wf d m = true) ∧
    (∃ a : Nat, ∃ x : Nat, ∃ bs : List Byte, (x < a ∨ a + bs.length ≤ x)) ∧
    (∃ i : Nat, ∃ bs : List Byte, i < bs.length) :=
  ⟨⟨r0, by decide +kernel⟩,
   ⟨r0, by decide +kernel⟩,
   ⟨1, [1, 2], by decide +kernel⟩,
   ⟨5, 7, [1, 2], by decide +kernel⟩,
   ⟨r0, r0.dramPut 63 [1, 2], 16, 63, [1, 2], by decide +kernel⟩,
   ⟨r0, r0.dramPut 63 [1, 2], 16, 63, [1, 2], 64, by decide +kernel⟩,
   ⟨0, [], by decide +kernel⟩,
   ⟨3, 2, [1], by decide +kernel⟩,
   ⟨0, [1], by decide +kernel⟩⟩

theorem wit_DramProtection :
    (∃ s : State, ∃ p : Nat, ∃ a : Nat, p ≠ moduleKey ∧ s.dramOk p a = true) ∧
    (∃ s : State, ∃ a : Nat, s.dramOk moduleKey a = true) ∧
    (∃ s : State, ∃ p : Nat, ∃ a : Nat, s.dramOk p a = true) ∧
    (∃ s : State, ∃ p : Nat, ∃ a : Nat, ∃ d : List Byte, (∃ b ∈ burstsOf a d.length, s.dramOk p b = false)) ∧
    (∃ s : State, ∃ p : Nat, ∃ a : Nat, ∃ n : Nat, (∃ b ∈ burstsOf a n, s.dramOk p b = false)) :=
  ⟨⟨r0.setReg 0x50900 3, 3, 0, by decide +kernel⟩,
   ⟨r0, 0, by decide +kernel⟩,
   ⟨r0, 16, 448 * 2 ^ 30 - 1, by decide +kernel⟩,
   ⟨r0, 3, 0, [1], by decide +kernel⟩,
   ⟨r0, 3, 63, 2, by decide +kernel⟩⟩

theorem wit_LoggingFrame :
    (∃ s : State, s.mrings = []) ∧
    (∃ s : State, ∃ f : FaultInfo, s.mrings = [] ∧ (f.cls = .partitionFatal ∨ f.cls = .deviceFatal)) :=
  ⟨⟨r0, by decide +kernel⟩,
   ⟨r0, flt, by decide +kernel⟩⟩

theorem wit_RefusedQueueWrites :
    (∃ s : State, settled s) ∧
    (∃ s : State, ∃ p : Nat, ∃ a : Nat, ∃ d : List Byte, (∃ b ∈ burstsOf a d.length, s.dramOk p b = false)) ∧
    (∃ s : State, ∃ p : Nat, s.sched.pfailDue = [p] ∧ (s.rd F.ftStat_pfail).testBit p = true) ∧
    (∃ s : State, ∃ p : Nat, (s.rd F.ftStat_pfail).testBit p = false) ∧
    (∃ s : State, s.sched.pfailDue = []) ∧
    (∃ s : State, s.sched.pfailDue = []) ∧
    (∃ s : State, s.sched.pfailDue = [] ∧ s.rd (F.cfgDevCtl2_ltrEn.cfg 0) = 1) :=
  ⟨⟨r0, by unfold settled; decide +kernel⟩,
   ⟨r0, 3, 0, [1], by decide +kernel⟩,
   ⟨{ rw F.ftStat_pfail 8 with sched := { r0.sched with pfailDue := [3] } }, 3, by decide +kernel⟩,
   ⟨r0, 3, by decide +kernel⟩,
   ⟨r0, by decide +kernel⟩,
   ⟨r0, by decide +kernel⟩,
   ⟨rw (F.cfgDevCtl2_ltrEn.cfg 0) 1, by decide +kernel⟩⟩

theorem wit_StepsKeepCanonicalForms : (∃ s : State, ∃ t : State, Memory.wfOpen s.dram.mem = true ∧ Tab.wf s.regs = true ∧ step s = .next t) :=
  ⟨{ r0 with pending := [.startUp] }, (nextOr r0 (step { r0 with pending := [.startUp] })), (by decide +kernel), (by decide +kernel), (nextOr_eq _ _ (by decide +kernel))⟩

theorem wit_TimelineSwitchesAtFrames :
    (∃ s : State, ∃ v : Word, v.toNat.testBit 4 = true ∧ s.tlReady (bits v.toNat 2 2) = true) ∧
    (∃ s : State, ∃ v : Word, v.toNat.testBit 4 = true ∧ s.tlReady (bits v.toNat 2 2) = false) ∧
    (∃ v : Word, v.toNat.testBit 4 = false) ∧
    (∃ s : State, s.rd F.tlCtrl_pending = 1 ∧ stLt s.now s.tl.pendAt = false ∧ s.tlReady s.tl.pendSrc = true) ∧
    (∃ s : State, s.rd F.tlCtrl_pending = 1 ∧ stLt s.now s.tl.pendAt = false ∧ s.tlReady s.tl.pendSrc = false) ∧
    (∃ s : State, s.mrings = []) ∧
    (∃ s : State, s.tl.nextLine < s.tl.lines) ∧
    (∃ s : State, s.mrings = [] ∧ s.ck.window + 1 < 2000 ∧ s.tl.lines ≤ s.tl.nextLine ∧ (s.tl.nextLine < s.tl.lines + (if s.rd F.tlRaster_lines = 0 then 1 else s.rd F.tlRaster_lines))) :=
  ⟨⟨r0, 0x10, by decide +kernel⟩,
   ⟨r0, 0x14, by decide +kernel⟩,
   ⟨0x4, by decide +kernel⟩,
   ⟨ws [(F.tlCtrl_pending, 1)], by decide +kernel⟩,
   ⟨{ ws [(F.tlCtrl_pending, 1)] with tl := { r0.tl with pendSrc := 1 } }, by decide +kernel⟩,
   ⟨r0, by decide +kernel⟩,
   ⟨r0, by decide +kernel⟩,
   ⟨{ ws [] with tl := { r0.tl with now := mkStamp 7 1124 65535 } }, by decide +kernel⟩⟩

theorem wit_TimelinePulses :
    (∃ s : State, ∃ fall : Bool, fall ≠ s.rdB F.tlSyncCfg_pol) ∧
    (∃ s : State, s.rd F.tlSyncCfg_linePulses = 0) ∧
    (∃ s : State, ∃ w : Nat, ∃ fall : Bool, fall = s.rdB F.tlSyncCfg_pol ∧ (s.rd F.tlSyncCfg_linePulses = 0 ∨ s.tl.longPulse w = true) ∧ s.rd F.tlCtrl_src ≠ 1 ∧ s.tl.sincePulse = none) ∧
    (∃ s : State, ∃ w : Nat, ∃ fall : Bool, ∃ n : Nat, fall = s.rdB F.tlSyncCfg_pol ∧ (s.rd F.tlSyncCfg_linePulses = 0 ∨ s.tl.longPulse w = true) ∧ s.rd F.tlCtrl_src ≠ 1 ∧ s.tl.sincePulse = some n ∧ ((n : Int) - (s.tl.lines * 65536 : Nat)).natAbs ≤ s.syncWindow * 65536 ∧ 1 ≤ s.tl.goodPulses) ∧
    (∃ s : State, ∃ w : Nat, ∃ fall : Bool, ∃ n : Nat, fall = s.rdB F.tlSyncCfg_pol ∧ (s.rd F.tlSyncCfg_linePulses = 0 ∨ s.tl.longPulse w = true) ∧ s.rd F.tlCtrl_src = 1 ∧ s.tl.sincePulse = some n ∧ ((n : Int) - (s.tl.lines * 65536 : Nat)).natAbs ≤ s.syncWindow * 65536 ∧ 1 ≤ s.tl.goodPulses) ∧
    (∃ s : State, ∃ w : Nat, ∃ fall : Bool, fall = s.rdB F.tlSyncCfg_pol ∧ s.rd F.tlSyncCfg_linePulses = 1 ∧ s.tl.longPulse w = false) ∧
    (∃ s : State, s.rd F.tlSyncCfg_linePulses = 1 ∧ s.rd F.tlCtrl_src = 1 ∧ stSub s.tl.now ≤ 8192) ∧
    (∃ s : State, s.rd F.tlSyncCfg_linePulses = 1 ∧ s.rd F.tlCtrl_src = 1 ∧ 57344 ≤ stSub s.tl.now ∧ stLine s.tl.now + 1 < s.tl.lines) ∧
    (∃ s : State, s.rd F.tlSyncCfg_linePulses = 1 ∧ s.rd F.tlCtrl_src ≠ 1) ∧
    (∃ s : State, (s.rd F.tlMs_master = 1 ∨ s.tl.drivesFs = true)) ∧
    (∃ s : State, s.rd F.tlMs_master = 0 ∧ s.tl.drivesFs = false ∧ s.rd F.tlCtrl_src = 3) ∧
    (∃ s : State, s.rd F.tlMs_master = 0 ∧ s.tl.drivesFs = false ∧ s.rd F.tlCtrl_src ≠ 3) :=
  ⟨⟨r0, true, by decide +kernel⟩,
   ⟨r0, by decide +kernel⟩,
   ⟨r0, 0, false, by decide +kernel⟩,
   ⟨{ ws [] with tl := { r0.tl with now := mkStamp 1 0 0, sincePulse := some (1125 * 65536 + 8 * 65536), goodPulses := 1 } }, 0, false, 1125 * 65536 + 8 * 65536, by decide +kernel⟩,
   ⟨{ ws [(F.tlCtrl_src, 1), (F.tlStatus_lock, 1), (F.tlSyncCfg_linePulses, 1)] with tl := { r0.tl with now := mkStamp 1 0 0, sincePulse := some (1117 * 65536), goodPulses := 1 } }, 7500, false, 1117 * 65536, by decide +kernel⟩,
   ⟨{ ws [(F.tlCtrl_src, 1), (F.tlSyncCfg_linePulses, 1)] with tl := { r0.tl with now := mkStamp 1 5 8192 } }, 7000, false, by decide +kernel⟩,
   ⟨{ ws [(F.tlCtrl_src, 1), (F.tlSyncCfg_linePulses, 1)] with tl := { r0.tl with now := mkStamp 1 5 8192 } }, by decide +kernel⟩,
   ⟨{ ws [(F.tlCtrl_src, 1), (F.tlSyncCfg_linePulses, 1)] with tl := { r0.tl with now := mkStamp 1 5 57344 } }, by decide +kernel⟩,
   ⟨ws [(F.tlSyncCfg_linePulses, 1)], by decide +kernel⟩,
   ⟨ws [(F.tlMs_master, 1)], by decide +kernel⟩,
   ⟨ws [(F.tlCtrl_src, 3), (F.tlStatus_lock, 1)], by decide +kernel⟩,
   ⟨r0, by decide +kernel⟩⟩

theorem wit_FrameEdge :
    (∃ s : State, s.rd F.tlStatus_lock = 1 ∧ s.tl.acquired = false) ∧
    (∃ s : State, s.rd F.tlStatus_lock = 1 ∧ s.tl.acquired = true ∧ stLine s.tl.now < s.syncWindow ∧ stLine s.tl.now + s.syncWindow < s.tl.lines) ∧
    (∃ s : State, s.rd F.tlStatus_lock = 2 ∧ stLine s.tl.now < s.syncWindow ∧ stLine s.tl.now + s.syncWindow < s.tl.lines) ∧
    (∃ s : State, s.rd F.tlStatus_lock = 2 ∧ s.syncWindow ≤ stLine s.tl.now ∧ stLine s.tl.now + s.syncWindow < s.tl.lines) ∧
    (∃ s : State, s.rd F.tlStatus_lock = 2 ∧ s.tl.lines ≤ stLine s.tl.now + s.syncWindow ∧ s.mrings = []) :=
  ⟨⟨ws [(F.tlStatus_lock, 1)], by decide +kernel⟩,
   ⟨{ ws [(F.tlStatus_lock, 1), (F.tlSyncCfg_window, 4)] with tl := { r0.tl with now := mkStamp 3 3 100, acquired := true, inWin := 1 } }, by decide +kernel⟩,
   ⟨{ ws [(F.tlStatus_lock, 2), (F.tlSyncCfg_window, 4)] with tl := { r0.tl with now := mkStamp 3 2 100 } }, by decide +kernel⟩,
   ⟨{ ws [(F.tlStatus_lock, 2), (F.tlSyncCfg_window, 4)] with tl := { r0.tl with now := mkStamp 3 500 100 } }, by decide +kernel⟩,
   ⟨{ ws [(F.tlStatus_lock, 2), (F.tlSyncCfg_window, 4)] with tl := { r0.tl with now := mkStamp 3 1121 100 } }, by decide +kernel⟩⟩

theorem wit_HoldoverAndReferences :
    (∃ s : State, s.rd F.tlCtrl_src ≠ 0 ∧ (s.rd F.tlStatus_lock = 1 ∨ s.rd F.tlStatus_lock = 2) ∧ atLeast1 (s.rd F.tlSyncCfg_lossFrames) ≤ s.tl.framesSinceEdge) ∧
    (∃ s : State, s.rd (F.cfgPtmCtl_enable.cfg 0) = 0) ∧
    (∃ s : State, s.rd (F.cfgPtmCtl_enable.cfg 0) = 1 ∧ s.ep.linkUp = true ∧ s.rd F.tlCtrl_src ≠ 2) ∧
    (∃ s : State, ∃ ns : Nat, s.rd (F.cfgPtmCtl_enable.cfg 0) = 1 ∧ s.ep.linkUp = true ∧ s.rd F.tlCtrl_src = 2 ∧ s.rd F.tlStatus_lock = 2 ∧ (s.tl.ptmError (s.tl.ptmStamp ns)).natAbs ≤ s.syncWindow * 65536) ∧
    (∃ s : State, s.rd F.tlCtrl_src ≠ 2) ∧
    (∃ s : State, s.rd F.tlCtrl_src = 2 ∧ s.rd F.tlStatus_lock ≠ 3) ∧
    (∃ s : State, ∃ port : Fin 3, ∃ frame : Word, s.rd (F.swPortStat_state.at (0x80100 + 0x40 * port.val)) = 2 ∧ s.rd F.tlMs_master = 0 ∧ s.rd F.tlCtrl_src = 3 ∧ s.tl.fsHop = none ∧ seqLt (stFrame s.tl.now) frame.toNat = true) ∧
    (∃ s : State, ∃ port : Fin 3, ∃ frame : Word, ∃ hop : Fin 4, s.rd (F.swPortStat_state.at (0x80100 + 0x40 * port.val)) = 2 ∧ s.rd F.tlMs_master = 0 ∧ s.rd F.tlCtrl_src = 3 ∧ s.tl.fsHop = none ∧ seqLt (stFrame s.tl.now) frame.toNat = true ∧ hop.val < 2) :=
  ⟨⟨{ ws [(F.tlCtrl_src, 1), (F.tlStatus_lock, 2), (F.tlSyncCfg_lossFrames, 4)] with tl := { r0.tl with framesSinceEdge := 9 } }, by decide +kernel⟩,
   ⟨r0, by decide +kernel⟩,
   ⟨{ ws [(F.cfgPtmCtl_enable.cfg 0, 1)] with ep := { r0.ep with linkUp := true } }, by decide +kernel⟩,
   ⟨{ ws [(F.cfgPtmCtl_enable.cfg 0, 1), (F.tlCtrl_src, 2), (F.tlStatus_lock, 2)] with ep := { r0.ep with linkUp := true } }, 20000, by decide +kernel⟩,
   ⟨r0, by decide +kernel⟩,
   ⟨ws [(F.tlCtrl_src, 2)], by decide +kernel⟩,
   ⟨ws [(F.swPortStat_state.at 0x80100, 2), (F.tlCtrl_src, 3)], 0, 7, by decide +kernel⟩,
   ⟨ws [(F.swPortStat_state.at 0x80140, 2), (F.tlCtrl_src, 3)], 1, 7, 1, by decide +kernel⟩⟩

theorem wit_Alarms :
    (∃ s : State, ∃ n : Fin 16, ∃ lo : Nat, tget s.tl.alarmHeld n.val = some lo) ∧
    (∃ s : State, ∃ n : Fin 16, s.switchDue = false ∧ s.epochDue = false ∧ (∀ k, k < n.val → s.alarmDue k = false) ∧ s.rd (F.tlAlarmCtrl_arm.at (16 * n.val)) = 1 ∧ s.rd2 (F.tlAlarmLo_stamp.at (16 * n.val)) (F.tlAlarmHi_stamp.at (16 * n.val)) ≠ noStamp ∧ stLt s.now (s.rd2 (F.tlAlarmLo_stamp.at (16 * n.val)) (F.tlAlarmHi_stamp.at (16 * n.val))) = false ∧ s.rd (F.tlAlarmCtrl_wakeEn.at (16 * n.val)) = 0 ∧ s.rd (F.tlAlarmCtrl_everyFrame.at (16 * n.val)) = 0) ∧
    (∃ s : State, ∃ n : Fin 16, (s.switchDue = true ∨ s.epochDue = true ∨ ∃ k, k < n.val ∧ s.alarmDue k = true)) ∧
    (∃ s : State, ∃ n : Fin 16, (s.rd (F.tlAlarmCtrl_arm.at (16 * n.val)) = 0 ∨ stLt s.now (s.rd2 (F.tlAlarmLo_stamp.at (16 * n.val)) (F.tlAlarmHi_stamp.at (16 * n.val))) = true)) :=
  ⟨⟨{ ws [] with tl := { r0.tl with alarmHeld := [(15, 3)] } }, 15, 3, by decide +kernel⟩,
   ⟨{ ws [(F.tlAlarmCtrl_arm.at 240, 1), (F.tlAlarmCtrl_irqEn.at 240, 1), (F.tlAlarmCtrl_vector.at 240, 5), (F.cfgMsix_enable.cfg 0, 1), (F.tlAlarmLo_stamp.at 240, 0), (F.tlAlarmHi_stamp.at 240, 1)] with tl := { r0.tl with now := mkStamp 3 0 0 } }, 15, by decide +kernel⟩,
   ⟨ws [(F.ckSwitchCtrl_pending, 1)], 15, by decide +kernel⟩,
   ⟨r0, 15, by decide +kernel⟩⟩

theorem wit_ClockSources :
    (∃ s : State, ∃ v : Word, v.toNat.testBit 0 = true ∧ s.ckOk (s.reg F.ckSrcNext_arith.off).toNat = true) ∧
    (∃ s : State, ∃ v : Word, v.toNat.testBit 0 = true ∧ s.ckOk (s.reg F.ckSrcNext_arith.off).toNat = false) ∧
    (∃ s : State, s.rd F.ckSwitchCtrl_pending = 1 ∧ stLt s.now s.ck.pendAt = false ∧ s.ckOk s.ck.pendSel = false) ∧
    (∃ s : State, s.rd F.ckSwitchCtrl_pending = 1 ∧ stLt s.now s.ck.pendAt = false ∧ s.ckOk s.ck.pendSel = true ∧ s.rd F.ckSrcStat_paused = 0 ∧ s.rd F.ckSrcStat_fallback = 0) ∧
    (∃ s : State, s.rd F.ckSwitchCtrl_pending = 1 ∧ stLt s.now s.ck.pendAt = false ∧ s.ckOk s.ck.pendSel = true ∧ (s.rd F.ckSrcStat_paused = 1 ∨ s.rd F.ckSrcStat_fallback = 1)) ∧
    (∃ s : State, ∃ src : Fin 4, src.val ≠ 3 ∧ s.ck.ringDown = true ∧ s.ckOn src.val ≠ []) ∧
    (∃ s : State, ∃ src : Fin 4, src.val ≠ 3 ∧ s.ck.ringDown = true ∧ s.ckOn src.val = []) ∧
    (∃ s : State, ∃ src : Fin 4, src.val ≠ 3 ∧ s.ckOn src.val = [] ∧ s.ck.ringDown = false) ∧
    (∃ s : State, s.ckOn 3 = []) :=
  ⟨⟨ws [(F.ckSrcStat_ready, 15), (F.ckSrcNext_arith, 2)], 1, by decide +kernel⟩,
   ⟨ws [(F.ckSrcNext_arith, 1)], 1, by decide +kernel⟩,
   ⟨{ ws [(F.ckSwitchCtrl_pending, 1)] with ck := { r0.ck with pendSel := 2 } }, by decide +kernel⟩,
   ⟨{ ws [(F.ckSrcStat_ready, 15), (F.ckSwitchCtrl_pending, 1)] with ck := { r0.ck with pendSel := 2 } }, by decide +kernel⟩,
   ⟨{ ws [(F.ckSrcStat_ready, 15), (F.ckSwitchCtrl_pending, 1), (F.ckSrcStat_paused, 1)] with ck := { r0.ck with pendSel := 2 } }, by decide +kernel⟩,
   ⟨{ ws [(F.ckSrcStat_ready, 15)] with ck := { r0.ck with ringDown := true } }, 0, by decide +kernel⟩,
   ⟨{ ws [(F.ckSrcStat_ready, 15)] with ck := { r0.ck with ringDown := true } }, 2, by decide +kernel⟩,
   ⟨ws [(F.ckSrcStat_ready, 15), (F.ckSrcStat_present, 15), (F.ckSrcSel_arith, 0)], 2, by decide +kernel⟩,
   ⟨r0, by decide +kernel⟩⟩

theorem wit_ClockFallback : (∃ s : State, ∃ src : Fin 3, s.ckOn src.val ≠ [] ∧ s.ck.ringDown = false ∧ s.cmds = [] ∧ s.mrings = []) :=
  ⟨ws [(F.ckSrcStat_ready, 15), (F.ckSrcStat_present, 15)], 0, by decide +kernel⟩

theorem wit_DescriptorFetch :
    (∃ s : State, ∃ n : Fin 16400, ∃ q : Sq, ∃ k : Cq, ∃ slot : Nat, ∃ raw : List Byte, tget s.sqs n.val = some q ∧ tget s.cqs q.cq = some k ∧ n.val < 16384 ∧ q.stopped = false ∧ q.fetching = false ∧ q.deleting = none ∧ q.head ≠ q.tail ∧ s.partInFlight q.part + s.fetches (·.part == q.part) < s.rd (F.ptQuota_inflight.at (ptBase q.part)) ∧ 0 < k.free ∧ s.freeCmdSlot = some slot ∧ (s.cmds.length + s.fetches (fun _ => true) < 4096) ∧ s.fnD0 q.part = true ∧ (s.rd F.ftStat_pfail).testBit q.part = false ∧ s.rd F.ftStat_deviceFailed = 0 ∧ q.place.baseHost = false ∧ s.dramRead q.part (q.place.base + (q.head % 2 ^ q.log2) * 128) 128 = .ok raw) ∧
    (∃ s : State, ∃ n : Nat, ∃ q : Sq, ∃ slot : Nat, ∃ raw : List Byte, n < 16384 ∧ tget s.sqs n = some q ∧ s.freeCmdSlot = some slot ∧ q.bad = [] ∧ q.place.ptrHost = true ∧ (Desc.ofBytes raw).part = q.part ∧ s.fetchCheck false q raw = 0) ∧
    (∃ s : State, ∃ n : Fin 16400, (tget s.sqs n.val = none ∨ ∃ q, tget s.sqs n.val = some q ∧ (q.stopped = true ∨ q.head = q.tail ∨ q.deleting.isSome = true))) :=
  ⟨⟨rdyD, 3, sq1, cq1, 0, raw1, by decide +kernel⟩,
   ⟨rdy.setReg 0x50900 1, 3, sq1, 0, raw1, by decide +kernel⟩,
   ⟨r0, 5, (.inl (by decide +kernel))⟩⟩

theorem wit_Doorbells :
    (∃ s : State, ∃ fn : Fin 16, s.barOpen fn.val = false) ∧
    (∃ s : State, ∃ fn : Fin 16, ∃ n : Fin 16384, ∃ v : Word, ∃ q : Sq, s.barOpen fn.val = true ∧ tget s.sqs n.val = some q ∧ q.part = fn.val ∧ q.templated = false ∧ q.stopped = false ∧ (v.toNat + 2 ^ 32 - q.head) % 2 ^ 32 ≤ 2 ^ q.log2 ∧ (q.tail + 2 ^ 32 - q.head) % 2 ^ 32 ≤ (v.toNat + 2 ^ 32 - q.head) % 2 ^ 32) ∧
    (∃ s : State, ∃ fn : Fin 16, ∃ n : Fin 4096, ∃ v : Word, ∃ k : Cq, s.barOpen fn.val = true ∧ tget s.cqs n.val = some k ∧ k.part = fn.val ∧ (v.toNat + 2 ^ 32 - k.cons) % 2 ^ 32 ≤ (k.prod + 2 ^ 32 - k.cons) % 2 ^ 32) ∧
    (∃ s : State, ∃ fn : Fin 16, ∃ n : Fin 1024, ∃ v : Word, ∃ r : Ring, s.barOpen fn.val = true ∧ tget s.mrings n.val = some r ∧ r.part = fn.val ∧ (v.toNat + 2 ^ 32 - r.cons) % 2 ^ 32 ≤ (r.prod + 2 ^ 32 - r.cons) % 2 ^ 32) ∧
    (∃ s : State, ∃ fn : Fin 16, ∃ n : Fin 4096, ∃ v : Word, ∃ k : Cq, s.barOpen fn.val = true ∧ tget s.cqs n.val = some k ∧ k.part = fn.val ∧ (k.prod + 2 ^ 32 - k.cons) % 2 ^ 32 < (v.toNat + 2 ^ 32 - k.cons) % 2 ^ 32) ∧
    (∃ s : State, ∃ p : Fin 16, ∃ v : Word, ∃ q : Sq, ∃ k : Cq, tget s.sqs (16384 + p.val) = some q ∧ tget s.cqs (4096 + p.val) = some k ∧ s.rd (F.ctlCfg_en.at (ctlBase p.val)) = 1 ∧ q.stopped = false ∧ (v.toNat + 2 ^ 32 - q.head) % 2 ^ 32 ≤ 2 ^ q.log2 ∧ (q.tail + 2 ^ 32 - q.head) % 2 ^ 32 ≤ (v.toNat + 2 ^ 32 - q.head) % 2 ^ 32) ∧
    (∃ s : State, ∃ p : Fin 16, ∃ v : Word, ∃ q : Sq, ∃ k : Cq, tget s.sqs (16384 + p.val) = some q ∧ tget s.cqs (4096 + p.val) = some k ∧ s.rd (F.ctlCfg_en.at (ctlBase p.val)) = 1 ∧ (v.toNat + 2 ^ 32 - k.cons) % 2 ^ 32 ≤ (k.prod + 2 ^ 32 - k.cons) % 2 ^ 32) ∧
    (∃ s : State, ∃ fn : Fin 16, ∃ n : Fin 1024, ∃ v : Word, ∃ r : Ring, s.barOpen fn.val = true ∧ tget s.mrings n.val = some r ∧ r.part = fn.val ∧ (r.prod + 2 ^ 32 - r.cons) % 2 ^ 32 < (v.toNat + 2 ^ 32 - r.cons) % 2 ^ 32) ∧
    (∃ s : State, ∃ fn : Fin 16, ∃ n : Fin 1024, ∃ v : Word, ∃ r : Ring, ∃ r' : Ring, s.barOpen fn.val = true ∧ tget s.mrings n.val = some r ∧ r.part = fn.val ∧ (r.prod + 2 ^ 32 - r.cons) % 2 ^ 32 < (v.toNat + 2 ^ 32 - r.cons) % 2 ^ 32 ∧ tget (s.logPart 0x328 fn.val .scheduler 0 n.val).mrings n.val = some r') ∧
    (∃ s : State, ∃ p : Fin 16, ∃ v : Word, ∃ k : Cq, tget s.cqs (4096 + p.val) = some k ∧ s.rd (F.ctlCfg_en.at (ctlBase p.val)) = 1 ∧ (k.prod + 2 ^ 32 - k.cons) % 2 ^ 32 < (v.toNat + 2 ^ 32 - k.cons) % 2 ^ 32) ∧
    (∃ s : State, ∃ fn : Fin 16, ∃ n : Fin 16384, ∃ q : Sq, s.barOpen fn.val = true ∧ tget s.sqs n.val = some q ∧ q.part = fn.val ∧ q.templated = false ∧ q.stopped = true) ∧
    (∃ s : State, ∃ fn : Fin 16, ∃ n : Fin 16384, ∃ v : Word, ∃ q : Sq, s.barOpen fn.val = true ∧ tget s.sqs n.val = some q ∧ q.part = fn.val ∧ q.templated = false ∧ q.stopped = false ∧ (2 ^ q.log2 < (v.toNat + 2 ^ 32 - q.head) % 2 ^ 32 ∨ (v.toNat + 2 ^ 32 - q.head) % 2 ^ 32 < (q.tail + 2 ^ 32 - q.head) % 2 ^ 32)) ∧
    (∃ s : State, ∃ fn : Fin 16, ∃ n : Fin 16384, s.barOpen fn.val = true ∧ (∀ q, tget s.sqs n.val = some q → q.part ≠ fn.val ∨ q.templated = true)) ∧
    (∃ s : State, ∃ fn : Fin 16, ∃ n : Fin 4096, s.barOpen fn.val = true ∧ (∀ k, tget s.cqs n.val = some k → k.part ≠ fn.val)) ∧
    (∃ s : State, ∃ fn : Fin 16, ∃ n : Fin 1024, s.barOpen fn.val = true ∧ (∀ r, tget s.mrings n.val = some r → r.part ≠ fn.val)) ∧
    (∃ s : State, s.mrings = []) :=
  ⟨⟨r0, 0, by decide +kernel⟩,
   ⟨bar1 rdy, 1, 3, 22, sq1, by decide +kernel⟩,
   ⟨(bar1 { r0 with cqs := [(2, cq1)] }), 1, 2, 9, cq1, by decide +kernel⟩,
   ⟨(bar1 { r0 with mrings := [(2, ring1)] }), 1, 2, 9, ring1, by decide +kernel⟩,
   ⟨(bar1 { r0 with cqs := [(2, cq1)] }), 1, 2, 10, cq1, by decide +kernel⟩,
   ⟨ctl1, 1, 22, sq1, cq1, by decide +kernel⟩,
   ⟨ctl1, 1, 9, sq1, cq1, by decide +kernel⟩,
   ⟨(bar1 { r0 with mrings := [(2, ring1)] }), 1, 2, 10, ring1, by decide +kernel⟩,
   ⟨(bar1 { r0 with mrings := [(2, ring1)] }), 1, 2, 10, ring1, (tgetD ((bar1 { r0 with mrings := [(2, ring1)] }).logPart 0x328 1 .scheduler 0 2).mrings 2 ring1), by decide +kernel⟩,
   ⟨ctl1, 1, 10, cq1, by decide +kernel⟩,
   ⟨bar1 { r0 with sqs := [(3, { sq1 with stopped := true })] }, 1, 3, { sq1 with stopped := true }, by decide +kernel⟩,
   ⟨bar1 rdy, 1, 3, 23, sq1, by decide +kernel⟩,
   ⟨bar1 r0, 2, 3, by decide +kernel, (by intro q h; cases h)⟩,
   ⟨bar1 r0, 2, 3, by decide +kernel, (by intro q h; cases h)⟩,
   ⟨bar1 r0, 2, 3, by decide +kernel, (by intro q h; cases h)⟩,
   ⟨r0, by decide +kernel⟩⟩

theorem wit_ControlQueueRegisters :
    (∃ s : State, ∃ p : Fin 16, ∃ v : Word, v.toNat.testBit 20 = false ∧ s.rd (F.ctlCfg_en.at (ctlBase p.val)) = 1) ∧
    (∃ s : State, ∃ p : Fin 16, ∃ v : Word, v.toNat.testBit 20 = true ∧ s.rd (F.ctlCfg_en.at (ctlBase p.val)) = 1) ∧
    (∃ s : State, ∃ p : Fin 16, ∃ v : Word, v.toNat.testBit 20 = true ∧ s.rd (F.ctlCfg_en.at (ctlBase p.val)) = 0 ∧ 1 ≤ bits v.toNat 0 4 ∧ bits v.toNat 0 4 ≤ 8 ∧ 1 ≤ bits v.toNat 4 4 ∧ bits v.toNat 4 4 ≤ 8 ∧ s.rd (F.ctlSqBaseHi_space.at (ctlBase p.val)) = 3 ∧ s.rd (F.ctlCqBaseHi_space.at (ctlBase p.val)) = 3 ∧ s.rd (F.ctlPtrHi_space.at (ctlBase p.val)) = 3 ∧ s.rd (F.ptCtrl_enabled.at (ptBase p.val)) = 1 ∧ bits v.toNat 8 11 < fnVectors p.val) :=
  ⟨⟨ctl1, 1, 0, by decide +kernel⟩,
   ⟨ctl1, 1, 0x187F00, by decide +kernel⟩,
   ⟨(ws [(F.ptCtrl_enabled.at (ptBase 1), 1), (F.ctlSqBaseHi_space.at (ctlBase 1), 3), (F.ctlCqBaseHi_space.at (ctlBase 1), 3), (F.ctlPtrHi_space.at (ctlBase 1), 3)]), 1, 0x180A81, by decide +kernel⟩⟩

theorem wit_EligibilityAndDispatch :
    (∃ s : State, ∃ slot : Fin 4096, ∃ c : Cmd, tget s.cmds slot.val = some c ∧ s.mayBeEligible c = true ∧ s.switchDue = false ∧ s.epochDue = false ∧ (∀ n, n < 16 → s.alarmDue n = false) ∧ s.eligibleBefore c = false) ∧
    (∃ s : State, ∃ slot : Nat, ∃ c : Cmd, tget s.cmds slot = some c ∧ (c.desc.cls ≠ 1 ∨ s.clsOf c ≠ 0 ∨ c.desc.deadline = noStamp)) ∧
    (∃ s : State, ∃ slot : Fin 4096, ∃ c : Cmd, tget s.cmds slot.val = some c ∧ c.desc.notBefore ≠ noStamp ∧ stLt s.now c.desc.notBefore = true) ∧
    (∃ s : State, ∃ slot : Fin 4096, ∃ c : Cmd, tget s.cmds slot.val = some c ∧ (c.phase = .waiting ∨ c.phase = .eligible) ∧ c.attempts = 0 ∧ c.desc.deadline ≠ noStamp ∧ stLt s.now c.desc.deadline = false ∧ s.dropsLate c = true) ∧
    (∃ s : State, ∃ slot : Fin 4096, ∃ c : Cmd, tget s.cmds slot.val = some c ∧ (c.phase = .waiting ∨ c.phase = .eligible) ∧ c.attempts = 0 ∧ c.desc.deadline ≠ noStamp ∧ stLt s.now c.desc.deadline = false ∧ s.dropsLate c = true ∧ c.desc.cls = 1 ∧ c.phase = .eligible) ∧
    (∃ s : State, ∃ slot : Fin 4096, ∃ c : Cmd, tget s.cmds slot.val = some c ∧ s.dropsLate c = false) ∧
    (∃ s : State, ∃ slot : Fin 4096, ∃ c : Cmd, tget s.cmds slot.val = some c ∧ c.desc.cls = 1 ∧ c.phase = .eligible ∧ s.lateDrop c = false ∧ s.isNext slot.val c = true ∧ s.computeReady = true ∧ 1 < s.dispatchCheck c) ∧
    (∃ s : State, ∃ u : State, ∃ slot : Fin 4096, ∃ c : Cmd, tget s.cmds slot.val = some c ∧ c.desc.cls = 1 ∧ c.phase = .eligible ∧ s.lateDrop c = false ∧ s.isNext slot.val c = true ∧ s.computeReady = true ∧ s.compWait c = false ∧ s.tryDispatch slot.val c = .go u ∧ s.dispatchCheck c = 1) ∧
    (∃ s : State, ∃ u : State, ∃ slot : Fin 4096, ∃ c : Cmd, tget s.cmds slot.val = some c ∧ c.desc.cls = 1 ∧ c.phase = .eligible ∧ s.lateDrop c = false ∧ s.isNext slot.val c = true ∧ s.computeReady = true ∧ s.compWait c = false ∧ s.tryDispatch slot.val c = .go u ∧ s.dispatchCheck c = 0) ∧
    (∃ s : State, ∃ slot : Nat, ∃ c : Cmd, tget s.cmds slot = some c ∧ (∀ a ∈ c.desc.args, argKind a = 0 ∨ argKind a = 1) ∧ c.desc.ctxValid = false ∧ c.first = 0 ∧ c.holds = []) ∧
    (∃ s : State, ∃ slot : Fin 4096, ∃ c : Cmd, tget s.cmds slot.val = some c ∧ (c.desc.cls ≠ 1 ∨ c.phase = .waiting ∨ c.phase = .running)) :=
  ⟨⟨rdyC cmdW, 0, cmdW, by decide +kernel⟩,
   ⟨rdyC cmd1, 0, cmd1, by decide +kernel⟩,
   ⟨rdyC { cmdW with desc := { cmdW.desc with notBefore := mkStamp 3 0 0 } }, 0, { cmdW with desc := { cmdW.desc with notBefore := mkStamp 3 0 0 } }, by decide +kernel⟩,
   ⟨{ rdyC { cmdW with desc := { cmdW.desc with deadline := 0 } } with sqs := [(3, { sq1 with drop := true })] }, 0, { cmdW with desc := { cmdW.desc with deadline := 0 } }, by decide +kernel⟩,
   ⟨{ rdyC { cmd1 with desc := { cmd1.desc with deadline := 0 } } with sqs := [(3, { sq1 with drop := true })] }, 0, { cmd1 with desc := { cmd1.desc with deadline := 0 } }, by decide +kernel⟩,
   ⟨rdyC cmdW, 0, cmdW, by decide +kernel⟩,
   ⟨{ rdyC cmd1 with lists := [] }, 0, cmd1, by decide +kernel⟩,
   ⟨{ rdyC cmd1 with lists := [(5, { list1 with zeroMask := 1 })] }, goneOf r0 (State.tryDispatch ({ rdyC cmd1 with lists := [(5, { list1 with zeroMask := 1 })] }) 0 cmd1), 0, cmd1, (by decide +kernel), (by decide +kernel), (by decide +kernel), (by decide +kernel), (by decide +kernel), (by decide +kernel), (by decide +kernel), (goneOf_eq _ _ (by decide +kernel)), (by decide +kernel)⟩,
   ⟨rdyC cmd1, goneOf r0 ((rdyC cmd1).tryDispatch 0 cmd1), 0, cmd1, (by decide +kernel), (by decide +kernel), (by decide +kernel), (by decide +kernel), (by decide +kernel), (by decide +kernel), (by decide +kernel), (goneOf_eq _ _ (by decide +kernel)), (by decide +kernel)⟩,
   ⟨rdyC cmd1, 0, cmd1, by decide +kernel⟩,
   ⟨rdyC cmdW, 0, cmdW, by decide +kernel⟩⟩

theorem wit_SlicesKillsGroupSaves :
    (∃ s : State, ∃ slot : Fin 4096, ∃ c : Cmd, tget s.cmds slot.val = some c ∧ c.phase = .saving ∧ s.pow.paused = false ∧ s.windowOpen slot.val = false ∧ (∀ n ∈ c.shares.filter s.boleOnline, (s.bole (s.physOf n)).tiles = [])) ∧
    (∃ s : State, ∃ slot : Fin 4096, ∃ c : Cmd, tget s.cmds slot.val = some c ∧ c.phase = .suspended ∧ c.saved = [] ∧ c.savedAcc = [] ∧ s.sched.preempting = [] ∧ s.computeReady = true ∧ s.isNext slot.val c = true) ∧
    (∃ s : State, ∃ slot : Fin 4096, ∃ c : Cmd, ∃ n : Nat, ∃ k : Nat, ∃ x : IssueCtx, tget s.cmds slot.val = some c ∧ c.phase = .suspended ∧ c.saved = [(n, k, x)] ∧ tget s.sched.saved n = none ∧ c.savedAcc = [] ∧ s.sched.preempting = [] ∧ s.computeReady = true ∧ s.isNext slot.val c = true ∧ s.boleOnline n = true ∧ tget (s.bole (s.physOf n)).ctxs k = none) ∧
    (∃ s : State, ∃ c : Cmd, ∃ n : Nat, ∃ k : Nat, ∃ w : SavedBole, ∃ data : List Byte, tget s.sched.saved n = some w ∧ w.spad = [k] ∧ w.acc = [] ∧ s.gated (s.physOf n) k = false ∧ s.dramRead c.desc.part (w.addr + 16384 * k) 16384 = .ok data ∧ (s.bole (s.physOf n)).spadLive.contains k = false) ∧
    (∃ s : State, ∃ slot : Fin 4096, ∃ c : Cmd, tget s.cmds slot.val = some c ∧ c.phase = .saving ∧ s.windowOpen slot.val = true) ∧
    (∃ s : State, ∃ slot : Fin 4096, ∃ c : Cmd, tget s.cmds slot.val = some c ∧ (c.phase ≠ .saving ∨ s.windowOpen slot.val = false)) ∧
    (∃ s : State, ∃ k : Fin 85, ∃ p : Nat, ∃ x : Slice, tget s.sched.slices k.val = some x ∧ ((List.range 16).find? (fun p => s.owns p k.val) = some p) ∧ x.expired = false ∧ x.cls ≠ 0 ∧ 1000 * s.rd (F.ptSlice_slice.at (ptBase p + 4 * (x.cls - 1))) ≤ s.nsSince x.since ∧ (∃ y ∈ [1, 2, 3], y ≠ x.cls ∧ s.classHas k.val y = true)) ∧
    (∃ s : State, ∃ k : Fin 85, ∃ p : Nat, ∃ x : Slice, tget s.sched.slices k.val = some x ∧ ((List.range 16).find? (fun p => s.owns p k.val) = some p) ∧ x.expired = false ∧ x.cls ≠ 0 ∧ 1000 * s.rd (F.ptSlice_slice.at (ptBase p + 4 * (x.cls - 1))) ≤ s.nsSince x.since ∧ (∀ y ∈ [1, 2, 3], y ≠ x.cls → s.classHas k.val y = false)) ∧
    (∃ s : State, ∃ k : Fin 85, ∃ p : Nat, ∃ x : Slice, tget s.sched.slices k.val = some x ∧ ((List.range 16).find? (fun p => s.owns p k.val) = some p) ∧ s.nsSince x.since < 1000 * s.rd (F.ptSlice_slice.at (ptBase p + 4 * (x.cls - 1)))) ∧
    (∃ s : State, ∃ k : Fin 85, tget s.sched.slices k.val = none) ∧
    (∃ s : State, ∃ p : Fin 16, (∀ e ∈ s.cmds, e.2.inFlight = true → e.2.desc.cls = 1 → e.2.desc.part = p.val → s.clsOf e.2 = 0)) ∧
    (∃ s : State, ∃ t : State, ∃ p : Fin 16, ∃ slot : Nat, ∃ c : Cmd, s.cmds = [(slot, c)] ∧ c.inFlight = true ∧ c.desc.cls = 1 ∧ c.desc.part = p.val ∧ s.clsOf c ≠ 0 ∧ (t = c.shares.foldl (fun t n => t.inc (F.acPreempt_preempted.at (blBase (t.physOf n))) 1) ((s.killCmd slot .preempt).inc F.scPreemptCnt_count 1))) ∧
    (∃ s : State, ∃ slot : Nat, ∃ c : Cmd, tget s.cmds slot = some c ∧ c.inFlight = true ∧ c.fresh = [] ∧ c.reds = []) ∧
    (∃ s : State, ∃ slot : Nat, ∃ c : Cmd, tget s.cmds slot = some c ∧ c.inFlight = false) :=
  ⟨⟨{ rdyC { cmdR with phase := .saving } with boles := [(0, boleI)] }, 0, { cmdR with phase := .saving }, by decide +kernel⟩,
   ⟨rdyC { cmdR with phase := .suspended }, 0, { cmdR with phase := .suspended }, by decide +kernel⟩,
   ⟨rdyC { cmdR with phase := .suspended, saved := [(0, 0, ic)] }, 0, { cmdR with phase := .suspended, saved := [(0, 0, ic)] }, 0, 0, ic, by decide +kernel⟩,
   ⟨{ (r0.setReg 0x50900 1) with sched := { r0.sched with saved := [(0, ⟨0, [3], [], [(1, 2)]⟩)] } }, cmd1, 0, 3, ⟨0, [3], [], [(1, 2)]⟩, memOf (State.dramRead ({ (r0.setReg 0x50900 1) with sched := { r0.sched with saved := [(0, ⟨0, [3], [], [(1, 2)]⟩)] } }) 1 49152 16384), (by decide +kernel), (by decide +kernel), (by decide +kernel), (by decide +kernel), (mem_eq _ (by decide +kernel)), (by decide +kernel)⟩,
   ⟨{ rdyC { cmdR with phase := .saving } with boles := [(0, { boleI with wins := [(1, win1)] })] }, 0, { cmdR with phase := .saving }, by decide +kernel⟩,
   ⟨rdyC { cmdR with phase := .saving }, 0, { cmdR with phase := .saving }, by decide +kernel⟩,
   ⟨{ { ws [(F.ptSlice_slice.at (ptBase 1 + 4), 0), (F.ptOwnLo_own.at (ptBase 1), 1)] with sched := { r0.sched with slices := [(0, ⟨2, 0, false⟩)] } } with sqs := [(3, { sq1 with cls := 1 })], cmds := [(0, cmd1)] }, 0, 1, ⟨2, 0, false⟩, by decide +kernel⟩,
   ⟨{ ws [(F.ptSlice_slice.at (ptBase 1 + 4), 0), (F.ptOwnLo_own.at (ptBase 1), 1)] with sched := { r0.sched with slices := [(0, ⟨2, 0, false⟩)] } }, 0, 1, ⟨2, 0, false⟩, by decide +kernel⟩,
   ⟨{ ws [(F.ptOwnLo_own.at (ptBase 1), 1)] with sched := { r0.sched with slices := [(0, ⟨2, 0, false⟩)] } }, 0, 1, ⟨2, 0, false⟩, by decide +kernel⟩,
   ⟨r0, 84, by decide +kernel⟩,
   ⟨rdyC cmd1, 1, by decide +kernel⟩,
   ⟨rdyC cmdR, (cmdR.shares.foldl (fun t n => t.inc (F.acPreempt_preempted.at (blBase (t.physOf n))) 1) (((rdyC cmdR).killCmd 0 .preempt).inc F.scPreemptCnt_count 1)), 1, 0, cmdR, (by decide +kernel), (by decide +kernel), (by decide +kernel), (by decide +kernel), (by decide +kernel), (rfl)⟩,
   ⟨rdyC cmdR, 0, cmdR, by decide +kernel⟩,
   ⟨rdyC cmd1, 0, cmd1, by decide +kernel⟩⟩

theorem wit_Epochs :
    (∃ s : State, s.rd F.scEpochCtrl_pending = 0) ∧
    (∃ s : State, s.rd F.scEpochCtrl_pending = 1) ∧
    (∃ s : State, ∃ v : Word, v.toNat = 1 ∧ s.epochCause = 0) ∧
    (∃ s : State, s.rd F.scEpochCtrl_pending = 1 ∧ s.rd F.scStat_switching = 0 ∧ stLt s.now s.sched.epochAt = false ∧ s.switchDue = false) ∧
    (∃ s : State, ∃ u : Fin 95, ¬ s.sched.switching.contains u.val) ∧
    (∃ s : State, ∃ u : Fin 95, s.sched.switching.contains u.val = true ∧ 64 ≤ u.val ∧ u.val < 70 ∧ (s.engine (u.val - 64)).job = none) ∧
    (∃ s : State, ∃ u : Fin 95, s.sched.switching.contains u.val = true ∧ 70 ≤ u.val ∧ (∀ e ∈ s.cmds, e.2.inFlight = true → (u.val < 74 → e.2.desc.cls = u.val - 66) → (74 ≤ u.val → e.2.desc.cls = 1 ∧ compOf e.2.desc.target = u.val - 10) → e.2.epoch = s.rd F.scEpochCur_epoch)) ∧
    (∃ s : State, ∃ u : Fin 95, s.sched.switching.contains u.val = true ∧ 70 ≤ u.val ∧ u.val < 74 ∧ (∃ e ∈ s.cmds, e.2.inFlight = true ∧ e.2.epoch ≠ s.rd F.scEpochCur_epoch ∧ e.2.desc.cls = u.val - 66)) ∧
    (∃ s : State, ∃ u : Fin 95, s.sched.switching.contains u.val = true ∧ u.val < 64 ∧ ((s.cmds.any fun e => e.2.on u.val && e.2.epoch != s.rd F.scEpochCur_epoch) = false)) :=
  ⟨⟨r0, by decide +kernel⟩,
   ⟨ws [(F.scEpochCtrl_pending, 1)], by decide +kernel⟩,
   ⟨r0, 1, by decide +kernel⟩,
   ⟨ws [(F.scEpochCtrl_pending, 1), (F.ptShShare_dram.at (ptBase 3), 7)], by decide +kernel⟩,
   ⟨r0, 94, by decide +kernel⟩,
   ⟨{ ws [(F.scEpochCur_epoch, 4)] with sched := { r0.sched with switching := [64, 69] } }, 69, by decide +kernel⟩,
   ⟨{ ws [(F.scEpochCur_epoch, 4)] with sched := { r0.sched with switching := [64, 70] } }, 70, by decide +kernel⟩,
   ⟨{ rdyC { cmdR with desc := { cmdR.desc with cls := 4 }, epoch := 9 } with sched := { r0.sched with switching := [64, 70] } }, 70, by decide +kernel⟩,
   ⟨{ ws [(F.scEpochCur_epoch, 4)] with sched := { r0.sched with switching := [63, 69] } }, 63, by decide +kernel⟩⟩

theorem wit_HandOverAccountsSeeds :
    (∃ s : State, ∃ n : Fin 64, ((s.sched.handover.any fun h => h.1 == n.val) = true) ∧ s.sched.handed.contains n.val = false ∧ (s.bole (s.physOf n.val)).scrubFor = 0 ∧ s.preparing n.val = false ∧ s.boleOff n.val = false ∧ s.slotsOn (s.physOf n.val) = []) ∧
    (∃ s : State, ∃ n : Fin 64, ((s.sched.handover.any fun h => h.1 == n.val) = true) ∧ s.sched.handed.contains n.val = false ∧ (s.bole (s.physOf n.val)).scrubFor = 0 ∧ s.preparing n.val = false ∧ s.boleOff n.val = true) ∧
    (∃ s : State, ∃ n : Fin 64, ((s.sched.handover.any fun h => h.1 == n.val) = false)) ∧
    (∃ s : State, ∃ fn : Fin 16, ∃ v : Word, ∃ q : Sq, tget s.sqs (bits v.toNat 0 14) = some q ∧ (fn.val = 0 ∨ q.part = fn.val)) ∧
    (∃ s : State, ∃ fn : Fin 16, ∃ v : Word, ∃ q : Sq, tget s.sqs (bits v.toNat 0 14) = some q ∧ fn.val ≠ 0 ∧ q.part ≠ fn.val) :=
  ⟨⟨{ r0 with sched := { r0.sched with handover := [(63, 2)] } }, 63, by decide +kernel⟩,
   ⟨{ (r0.goOffline 63) with sched := { r0.sched with handover := [(63, 2)] } }, 63, by decide +kernel⟩,
   ⟨r0, 63, by decide +kernel⟩,
   ⟨{ rdy with acct := [(3, ⟨7, 0, 0, 0, 0, 0⟩)] }, 1, 3, sq1, by decide +kernel⟩,
   ⟨rdy, 2, 3, sq1, by decide +kernel⟩⟩

theorem wit_IssueRows :
    (∃ s : State, ∃ p : Fin 68, ∃ x : Fin 4, ∃ e : UnitErr, ∃ r, r ∈ scalarRows p x e ∧ s.issuable p.val x.val r.2 = none) ∧
    (∃ s : State, ∃ p : Fin 68, ∃ x : Fin 4, ∃ e : UnitErr, ∃ k : Nat, ∃ r, r ∈ unitRows p x e k ∧ s.issuable p.val x.val r.2.1 = none) ∧
    (∃ s : State, ∃ p : Fin 68, ∃ x : Fin 4, ∃ e : UnitErr, ∃ i : Iss, ∃ r, r ∈ scalarRows p x e ∧ s.issuable p.val x.val r.2 = some i ∧ wordOk i.w = false) ∧
    (∃ s : State, ∃ p : Fin 68, ∃ x : Fin 4, ∃ e : UnitErr, ∃ k : Nat, ∃ i : Iss, ∃ r, r ∈ unitRows p x e k ∧ s.issuable p.val x.val r.2.1 = some i ∧ wordOk i.w = false) ∧
    (∃ p : Fin 68, ∃ q, q ≠ p.val) ∧
    (∃ p : Fin 68, ∃ o, o ≠ blBase p.val + 0x1028 ∧ o ≠ blBase p.val + 0x102C) ∧
    (∃ s : State, ∃ p : Fin 68, ∃ x : Fin 4, ∃ sel : Nat → Bool, ∃ i : Iss, s.issuable p.val x.val sel = some i) ∧
    (∃ s : State, ∃ p : Fin 68, ∃ x : Fin 4, ∃ sel : Nat → Bool, ∃ i : Iss, ∃ f, ∃ t, s.issuable p.val x.val sel = some i ∧ f ∈ i.c.flight ∧ f.tok = some t) :=
  ⟨⟨r0, 0, 0, .none, (Instr.nop (.bole 0 0), fun w => opOf w == 0 || !opcodes.contains (opOf w)), (by unfold scalarRows; exact .head _), (by decide +kernel)⟩,
   ⟨r0, 0, 0, .none, 0, (Instr.tile 0 0 .none, isOp 0x10, tileSpec), (by unfold unitRows; exact .head _), (by decide +kernel)⟩,
   ⟨run [0xFF] ic, 0, 0, .none, isx [0xFF] ic, (Instr.nop (.bole 0 0), fun w => opOf w == 0 || !opcodes.contains (opOf w)), (by unfold scalarRows; exact .head _), (by decide +kernel), (by decide +kernel)⟩,
   ⟨run [0x110 + 2 ^ 127] ic, 0, 0, .none, 0, isx [0x110 + 2 ^ 127] ic, (Instr.tile 0 0 .none, isOp 0x10, tileSpec), (by unfold unitRows; exact .head _), (by decide +kernel), (by decide +kernel)⟩,
   ⟨0, 1, by decide +kernel⟩,
   ⟨0, 0, by decide +kernel⟩,
   ⟨run [0] ic, 0, 0, (fun _ => true), isx [0] ic, by decide +kernel⟩,
   ⟨run [0] { ic with flight := [⟨.dma, some 3, true, none, []⟩] }, 0, 0, (fun _ => true), isx [0] { ic with flight := [⟨.dma, some 3, true, none, []⟩] }, (⟨.dma, some 3, true, none, []⟩ : InFlight), 3, by decide +kernel⟩⟩

theorem wit_LoopsAndSkips :
    (∃ s : State, ∃ p : Fin 68, ∃ x : Fin 4, ∃ i : Iss, (issues s p x (fun w => opOf w == 0 || !opcodes.contains (opOf w)) i)) ∧
    (∃ s : State, ∃ slot : Fin 4096, ∃ k : Fin 21, ∃ c : Cmd, ∃ l : CutList, ∃ w : Nat, ∃ pc : Nat, s.ctlInstr slot.val (ctlKey k) = some (c, l, w, pc) ∧ opOf w = 0 ∧ wordOk w = true) ∧
    (∃ s : State, ∃ p : Fin 68, ∃ x : Fin 4, ∃ i : Iss, ∃ n : Nat, issues s p x (isOp 0x01) i ∧ ((bits i.w 20 3 = 0 ∧ n = bits i.w 32 32) ∨ (bits i.w 20 3 = 1 ∧ bits i.w 48 16 ≠ 0 ∧ n = cdiv ((i.c.regs i.w).sr (bits i.w 32 3)) (bits i.w 48 16)) ∨ (bits i.w 20 3 = 2 ∧ n = (i.c.regs i.w).ir (bits i.w 32 5))) ∧ n ≠ 0) ∧
    (∃ s : State, ∃ p : Fin 68, ∃ x : Fin 4, ∃ i : Iss, ∃ n : Nat, issues s p x (isOp 0x01) i ∧ ((bits i.w 20 3 = 0 ∧ n = bits i.w 32 32) ∨ (bits i.w 20 3 = 1 ∧ bits i.w 48 16 ≠ 0 ∧ n = cdiv ((i.c.regs i.w).sr (bits i.w 32 3)) (bits i.w 48 16)) ∨ (bits i.w 20 3 = 2 ∧ n = (i.c.regs i.w).ir (bits i.w 32 5))) ∧ n = 0) ∧
    (∃ s : State, ∃ p : Fin 68, ∃ x : Fin 4, ∃ i : Iss, issues s p x (isOp 0x02) i ∧ i.c.loops = []) ∧
    (∃ s : State, ∃ p : Fin 68, ∃ x : Fin 4, ∃ i : Iss, ∃ e : LoopEnt, ∃ rest : List LoopEnt, ∃ w : Nat, ∃ c1 : IssueCtx, ∃ c2 : IssueCtx, issues s p x (isOp 0x02) i ∧ i.c.loops = e :: rest ∧ w = i.code.code.getD e.start 0 ∧ e.iter + 1 < e.n ∧ c1 = IssueCtx.setI { i.c with loops := { e with iter := e.iter + 1 } :: rest, pc := e.start + 1 } (bits w 23 5) ((i.c.regs w).ir (bits w 23 5) + bits w 64 12) ∧ c2 = c1.setA (bits w 76 4) (addrAdd (c1.areg.getD (bits w 76 4) 0).toNat (64 * sgn 20 (bits w 80 20)))) ∧
    (∃ s : State, ∃ p : Fin 68, ∃ x : Fin 4, ∃ i : Iss, ∃ e : LoopEnt, ∃ rest : List LoopEnt, ∃ w : Nat, issues s p x (isOp 0x02) i ∧ i.c.loops = e :: rest ∧ w = i.code.code.getD e.start 0 ∧ e.n ≤ e.iter + 1) ∧
    (∃ s : State, ∃ p : Fin 68, ∃ x : Fin 4, ∃ i : Iss, ∃ t : Bool, (issues s p x (fun w => opOf w == 0x40 && bits w 20 4 != 4) i) ∧ ((bits i.w 20 4 = 0 ∧ t = true) ∨ (bits i.w 20 4 = 1 ∧ t = decide ((i.c.regs i.w).sr (bits i.w 37 3) ≤ (i.c.regs i.w).ir (bits i.w 27 5) * bits i.w 56 16)) ∨ (bits i.w 20 4 = 2 ∧ t = decide ((i.c.regs i.w).ir (bits i.w 32 5) ≤ (i.c.regs i.w).ir (bits i.w 27 5))) ∨ (bits i.w 20 4 = 3 ∧ t = decide ((i.c.regs i.w).ir (bits i.w 27 5) = 0))) ∧ bits i.w 25 2 = 0 ∧ bits i.w 40 16 ≠ 0) ∧
    (∃ s : State, ∃ p : Fin 68, ∃ x : Fin 4, ∃ i : Iss, ∃ t : Bool, ∃ e, ∃ rest, (issues s p x (fun w => opOf w == 0x40 && bits w 20 4 != 4) i) ∧ ((bits i.w 20 4 = 0 ∧ t = true) ∨ (bits i.w 20 4 = 1 ∧ t = decide ((i.c.regs i.w).sr (bits i.w 37 3) ≤ (i.c.regs i.w).ir (bits i.w 27 5) * bits i.w 56 16)) ∨ (bits i.w 20 4 = 2 ∧ t = decide ((i.c.regs i.w).ir (bits i.w 32 5) ≤ (i.c.regs i.w).ir (bits i.w 27 5))) ∨ (bits i.w 20 4 = 3 ∧ t = decide ((i.c.regs i.w).ir (bits i.w 27 5) = 0))) ∧ bits i.w 25 2 = 1 ∧ i.c.loops = e :: rest) ∧
    (∃ s : State, ∃ p : Fin 68, ∃ x : Fin 4, ∃ i : Iss, ∃ t : Bool, (issues s p x (fun w => opOf w == 0x40 && bits w 20 4 != 4) i) ∧ ((bits i.w 20 4 = 0 ∧ t = true) ∨ (bits i.w 20 4 = 1 ∧ t = decide ((i.c.regs i.w).sr (bits i.w 37 3) ≤ (i.c.regs i.w).ir (bits i.w 27 5) * bits i.w 56 16)) ∨ (bits i.w 20 4 = 2 ∧ t = decide ((i.c.regs i.w).ir (bits i.w 32 5) ≤ (i.c.regs i.w).ir (bits i.w 27 5))) ∨ (bits i.w 20 4 = 3 ∧ t = decide ((i.c.regs i.w).ir (bits i.w 27 5) = 0))) ∧ bits i.w 25 2 = 2) ∧
    (∃ s : State, ∃ p : Fin 68, ∃ x : Fin 4, ∃ i : Iss, (issues s p x (fun w => opOf w == 0x40 && bits w 20 4 != 4) i) ∧ 4 < bits i.w 20 4) :=
  ⟨⟨run [0x0] (ic), 0, 0, isx [0x0] (ic), by unfold issues; decide +kernel⟩,
   ⟨quad [0, 0x78], 0, 0, cmdQ, { lst [0, 0x78] with level := 1 }, 0, 0, by decide +kernel⟩,
   ⟨run [0x300000001, 0x2] (ic), 0, 0, isx [0x300000001, 0x2] (ic), 3, by unfold issues; decide +kernel⟩,
   ⟨run [0x200001, 0x2] (ic), 0, 0, isx [0x200001, 0x2] (ic), 0, by unfold issues; decide +kernel⟩,
   ⟨run [0x2] (ic), 0, 0, isx [0x2] (ic), by unfold issues; decide +kernel⟩,
   ⟨run [0xfffff10070000000302800001, 0x2] ({ ic with pc := 1, loops := [loop1] }), 0, 0, isx [0xfffff10070000000302800001, 0x2] ({ ic with pc := 1, loops := [loop1] }), loop1, [], 0xfffff10070000000302800001, (IssueCtx.setI { ic with pc := 1, loops := [{ loop1 with iter := 2 }] } 5 7), (IssueCtx.setA (IssueCtx.setI { ic with pc := 1, loops := [{ loop1 with iter := 2 }] } 5 7) 1 (2 ^ 48 - 64)), by unfold issues; decide +kernel⟩,
   ⟨run [0x10000000000202800001, 0x2] ({ ic with pc := 1, loops := [{ loop1 with n := 2 }] }), 0, 0, isx [0x10000000000202800001, 0x2] ({ ic with pc := 1, loops := [{ loop1 with n := 2 }] }), { loop1 with n := 2 }, [], 0x10000000000202800001, by unfold issues; decide +kernel⟩,
   ⟨run [0x10000000040, 0x0] (ic), 0, 0, isx [0x10000000040, 0x0] (ic), true, by unfold issues; decide +kernel⟩,
   ⟨run [0x300000001, 0x3000040, 0x2] ({ ic with pc := 1, loops := [loop1] }), 0, 0, isx [0x300000001, 0x3000040, 0x2] ({ ic with pc := 1, loops := [loop1] }), true, loop1, ([] : List LoopEnt), by unfold issues; decide +kernel⟩,
   ⟨run [0x300000001, 0x4300040, 0x2] ({ ic with pc := 1, loops := [loop1] }), 0, 0, isx [0x300000001, 0x4300040, 0x2] ({ ic with pc := 1, loops := [loop1] }), true, by unfold issues; decide +kernel⟩,
   ⟨run [0xf00040] (ic), 0, 0, isx [0xf00040] (ic), by unfold issues; decide +kernel⟩⟩

theorem wit_ChangeMapSkip :
    (∃ s : State, ∃ s1 : State, ∃ p : Fin 68, ∃ x : Fin 4, ∃ i : Iss, ∃ q : Plane, ∃ t : Bool, ∃ c : IssueCtx, (issues s p x (fun w => opOf w == 0x40 && bits w 20 4 == 4) i) ∧ bits i.w 106 8 ≠ 0 ∧ bits i.w 114 8 ≠ 0 ∧ s.rangeCode i.part p.val [0] ((i.c.regs i.w).aop 72) 64 = 0 ∧ ((s1 = s ∧ (s.bole p.val).plane = some q ∧ q.slot = i.c.slot ∧ q.ctx = x.val ∧ q.addr = ((i.c.regs i.w).aop 72).addr) ∨ ((∀ r, (s.bole p.val).plane = some r → ¬ (r.slot = i.c.slot ∧ r.ctx = x.val ∧ r.addr = ((i.c.regs i.w).aop 72).addr)) ∧ s.loadPlane i ((i.c.regs i.w).aop 72).addr = .ok s1 ∧ (s1.bole p.val).plane = some q)) ∧ (t = true ↔ q.forced = false ∧ ∀ v ∈ q.changed, ¬ ((i.c.regs i.w).ir (bits i.w 96 5) ≤ v % 256 + bits i.w 122 6 ∧ v % 256 < (i.c.regs i.w).ir (bits i.w 96 5) + bits i.w 106 8 + bits i.w 122 6 ∧ (i.c.regs i.w).ir (bits i.w 101 5) ≤ v / 256 + bits i.w 122 6 ∧ v / 256 < (i.c.regs i.w).ir (bits i.w 101 5) + bits i.w 114 8 + bits i.w 122 6)) ∧ i.c.skip i.code.code i.w t = .ok c) ∧
    (∃ s : State, ∃ p : Fin 68, ∃ x : Fin 4, ∃ i : Iss, (issues s p x (fun w => opOf w == 0x40 && bits w 20 4 == 4) i) ∧ (bits i.w 106 8 = 0 ∨ bits i.w 114 8 = 0)) ∧
    (∃ s : State, ∃ s1 : State, ∃ i : Iss, ∃ a : Nat, ∃ h : List Byte, s.locRead i.part i.p ⟨0, a⟩ 64 = .ok h ∧ (MapHdr.of h).usable ((s.streamCtx i.cmd).map (·.1)) = true ∧ s.loadPlane i a = .ok s1) :=
  ⟨⟨mem (onBole (run [0x40400000000000000010000400040, 0x0] ic) fun b => { b with plane := some ⟨0, 0, 0, 2, 2, false, [0]⟩ }) 0 map1, mem (onBole (run [0x40400000000000000010000400040, 0x0] ic) fun b => { b with plane := some ⟨0, 0, 0, 2, 2, false, [0]⟩ }) 0 map1, 0, 0, isx [0x40400000000000000010000400040, 0x0] ic, ⟨0, 0, 0, 2, 2, false, [0]⟩, false, { ic with pc := 1 }, (by unfold issues; decide +kernel), by decide +kernel, by decide +kernel, by decide +kernel, (.inl (by decide +kernel)), (by decide +kernel), (rfl)⟩,
   ⟨run [0x10000400040, 0x0] (ic), 0, 0, isx [0x10000400040, 0x0] (ic), by unfold issues; decide +kernel⟩,
   ⟨mem (run [0x40400000000000000010000400040, 0x0] ic) 0 map1, got r0 ((mem (run [0x40400000000000000010000400040, 0x0] ic) 0 map1).loadPlane (isx [0x40400000000000000010000400040, 0x0] ic) 0), isx [0x40400000000000000010000400040, 0x0] ic, 0, map1.take 64, (got_is [] _ _ (by decide +kernel) (by decide +kernel)), (by decide +kernel), (got_eq _ _ (by decide +kernel))⟩⟩

theorem wit_WaitsSignalsStatistics :
    (∃ s : State, ∃ p : Fin 68, ∃ x : Fin 4, ∃ i : Iss, ∃ k : Nat, (issues s p x (fun w => opOf w == 0x60 && !w.testBit 20) i) ∧ tfree (s.bole p.val).stats 4 = some k ∧ fmtOk (bits i.w 96 4) = true) ∧
    (∃ s : State, ∃ p : Fin 68, ∃ x : Fin 4, ∃ i : Iss, (issues s p x (fun w => opOf w == 0x60 && !w.testBit 20) i) ∧ tfree (s.bole p.val).stats 4 = none) ∧
    (∃ s : State, ∃ s1 : State, ∃ p : Fin 68, ∃ x : Fin 4, ∃ i : Iss, ∃ n : Nat, ∃ t : StatSlot, ∃ l : Loc, ∃ arg : Nat, ∃ o : Nat, ∃ old : List Byte, ∃ data : List Byte, (issues s p x (fun w => opOf w == 0x60 && w.testBit 20) i) ∧ n = (i.c.regs i.w).ir (bits i.w 21 5) ∧ l = (i.c.regs i.w).aop 32 ∧ tget (s.bole p.val).stats n = some t ∧ t.slot = i.c.slot ∧ t.ctx = x.val ∧ s.rangeCode i.part p.val [0] l 32 = 0 ∧ (((List.range 8).findSome? fun k => (s.regionOf i.cmd i.code k l.addr 32).map fun o => (k, o)) = some (arg, o)) ∧ s.locRead i.part p.val l 32 = .ok old ∧ t.add i.cmd.desc.step old = (data, false) ∧ s.locWrite i.part p.val l data = .ok s1) ∧
    (∃ s : State, ∃ p : Fin 68, ∃ x : Fin 4, ∃ i : Iss, (issues s p x (fun w => opOf w == 0x60 && w.testBit 20) i) ∧ tget (s.bole p.val).stats ((i.c.regs i.w).ir (bits i.w 21 5)) = none) ∧
    (∃ t : StatSlot, ∃ r : List Byte, field r 8 8 + t.total < 2 ^ 64 ∧ field r 16 4 + t.hi < 2 ^ 32 ∧ field r 20 4 + t.lo < 2 ^ 32 ∧ field r 24 4 + t.nan < 2 ^ 32 ∧ t.sat = false) ∧
    (∃ s : State, ∃ p : Fin 68, ∃ x : Fin 4, ∃ i : Iss, ∃ l : Loc, (issues s p x (fun w => opOf w == 0x38 && !w.testBit 23) i) ∧ l = (i.c.regs i.w).aop 32 ∧ (i.w.testBit 22 = true → 2 ≤ bits i.w 20 2) ∧ bits i.w 56 24 ≠ 0 ∧ l.addr % 64 = 0 ∧ l.space ≠ 3) ∧
    (∃ s : State, ∃ p : Fin 68, ∃ x : Fin 4, ∃ i : Iss, (issues s p x (fun w => opOf w == 0x38 && w.testBit 23) i)) ∧
    (∃ s : State, ∃ p : Fin 68, ∃ x : Fin 4, ∃ i : Iss, (issues s p x (fun w => opOf w == 0x58 && (bits w 20 3 == 0 || 2 < bits w 20 3)) i) ∧ bits i.w 20 3 = 0 ∧ bits i.w 32 32 ≤ i.c.sems.getD (bits i.w 24 4) 0) ∧
    (∃ s : State, ∃ p : Fin 68, ∃ x : Fin 4, ∃ i : Iss, (issues s p x (fun w => opOf w == 0x58 && (bits w 20 3 == 0 || 2 < bits w 20 3)) i) ∧ bits i.w 20 3 = 0 ∧ i.c.sems.getD (bits i.w 24 4) 0 < bits i.w 32 32) ∧
    (∃ s : State, ∃ p : Fin 68, ∃ x : Fin 4, ∃ i : Iss, ∃ e : Win, (issues s p x (fun w => opOf w == 0x58 && bits w 20 3 == 1) i) ∧ tget (s.winTab p.val (i.w.testBit 28)) (bits i.w 24 4) = some e ∧ e.state = 2) ∧
    (∃ s : State, ∃ p : Fin 68, ∃ x : Fin 4, ∃ i : Iss, ∃ e : Win, (issues s p x (fun w => opOf w == 0x58 && bits w 20 3 == 1) i) ∧ tget (s.winTab p.val (i.w.testBit 28)) (bits i.w 24 4) = some e ∧ e.state = 3) ∧
    (∃ s : State, ∃ p : Fin 68, ∃ x : Fin 4, ∃ i : Iss, ∃ e : Win, (issues s p x (fun w => opOf w == 0x58 && bits w 20 3 == 1) i) ∧ tget (s.winTab p.val (i.w.testBit 28)) (bits i.w 24 4) = some e ∧ e.state = 1 ∧ (e.expiry = noStamp ∨ stLt s.now e.expiry = true)) ∧
    (∃ s : State, ∃ p : Fin 68, ∃ x : Fin 4, ∃ i : Iss, (issues s p x (fun w => opOf w == 0x58 && bits w 20 3 == 2) i)) ∧
    (∃ s : State, ∃ p : Fin 68, ∃ x : Fin 4, ∃ i : Iss, (issues s p x (fun w => opOf w == 0x59 && !w.testBit 20) i) ∧ bits i.w 32 16 ≠ 0 ∧ (i.w.testBit 21 = true ∧ ∃ f ∈ i.c.flight, f.dmaMove = true)) ∧
    (∃ s : State, ∃ p : Fin 68, ∃ x : Fin 4, ∃ i : Iss, (issues s p x (fun w => opOf w == 0x59 && !w.testBit 20) i) ∧ bits i.w 32 16 ≠ 0 ∧ (i.w.testBit 21 = false ∨ ∀ f ∈ i.c.flight, f.dmaMove = false)) ∧
    (∃ s : State, ∃ s' : State, ∃ p : Fin 68, ∃ x : Fin 4, ∃ i : Iss, ∃ n : Nat, ∃ q : Nat, ∃ y : Nat, ∃ c : IssueCtx, ∃ d : IssueCtx, (issues s p x (fun w => opOf w == 0x59 && w.testBit 20) i) ∧ n = bits i.w 22 6 ∧ bits i.w 32 16 ≠ 0 ∧ sigHeld i = false ∧ n ∈ compBoles (compOf i.cmd.desc.target) ∧ n ∈ i.cmd.shares ∧ q = s.physOf n ∧ s' = s.setCtx p.val x.val i.c.next ∧ ((s'.bole q).ctxs.find? (fun e => e.2.slot == i.c.slot) = some (y, c)) ∧ (d = (if y = x.val ∧ q = p.val then i.c.next else c))) ∧
    (∃ s : State, ∃ s' : State, ∃ p : Fin 68, ∃ x : Fin 4, ∃ i : Iss, ∃ n : Nat, ∃ q : Nat, (issues s p x (fun w => opOf w == 0x59 && w.testBit 20) i) ∧ n = bits i.w 22 6 ∧ bits i.w 32 16 ≠ 0 ∧ sigHeld i = false ∧ n ∈ compBoles (compOf i.cmd.desc.target) ∧ n ∈ i.cmd.shares ∧ q = s.physOf n ∧ s' = s.setCtx p.val x.val i.c.next ∧ ((s'.bole q).ctxs.find? (fun e => e.2.slot == i.c.slot) = none) ∧ n ∉ i.cmd.reported ∧ (s'.bole q).pendSig.length < 64) ∧
    (∃ s : State, ∃ p : Fin 68, ∃ x : Fin 4, ∃ i : Iss, (issues s p x (fun w => opOf w == 0x59 && w.testBit 20) i) ∧ bits i.w 32 16 ≠ 0 ∧ sigHeld i = false ∧ (bits i.w 22 6 ∉ compBoles (compOf i.cmd.desc.target) ∨ bits i.w 22 6 ∉ i.cmd.shares)) :=
  ⟨⟨run [0x3000000090000000000800060] (ic), 0, 0, isx [0x3000000090000000000800060] (ic), 0, by unfold issues; decide +kernel⟩,
   ⟨onBole (run [0x60] ic) (fun b => { b with stats := [(0, st1), (1, st1), (2, st1), (3, st1)] }), 0, 0, isx [0x60] ic, by unfold issues; decide +kernel⟩,
   ⟨mem (onBole (statS [0x100060]) fun b => { b with stats := [(0, st1)] }) 0 (leBytes 72 0 ++ leBytes 8 4096 ++ leBytes 48 0), got r0 ((mem (onBole (statS [0x100060]) fun b => { b with stats := [(0, st1)] }) 0 (leBytes 72 0 ++ leBytes 8 4096 ++ leBytes 48 0)).locWrite 1 0 ⟨0, 0⟩ (st1.add 0 (leBytes 32 0)).1), 0, 0, { isx [0x100060] ic with cmd := cmdS, code := { lst [0x100060] with outMask := 1 } }, 0, st1, ⟨0, 0⟩, 0, 0, leBytes 32 0, (st1.add 0 (leBytes 32 0)).1, (by unfold issues; decide +kernel), by decide +kernel, by decide +kernel, by decide +kernel, by decide +kernel, by decide +kernel, by decide +kernel, by decide +kernel, (got_is [] _ _ (by decide +kernel) (by decide +kernel)), by decide +kernel, (got_eq _ _ (by decide +kernel))⟩,
   ⟨run [0x100060] (ic), 0, 0, isx [0x100060] (ic), by unfold issues; decide +kernel⟩,
   ⟨st1, leBytes 32 0, by decide +kernel⟩,
   ⟨run [0x100000000600038] (ic), 0, 0, isx [0x100000000600038] (ic), ⟨0, 0⟩, by unfold issues; decide +kernel⟩,
   ⟨run [0x800038] (ic), 0, 0, isx [0x800038] (ic), by unfold issues; decide +kernel⟩,
   ⟨run [0x203800058] ({ ic with sems := setAt ic.sems 3 2 }), 0, 0, isx [0x203800058] ({ ic with sems := setAt ic.sems 3 2 }), by unfold issues; decide +kernel⟩,
   ⟨run [0x203800058] ({ ic with sems := setAt ic.sems 3 1 }), 0, 0, isx [0x203800058] ({ ic with sems := setAt ic.sems 3 1 }), by unfold issues; decide +kernel⟩,
   ⟨onBole (run [0x3100058] ic) (fun b => { b with wins := [(3, { win1 with state := 2 })] }), 0, 0, isx [0x3100058] ic, { win1 with state := 2 }, by unfold issues; decide +kernel⟩,
   ⟨onBole (run [0x3100058] ic) (fun b => { b with wins := [(3, { win1 with state := 3 })] }), 0, 0, isx [0x3100058] ic, { win1 with state := 3 }, by unfold issues; decide +kernel⟩,
   ⟨onBole (run [0x3100058] ic) (fun b => { b with wins := [(3, { win1 with state := 1 })] }), 0, 0, isx [0x3100058] ic, { win1 with state := 1 }, by unfold issues; decide +kernel⟩,
   ⟨run [0x200058] (ic), 0, 0, isx [0x200058] (ic), by unfold issues; decide +kernel⟩,
   ⟨run [0x100200059] ({ ic with flight := [⟨.dma, some 3, true, none, []⟩] }), 0, 0, isx [0x100200059] ({ ic with flight := [⟨.dma, some 3, true, none, []⟩] }), (by unfold issues; decide +kernel), (by decide +kernel), (by decide +kernel)⟩,
   ⟨run [0xfffff0000059] (ic), 0, 0, isx [0xfffff0000059] (ic), by unfold issues; decide +kernel⟩,
   ⟨{ quad [0x640100059] with boles := [(0, { Bole.new with ctxs := [(0, ic)] })] }, ({ quad [0x640100059] with boles := [(0, { Bole.new with ctxs := [(0, ic)] })] }.setCtx 0 0 ic.next), 0, 0, { isx [0x640100059] ic with cmd := cmdQ, code := { lst [0x640100059] with level := 1 } }, 0, 0, 0, ic.next, ic.next, by unfold issues; decide +kernel⟩,
   ⟨{ quad [0x640500059] with boles := [(0, { Bole.new with ctxs := [(0, ic)] })] }, ({ quad [0x640500059] with boles := [(0, { Bole.new with ctxs := [(0, ic)] })] }.setCtx 0 0 ic.next), 0, 0, { isx [0x640500059] ic with cmd := cmdQ, code := { lst [0x640500059] with level := 1 } }, 1, 1, by unfold issues; decide +kernel⟩,
   ⟨{ quad [0x641500059] with boles := [(0, { Bole.new with ctxs := [(0, ic)] })] }, 0, 0, { isx [0x641500059] ic with cmd := cmdQ, code := { lst [0x641500059] with level := 1 } }, by unfold issues; decide +kernel⟩⟩

theorem wit_TicketsAndDivision :
    (∃ s : State, ∃ p : Fin 68, ∃ x : Fin 4, ∃ i : Iss, ∃ g : Nat, ∃ n : Nat, (issues s p x (fun w => opOf w == 0x48 && bits w 20 2 == 0) i) ∧ g = bits i.w 45 2 ∧ n = bits i.w 32 13 ∧ s.segGated g 15 = false ∧ s.tallyOk i.part g (n / 512) = true) ∧
    (∃ s : State, ∃ p : Fin 68, ∃ x : Fin 4, ∃ i : Iss, ∃ g : Nat, ∃ n : Nat, (issues s p x (fun w => opOf w == 0x48 && bits w 20 2 == 0) i) ∧ g = bits i.w 45 2 ∧ n = bits i.w 32 13 ∧ s.segGated g 15 = false ∧ s.tallyOk i.part g (n / 512) = false) ∧
    (∃ s : State, ∃ slot : Fin 4096, ∃ k : Fin 21, ∃ c : Cmd, ∃ l : CutList, ∃ w : Nat, ∃ pc : Nat, s.ctlInstr slot.val (ctlKey k) = some (c, l, w, pc) ∧ opOf w = 0x48 ∧ wordOk w = true ∧ s.segGated (bits w 45 2) 15 = false ∧ s.tallyOk c.desc.part (bits w 45 2) (bits w 32 13 / 512) = true) ∧
    (∃ s : State, ∃ p : Fin 68, ∃ x : Fin 4, ∃ i : Iss, ∃ g : Nat, ∃ n : Nat, ∃ v : Nat, ∃ own : Option (Nat × Nat), (issues s p x (fun w => opOf w == 0x48 && bits w 20 2 == 1) i) ∧ g = bits i.w 45 2 ∧ n = bits i.w 32 13 ∧ bits i.w 64 16 ≠ 0 ∧ (∀ t, i.c.tickets = some t → t.ctr ≠ g * 8192 + n ∨ t.fixed = false) ∧ s.segGated g 15 = false ∧ tgetD (s.land g).tally n (0, none) = (v, own) ∧ s.tallyOk i.part g (n / 512) = true ∧ v < 2 ^ 32 ∧ (∀ t, i.c.tickets = some t → t.ctr = g * 8192 + n → v < t.total)) ∧
    (∃ s : State, ∃ p : Fin 68, ∃ x : Fin 4, ∃ i : Iss, ∃ g : Nat, ∃ n : Nat, ∃ v : Nat, ∃ own : Option (Nat × Nat), ∃ t, (issues s p x (fun w => opOf w == 0x48 && bits w 20 2 == 1) i) ∧ g = bits i.w 45 2 ∧ n = bits i.w 32 13 ∧ bits i.w 64 16 ≠ 0 ∧ (∀ t, i.c.tickets = some t → t.ctr ≠ g * 8192 + n ∨ t.fixed = false) ∧ s.segGated g 15 = false ∧ tgetD (s.land g).tally n (0, none) = (v, own) ∧ s.tallyOk i.part g (n / 512) = true ∧ v < 2 ^ 32 ∧ i.c.tickets = some t ∧ t.ctr = g * 8192 + n ∧ t.total ≤ v) ∧
    (∃ s : State, ∃ p : Fin 68, ∃ x : Fin 4, ∃ i : Iss, ∃ g : Nat, ∃ n : Nat, ∃ v : Nat, ∃ own : Option (Nat × Nat), (issues s p x (fun w => opOf w == 0x48 && bits w 20 2 == 1) i) ∧ g = bits i.w 45 2 ∧ n = bits i.w 32 13 ∧ bits i.w 64 16 ≠ 0 ∧ (∀ t, i.c.tickets = some t → t.ctr ≠ g * 8192 + n ∨ t.fixed = false) ∧ s.segGated g 15 = false ∧ tgetD (s.land g).tally n (0, none) = (v, own) ∧ s.tallyOk i.part g (n / 512) = true ∧ 2 ^ 32 ≤ v) ∧
    (∃ s : State, ∃ p : Fin 68, ∃ x : Fin 4, ∃ i : Iss, ∃ g : Nat, ∃ n : Nat, ∃ v : Nat, ∃ own : Option (Nat × Nat), (issues s p x (fun w => opOf w == 0x48 && bits w 20 2 == 1) i) ∧ g = bits i.w 45 2 ∧ n = bits i.w 32 13 ∧ bits i.w 64 16 ≠ 0 ∧ (∀ t, i.c.tickets = some t → t.ctr ≠ g * 8192 + n ∨ t.fixed = false) ∧ s.segGated g 15 = false ∧ tgetD (s.land g).tally n (0, none) = (v, own) ∧ s.tallyOk i.part g (n / 512) = false) ∧
    (∃ s : State, ∃ p : Fin 68, ∃ x : Fin 4, ∃ i : Iss, ∃ t : TicketSrc, (issues s p x (fun w => opOf w == 0x48 && bits w 20 2 == 1) i) ∧ bits i.w 64 16 ≠ 0 ∧ i.c.tickets = some t ∧ t.fixed = true ∧ t.ctr = bits i.w 45 2 * 8192 + bits i.w 32 13 ∧ t.taken < t.count) ∧
    (∃ s : State, ∃ p : Fin 68, ∃ x : Fin 4, ∃ i : Iss, ∃ t : TicketSrc, (issues s p x (fun w => opOf w == 0x48 && bits w 20 2 == 1) i) ∧ bits i.w 64 16 ≠ 0 ∧ i.c.tickets = some t ∧ t.fixed = true ∧ t.ctr = bits i.w 45 2 * 8192 + bits i.w 32 13 ∧ t.count ≤ t.taken) ∧
    (∃ w : Nat, w.testBit 27 = false ∧ w.testBit 28 = false) ∧
    (∃ s : State, ∃ p : Fin 68, ∃ x : Fin 4, ∃ i : Iss, ∃ g : Nat, ∃ n : Nat, (issues s p x (fun w => opOf w == 0x48 && 2 ≤ bits w 20 2) i) ∧ g = bits i.w 45 2 ∧ n = bits i.w 32 13 ∧ bits i.w 20 2 = 2 ∧ s.segGated g 15 = false ∧ s.tallyOk i.part g (n / 512) = true) ∧
    (∃ s : State, ∃ p : Fin 68, ∃ x : Fin 4, ∃ i : Iss, ∃ g : Nat, ∃ n : Nat, (issues s p x (fun w => opOf w == 0x48 && 2 ≤ bits w 20 2) i) ∧ g = bits i.w 45 2 ∧ n = bits i.w 32 13 ∧ bits i.w 20 2 = 3) ∧
    (∃ s : State, ∃ slot : Fin 4096, ∃ k : Fin 21, ∃ c : Cmd, ∃ l : CutList, ∃ w : Nat, ∃ pc : Nat, s.ctlInstr slot.val (ctlKey k) = some (c, l, w, pc) ∧ opOf w = 0x78 ∧ wordOk w = true ∧ bits w 20 2 ≠ 3 ∧ bits w 48 16 ≠ 0) ∧
    (∃ r : Nat, ∃ c : Nat, 0 < c ∧ r < c) ∧
    (∃ c : Nat, ∃ n : Nat, ∃ v : Nat, 0 < c ∧ v < n) ∧
    (∃ c : Nat, ∃ n : Nat, ∃ v : Nat, 0 < c ∧ v < n) :=
  ⟨⟨tal 7 (run [0x70000000300000048] (ic)), 0, 0, isx [0x70000000300000048] (ic), 0, 3, by unfold issues; decide +kernel⟩,
   ⟨tal 7 (run [0x70000040100000048] (ic)), 0, 0, isx [0x70000040100000048] (ic), 0, 1025, by unfold issues; decide +kernel⟩,
   ⟨tal 7 (quad [0x70000000300000048, 0x78]), 0, 0, cmdQ, { lst [0x70000000300000048, 0x78] with level := 1 }, 0x70000000300000048, 0, by decide +kernel⟩,
   ⟨tal 7 (run [0x100010002000309500048] (ic)), 0, 0, isx [0x100010002000309500048] (ic), 0, 3, 7, (none : Option (Nat × Nat)), (by unfold issues; decide +kernel), (by decide +kernel), (by decide +kernel), (by decide +kernel), (by intro t h; cases h), (by decide +kernel), (by decide +kernel), (by decide +kernel), (by decide +kernel), (by intro t h; cases h)⟩,
   ⟨tal 16 (run [0x100010002000309500048] ({ ic with tickets := some { tk1 with fixed := false } })), 0, 0, isx [0x100010002000309500048] ({ ic with tickets := some { tk1 with fixed := false } }), 0, 3, 16, (none : Option (Nat × Nat)), ({ tk1 with fixed := false } : TicketSrc), (by unfold issues; decide +kernel), (by decide +kernel), (by decide +kernel), (by decide +kernel), (by intro t h; cases h; exact .inr rfl), (by decide +kernel), (by decide +kernel), (by decide +kernel), (by decide +kernel), (by decide +kernel), (by decide +kernel), (by decide +kernel)⟩,
   ⟨tal (2 ^ 32) (run [0x100010002000309500048] (ic)), 0, 0, isx [0x100010002000309500048] (ic), 0, 3, 2 ^ 32, (none : Option (Nat × Nat)), (by unfold issues; decide +kernel), (by decide +kernel), (by decide +kernel), (by decide +kernel), (by intro t h; cases h), (by decide +kernel), (by decide +kernel), (by decide +kernel), (by decide +kernel)⟩,
   ⟨tal 7 (run [0x10000040101500048] (ic)), 0, 0, isx [0x10000040101500048] (ic), 0, 1025, 0, (none : Option (Nat × Nat)), (by unfold issues; decide +kernel), (by decide +kernel), (by decide +kernel), (by decide +kernel), (by intro t h; cases h), (by decide +kernel), (by decide +kernel), (by decide +kernel)⟩,
   ⟨run [0x100010002000309500048] ({ ic with tickets := some tk1 }), 0, 0, isx [0x100010002000309500048] ({ ic with tickets := some tk1 }), tk1, by unfold issues; decide +kernel⟩,
   ⟨run [0x100010002000309500048] ({ ic with tickets := some { tk1 with taken := 4 } }), 0, 0, isx [0x100010002000309500048] ({ ic with tickets := some { tk1 with taken := 4 } }), { tk1 with taken := 4 }, by unfold issues; decide +kernel⟩,
   ⟨0, by decide +kernel⟩,
   ⟨tal 7 (run [0x301600048] (ic)), 0, 0, isx [0x301600048] (ic), 0, 3, by unfold issues; decide +kernel⟩,
   ⟨tal 7 (run [0x300300048] (ic)), 0, 0, isx [0x300300048] (ic), 0, 3, by unfold issues; decide +kernel⟩,
   ⟨quad [0x3000202100078], 0, 0, cmdQ, { lst [0x3000202100078] with level := 1 }, 0x3000202100078, 0, by decide +kernel⟩,
   ⟨2, 3, by decide +kernel⟩,
   ⟨3, 8, 7, by decide +kernel⟩,
   ⟨3, 8, 7, by decide +kernel⟩⟩

theorem wit_Windows :
    (∃ s : State, ∃ p : Fin 68, ∃ x : Fin 4, ∃ i : Iss, ∃ a : Loc, ∃ d : List Byte, (issues s p x (fun w => opOf w == 0x50 && !w.testBit 20) i) ∧ a = (i.c.regs i.w).aop 32 ∧ s.rangeCode i.part p.val [2] a 32 8 = 0 ∧ d = (s.bole p.val).bytes a.addr 32 ∧ s.winCheck i.part p.val (bits i.w 22 4) (i.w.testBit 21) (field d 0 4) (field d 4 4) = 0) ∧
    (∃ s : State, ∃ p : Fin 68, ∃ x : Fin 4, ∃ i : Iss, ∃ a : Loc, ∃ d : List Byte, ∃ c, (issues s p x (fun w => opOf w == 0x50 && !w.testBit 20) i) ∧ a = (i.c.regs i.w).aop 32 ∧ s.rangeCode i.part p.val [2] a 32 8 = 0 ∧ d = (s.bole p.val).bytes a.addr 32 ∧ c ≠ 0 ∧ s.winCheck i.part p.val (bits i.w 22 4) (i.w.testBit 21) (field d 0 4) (field d 4 4) = c) ∧
    (∃ s : State, ∃ p : Fin 68, ∃ x : Fin 4, ∃ i : Iss, ∃ v, (issues s p x (fun w => opOf w == 0x50 && w.testBit 20) i) ∧ tget (s.winTab p.val (i.w.testBit 21)) (bits i.w 22 4) = some v ∧ v.slot = i.c.slot ∧ v.opener = i.cmd.order ∧ i.cmd.phase = .running) ∧
    (∃ s : State, ∃ p : Fin 68, ∃ x : Fin 4, ∃ i : Iss, ∃ v : Win, ∃ u : State, (issues s p x (fun w => opOf w == 0x50 && w.testBit 20) i) ∧ tget (s.winTab p.val (i.w.testBit 21)) (bits i.w 22 4) = some v ∧ v.slot = i.c.slot ∧ v.opener = i.cmd.order ∧ i.cmd.phase = .saving ∧ u = (s.setWinTab p.val (i.w.testBit 21) (tput (s.winTab p.val (i.w.testBit 21)) (bits i.w 22 4) { v with state := 0, ids := [] })).setCtx p.val x.val i.c.next ∧ u.windowOpen i.c.slot = false) ∧
    (∃ s : State, ∃ p : Fin 68, ∃ x : Fin 4, ∃ i : Iss, (issues s p x (fun w => opOf w == 0x50 && w.testBit 20) i) ∧ (∀ v, tget (s.winTab p.val (i.w.testBit 21)) (bits i.w 22 4) = some v → v.slot ≠ i.c.slot ∨ v.opener ≠ i.cmd.order)) ∧
    (∃ s : State, ∃ dst : Fin 68, ∃ w : Fin 16, ∃ q : Nat, ∃ v : Win, (q = (if 64 ≤ dst.val then 17 * (dst.val - 64) else s.physOf dst.val)) ∧ tget (s.winTab q (decide (64 ≤ dst.val))) w.val = some v ∧ v.state = 1 ∧ v.expiry ≠ noStamp ∧ stLt s.now v.expiry = false) ∧
    (∃ s : State, ∃ dst : Fin 68, ∃ w : Fin 16, ∃ q : Nat, ∃ v : Win, (q = (if 64 ≤ dst.val then 17 * (dst.val - 64) else s.physOf dst.val)) ∧ tget (s.winTab q (decide (64 ≤ dst.val))) w.val = some v ∧ (v.state ≠ 1 ∨ v.expiry = noStamp ∨ stLt s.now v.expiry = true)) ∧
    (∃ s : State, ∃ r : RemoteW, ∃ stamp : Nat, ∃ v : Win, r.dst < 64 ∧ r.src < 64 ∧ r.win < 16 ∧ tget (s.bole (s.physOf r.dst)).wins r.win = some v ∧ v.state = 1 ∧ v.src.testBit r.src = true ∧ r.part = v.part ∧ (v.expiry = noStamp ∨ stLt stamp v.expiry = true) ∧ r.off % 8 = 0 ∧ r.data.length % 8 = 0 ∧ v.base + r.off + r.data.length ≤ v.limit ∧ (∀ k ∈ banksOf (v.base + r.off) r.data.length, s.gated (s.physOf r.dst) k = false)) ∧
    (∃ s : State, ∃ r : RemoteW, ∃ stamp : Nat, ∃ c : Nat, ∃ w : Option Win, s.winTest r stamp = (.reject c, w)) ∧
    (∃ s : State, ∃ r : RemoteW, ∃ v : Win, r.dst < 64 ∧ r.src < 64 ∧ r.win < 16 ∧ tget (s.bole (s.physOf r.dst)).wins r.win = some v ∧ v.state = 0) ∧
    (∃ s : State, ∃ r : RemoteW, ∃ v : Win, r.dst < 64 ∧ r.src < 64 ∧ r.win < 16 ∧ tget (s.bole (s.physOf r.dst)).wins r.win = some v ∧ v.state = 4) ∧
    (∃ s : State, ∃ r : RemoteW, ∃ v : Win, r.dst < 64 ∧ r.src < 64 ∧ r.win < 16 ∧ tget (s.bole (s.physOf r.dst)).wins r.win = some v ∧ v.state ≠ 0 ∧ v.state ≠ 4 ∧ v.src.testBit r.src = false) ∧
    (∃ s : State, ∃ r : RemoteW, ∃ v : Win, r.dst < 64 ∧ r.src < 64 ∧ r.win < 16 ∧ tget (s.bole (s.physOf r.dst)).wins r.win = some v ∧ v.state = 1 ∧ v.src.testBit r.src = true ∧ r.part ≠ v.part) ∧
    (∃ s : State, ∃ r : RemoteW, ∃ v : Win, r.dst < 64 ∧ r.src < 64 ∧ r.win < 16 ∧ tget (s.bole (s.physOf r.dst)).wins r.win = some v ∧ v.state = 3 ∧ v.src.testBit r.src = true ∧ r.part = v.part) ∧
    (∃ s : State, ∃ r : RemoteW, ∃ stamp : Nat, ∃ v : Win, r.dst < 64 ∧ r.src < 64 ∧ r.win < 16 ∧ tget (s.bole (s.physOf r.dst)).wins r.win = some v ∧ v.state = 2 ∧ (v.expiry = noStamp ∨ stLt stamp v.expiry = true) ∧ v.src.testBit r.src = true ∧ r.part = v.part) :=
  ⟨⟨spad (run [0x100c00050] (icS)) winRec, 0, 0, isx [0x100c00050] (icS), ⟨2, 0⟩, winRec, by unfold issues; decide +kernel⟩,
   ⟨spad (run [0x100c00050] (icS)) (leBytes 32 0), 0, 0, isx [0x100c00050] (icS), ⟨2, 0⟩, (leBytes 32 0), 0x501, by unfold issues; decide +kernel⟩,
   ⟨onBole (run [0xd00050] (ic)) (fun b => { b with wins := [(3, { win1 with opener := cmdR.order })] }), 0, 0, isx [0xd00050] (ic), { win1 with opener := cmdR.order }, by unfold issues; decide +kernel⟩,
   ⟨onBole { (run [0xd00050] ic) with cmds := [(0, { cmdR with phase := .saving })] } (fun b => { b with wins := [(3, { win1 with opener := cmdR.order })] }), 0, 0, { isx [0xd00050] ic with cmd := { cmdR with phase := .saving } }, { win1 with opener := cmdR.order }, ((onBole { (run [0xd00050] ic) with cmds := [(0, { cmdR with phase := .saving })] } (fun b => { b with wins := [(3, { win1 with opener := cmdR.order })] })).setWinTab 0 false [(3, { win1 with opener := cmdR.order, state := 0 })]).setCtx 0 0 ic.next, by unfold issues; decide +kernel⟩,
   ⟨run [0xd00050] (ic), 0, 0, isx [0xd00050] (ic), (by unfold issues; decide +kernel), (by intro t h; cases h)⟩,
   ⟨winS ({ win1 with expiry := 0 }), 0, 3, 0, { win1 with expiry := 0 }, by decide +kernel⟩,
   ⟨winS win1, 0, 3, 0, win1, by decide +kernel⟩,
   ⟨winS win2, rw1, 0, win2, by decide +kernel⟩,
   ⟨winS { win2 with state := 4 }, rw1, 0, 6, (State.winTest (winS { win2 with state := 4 }) rw1 0).2, (by exact Prod.ext (by decide +kernel) rfl)⟩,
   ⟨winS ({ win2 with state := 0 }), rw1, { win2 with state := 0 }, by decide +kernel⟩,
   ⟨winS ({ win2 with state := 4 }), rw1, { win2 with state := 4 }, by decide +kernel⟩,
   ⟨winS ({ win2 with state := 1, src := 2 }), rw1, { win2 with state := 1, src := 2 }, by decide +kernel⟩,
   ⟨winS ({ win2 with state := 1, part := 2 }), rw1, { win2 with state := 1, part := 2 }, by decide +kernel⟩,
   ⟨winS ({ win2 with state := 3 }), rw1, { win2 with state := 3 }, by decide +kernel⟩,
   ⟨winS ({ win2 with state := 2 }), rw1, 0, { win2 with state := 2 }, by decide +kernel⟩⟩

theorem wit_Shares :
    (∃ s : State, ∃ slot : Fin 4096, ∃ n : Fin 64, ∃ c : Cmd, ∃ l : CutList, tget s.cmds slot.val = some c ∧ tget s.lists c.desc.op = some l ∧ s.pow.paused = false ∧ c.forced = false ∧ c.phase = .running ∧ c.ready = false ∧ n.val ∈ c.unstarted ∧ n.val ∈ c.shares ∧ s.boleOnline n.val = true ∧ ((s.started slot.val c = true ∧ ((s.bole (s.physOf n.val)).takeCtx slot.val).isSome = true) ∨ (s.started slot.val c = false ∧ s.firstInPort slot.val c = true ∧ ∀ m ∈ c.shares, ((s.bole (s.physOf m)).takeCtx slot.val).isSome = true))) ∧
    (∃ s : State, ∃ slot : Fin 4096, ∃ n : Fin 64, ∃ c : Cmd, tget s.cmds slot.val = some c ∧ (c.phase ≠ .running ∨ n.val ∉ c.unstarted ∨ s.boleOnline n.val = false)) ∧
    (∃ s : State, ∃ p : Fin 68, ∃ x : Fin 4, ∃ c : IssueCtx, ∃ m : Cmd, ∃ l : CutList, tget (s.bole p.val).ctxs x.val = some c ∧ tget s.cmds c.slot = some m ∧ tget s.lists m.desc.op = some l ∧ s.pow.paused = false) ∧
    (∃ s : State, ∃ p : Fin 68, ∃ x : Fin 4, ∃ c : IssueCtx, ∃ m : Cmd, ∃ l : CutList, tget (s.bole p.val).ctxs x.val = some c ∧ tget s.cmds c.slot = some m ∧ tget s.lists m.desc.op = some l ∧ c.reported = false ∧ l.budget ≤ s.ctxCycles c) ∧
    (∃ s : State, ∃ p : Fin 68, ∃ x : Fin 4, ∃ c : IssueCtx, ∃ m : Cmd, ∃ l : CutList, tget (s.bole p.val).ctxs x.val = some c ∧ tget s.cmds c.slot = some m ∧ tget s.lists m.desc.op = some l ∧ s.ctxCycles c < l.budget) ∧
    (∃ s : State, ∃ p : Fin 68, ∃ x : Fin 4, ∃ i : Iss, issues s p x (isOp 0x70) i ∧ i.c.flight ≠ []) ∧
    (∃ s : State, ∃ p : Fin 68, ∃ x : Fin 4, ∃ i : Iss, ∃ n, issues s p x (isOp 0x70) i ∧ i.c.flight = [] ∧ s.logOf p.val = some n) ∧
    (∃ s : State, ∃ slot : Nat, ∃ code : Nat, (s.tilePending slot = false ∨ (code ≠ 0x701 ∧ code ≠ 0x702 ∧ code ≠ 0x704))) :=
  ⟨⟨rdyC cmdU, 0, 0, cmdU, list1, (by decide +kernel), (by decide +kernel), (by decide +kernel), (by decide +kernel), (by decide +kernel), (by decide +kernel), (by decide +kernel), (by decide +kernel), (by decide +kernel), (.inr (by decide +kernel))⟩,
   ⟨rdyC cmdU, 0, 1, cmdU, (by decide +kernel), (.inr (.inl (by decide +kernel)))⟩,
   ⟨run [0, 0] { ic with fetchedTo := 1 }, 0, 0, { ic with fetchedTo := 1 }, cmdR, lst [0, 0], by decide +kernel⟩,
   ⟨run [0] { ic with ranNs := 1334 }, 0, 0, { ic with ranNs := 1334 }, cmdR, lst [0], by decide +kernel⟩,
   ⟨run [0] ic, 0, 0, ic, cmdR, lst [0], by decide +kernel⟩,
   ⟨run [0x70] ({ ic with flight := [⟨.dma, some 3, true, none, []⟩] }), 0, 0, isx [0x70] ({ ic with flight := [⟨.dma, some 3, true, none, []⟩] }), by unfold issues; decide +kernel⟩,
   ⟨run [0x70] (ic), 0, 0, isx [0x70] (ic), 0, by unfold issues; decide +kernel⟩,
   ⟨run [0] ic, 0, 0x601, (.inl (by decide +kernel))⟩⟩

theorem wit_CommandCommit :
    (∃ s : State, ∃ slot : Fin 4096, ∃ c : Cmd, tget s.cmds slot.val = some c ∧ c.commitDue = false) ∧
    (∃ s : State, ∃ slot : Fin 4096, ∃ c : Cmd, tget s.cmds slot.val = some c ∧ c.commitDue = true ∧ s.pow.paused = false ∧ (c.committed = false ∨ c.newTickets ≠ []) ∧ s.sendDone c = true) ∧
    (∃ s : State, ∃ slot : Fin 4096, ∃ c : Cmd, ∃ q : Sq, ∃ k : Cq, s.cmds = [(slot.val, c)] ∧ c.commitDue = true ∧ s.pow.paused = false ∧ c.committed = false ∧ c.published = [] ∧ s.sendDone c = true ∧ c.desc.cls = 1 ∧ c.reds = [] ∧ c.fresh = [] ∧ c.rings = [] ∧ c.instances = [] ∧ c.newCtx = [] ∧ c.holds = [] ∧ c.discarded = false ∧ c.code = 0 ∧ c.desc.deadline = noStamp ∧ (∀ i, argKind (c.desc.arg i) ≠ 3) ∧ (∀ a ∈ c.desc.args, argKind a ≠ 5) ∧ tget s.sqs c.sq = some q ∧ tget s.cqs q.cq = some k ∧ k.place.baseHost = true ∧ k.place.ptrHost = true ∧ s.rd (F.ptAuditCtl_en.at (ptBase c.desc.part)) = 0 ∧ k.part < 16 ∧ s.fnAwake k.part = true ∧ (∀ h ∈ s.ep.held, h.1 ≠ k.part) ∧ k.irqEn = false ∧ (k.place.base + (k.prod % 2 ^ k.log2) * 32) % 4096 + 32 ≤ 4096 ∧ k.place.ptr % 4096 + 8 ≤ 4096) ∧
    (∃ s : State, ∃ slot : Fin 4096, ∃ c : Cmd, tget s.cmds slot.val = some c ∧ c.commitDue = true ∧ s.pow.paused = false ∧ c.committed = true ∧ c.newTickets = []) ∧
    (∃ v : List Byte, ∃ w : List Byte, v.length = 4 ∧ w.length = 4) :=
  ⟨⟨rdyC cmdR, 0, cmdR, by decide +kernel⟩,
   ⟨rdyC cmdK, 0, cmdK, by decide +kernel⟩,
   ⟨comS cmdK, 0, cmdK, sq1, { cq1 with irqEn := false }, (by decide +kernel), (by decide +kernel), (by decide +kernel), (by decide +kernel), (by decide +kernel), (by decide +kernel), (by decide +kernel), (by decide +kernel), (by decide +kernel), (by decide +kernel), (by decide +kernel), (by decide +kernel), (by decide +kernel), (by decide +kernel), (by decide +kernel), (by decide +kernel), (by intro i; show argKind (([] : List Nat).getD i 0) ≠ 3; simp [argKind, bits]), (by decide +kernel), (by decide +kernel), (by decide +kernel), (by decide +kernel), (by decide +kernel), (by decide +kernel), (by decide +kernel), (by decide +kernel), (by decide +kernel), (by decide +kernel), (by decide +kernel), by decide +kernel⟩,
   ⟨rdyC { cmdK with committed := true }, 0, { cmdK with committed := true }, by decide +kernel⟩,
   ⟨[1, 0, 0, 0], [255, 255, 255, 255], by decide +kernel⟩⟩

theorem wit_TileSums :
    (∃ s : State, ∃ p : Fin 68, ∃ x : Fin 4, ∃ i : Iss, ∃ t : Tile, ∃ b : Bole, ∃ mv : Nat, ∃ nv : Nat, ∃ kv : Nat, ∃ ea : List ScaleRead, ∃ eb : List ScaleRead, ∃ o : Operands, issues s p x (isOp 0x10) i ∧ t = Tile.of i.w ∧ b = s.bole p.val ∧ tileCheck (opOfIss i) s = .ok () ∧ i.c.unitHeld .arrays = false ∧ b.bankFree t i.c.slot x.val = true ∧ (∀ e ∈ b.arrays, e.2.fenced = false) ∧ mv = validExt (i.c.regs i.w) (bits i.w 100 3) (bits i.w 103 5) (tileGeom t.shape t.bw).1 ∧ nv = validExt (i.c.regs i.w) (bits i.w 108 3) (bits i.w 111 5) (tileGeom t.shape t.bw).2.1 ∧ kv = validExt (i.c.regs i.w) (bits i.w 116 3) (bits i.w 119 5) (t.kblk * (tileGeom t.shape t.bw).2.2.1) ∧ ((ea = [] ∧ (i.c.scales.getD 0 none = none ∨ (t.fa ≠ 3 ∧ t.fa ≠ 4))) ∨ ∃ sb, i.c.scales.getD 0 none = some sb ∧ (t.fa = 3 ∨ t.fa = 4) ∧ s.readScales i.part p.val 0 sb (t.scaleRows mv nv).1 (cdiv kv 32) = .ok ea) ∧ ((eb = [] ∧ (i.c.scales.getD 1 none = none ∨ (t.fb ≠ 3 ∧ t.fb ≠ 4))) ∨ ∃ sb, i.c.scales.getD 1 none = some sb ∧ (t.fb = 3 ∨ t.fb = 4) ∧ s.readScales i.part p.val 1 sb (t.scaleRows mv nv).2 (cdiv kv 32) = .ok eb) ∧ (∀ e ∈ ea ++ eb, e.code = 0) ∧ o = s.tileOperands (opOfIss i) t mv nv kv ea eb) ∧
    (∃ s : State, ∃ p : Fin 68, ∃ x : Fin 4, ∃ i : Iss, ∃ t : Tile, ∃ b : Bole, ∃ mv : Nat, ∃ nv : Nat, ∃ kv : Nat, ∃ ea : List ScaleRead, ∃ eb : List ScaleRead, ∃ s' : State, ∃ code : Nat, ∃ blk : Nat, issues s p x (isOp 0x10) i ∧ t = Tile.of i.w ∧ b = s.bole p.val ∧ tileCheck (opOfIss i) s = .ok () ∧ i.c.unitHeld .arrays = false ∧ b.bankFree t i.c.slot x.val = true ∧ (∀ e ∈ b.arrays, e.2.fenced = false) ∧ mv = validExt (i.c.regs i.w) (bits i.w 100 3) (bits i.w 103 5) (tileGeom t.shape t.bw).1 ∧ nv = validExt (i.c.regs i.w) (bits i.w 108 3) (bits i.w 111 5) (tileGeom t.shape t.bw).2.1 ∧ kv = validExt (i.c.regs i.w) (bits i.w 116 3) (bits i.w 119 5) (t.kblk * (tileGeom t.shape t.bw).2.2.1) ∧ ((ea = [] ∧ (i.c.scales.getD 0 none = none ∨ (t.fa ≠ 3 ∧ t.fa ≠ 4))) ∨ ∃ sb, i.c.scales.getD 0 none = some sb ∧ (t.fa = 3 ∨ t.fa = 4) ∧ s.readScales i.part p.val 0 sb (t.scaleRows mv nv).1 (cdiv kv 32) = .ok ea) ∧ ((eb = [] ∧ (i.c.scales.getD 1 none = none ∨ (t.fb ≠ 3 ∧ t.fb ≠ 4))) ∨ ∃ sb, i.c.scales.getD 1 none = some sb ∧ (t.fb = 3 ∨ t.fb = 4) ∧ s.readScales i.part p.val 1 sb (t.scaleRows mv nv).2 (cdiv kv 32) = .ok eb) ∧ s.scaleFaults p.val (ea ++ eb) = some (s', code, blk)) ∧
    (∃ s : State, ∃ p : Fin 68, ∃ x : Fin 4, ∃ i : Iss, ∃ t : Tile, issues s p x (isOp 0x10) i ∧ t = Tile.of i.w ∧ tileCheck (opOfIss i) s = .ok () ∧ i.c.unitHeld .arrays = false ∧ (s.bole p.val).bankFree t i.c.slot x.val = false) :=
  ⟨⟨run [0x808080001000002000001000000010] icT, 0, 0, isx [0x808080001000002000001000000010] icT, Tile.of 0x808080001000002000001000000010, State.bole (run [0x808080001000002000001000000010] icT) 0, 1, 1, 1, [], [], State.tileOperands (run [0x808080001000002000001000000010] icT) (opOfIss (isx [0x808080001000002000001000000010] icT)) (Tile.of 0x808080001000002000001000000010) 1 1 1 [] [], (by unfold issues; decide +kernel), (by decide +kernel), (rfl), (got_is () _ _ (by decide +kernel) rfl), (by decide +kernel), (by decide +kernel), (by decide +kernel), (by decide +kernel), (by decide +kernel), (by decide +kernel), (.inl (by decide +kernel)), (.inl (by decide +kernel)), (by decide +kernel), (rfl)⟩,
   ⟨onBole (run [0x808080001000002000001330000010] icB) fun b => { b with spad := mwrite 0 [] 8192 [255, 255] }, 0, 0, isx [0x808080001000002000001330000010] icB, Tile.of 0x808080001000002000001330000010, State.bole (onBole (run [0x808080001000002000001330000010] icB) fun b => { b with spad := mwrite 0 [] 8192 [255, 255] }) 0, 1, 1, 1, got [] (State.readScales (onBole (run [0x808080001000002000001330000010] icB) fun b => { b with spad := mwrite 0 [] 8192 [255, 255] }) 1 0 0 ⟨false, 2, 8192, 1, 0⟩ [0] 1), [], ((State.scaleFaults (onBole (run [0x808080001000002000001330000010] icB) fun b => { b with spad := mwrite 0 [] 8192 [255, 255] }) 0 (got [] (State.readScales (onBole (run [0x808080001000002000001330000010] icB) fun b => { b with spad := mwrite 0 [] 8192 [255, 255] }) 1 0 0 ⟨false, 2, 8192, 1, 0⟩ [0] 1) ++ [])).getD (r0, 0, 0)).1, 0x701, 0, (by unfold issues; decide +kernel), (by decide +kernel), (rfl), (got_is () _ _ (by decide +kernel) rfl), (by decide +kernel), (by decide +kernel), (by decide +kernel), (by decide +kernel), (by decide +kernel), (by decide +kernel), (.inr ⟨⟨false, 2, 8192, 1, 0⟩, by decide +kernel, by decide +kernel, got_eq _ _ (by decide +kernel)⟩), (.inl (by decide +kernel)), (by decide +kernel)⟩,
   ⟨onBole (run [0x808080001000002000001000000010] icT) (fun b => { b with accBanks := [(0, ⟨9, 0, 0, false, false⟩)] }), 0, 0, isx [0x808080001000002000001000000010] icT, Tile.of 0x808080001000002000001000000010, (by unfold issues; decide +kernel), (rfl), (got_is () _ _ (by decide +kernel) rfl), (by decide +kernel), (by decide +kernel)⟩⟩

theorem wit_TileChecks :
    (∃ s : State, ∃ p : Fin 68, ∃ t : TileJob, ∃ rest : List TileJob, (s.bole p.val).tiles = t :: rest ∧ s.pow.paused = false ∧ (∀ n, n < 16 → t.arrayOk [] (s.rd (F.arrCfg_fpSlack.at (blBase p.val))) n = true) ∧ t.skipped [] = 0 ∧ (∀ e ∈ (s.bole p.val).arrays, e.2.fenced = false) ∧ (∀ c, tget s.cmds t.slot = some c → c.fault = none)) ∧
    (∃ s : State, ∃ p : Fin 68, (s.bole p.val).tiles = [] ∧ s.pow.paused = false ∧ (∀ e ∈ (s.bole p.val).arrays, e.2.fenced = false)) ∧
    (∃ t : TileJob, ∃ g : Nat, ∃ w : Nat, t.shape = 5 ∧ g < 4 ∧ w < 1024 ∧ t.bank < 2) ∧
    (∃ b : Bole, ∃ t : TileJob, ∃ e, t.shape = 5 ∧ t.bank < 2 ∧ e ∈ (b.drain t []).accBanks ∧ e.1 / 4 % 2 = t.bank) ∧
    (∃ t : TileJob, ∃ n : Nat, ∃ w : Nat, t.shape < 5 ∧ n < 16 ∧ w < 1024 ∧ t.bank < 2) ∧
    (∃ t : TileJob, ∃ n : Nat, ∃ w : Nat, n < 16 ∧ w < 1024 ∧ t.bank < 2) ∧
    (∃ t : TileJob, ∃ n : Nat, ∃ w : Nat, t.shape = 6 ∧ n < 16 ∧ w < 1024 ∧ t.bank < 2 ∧ (¬ (w / 32 / 16 = t.ctx / 2 ∧ w % 32 / 16 = t.ctx % 2))) ∧
    (∃ t : TileJob, ∃ rest : List TileJob, (∀ r ∈ rest, ¬ (r.slot = t.slot ∧ r.ctx = t.ctx ∧ r.bank = t.bank))) ∧
    (∃ s : State, ∃ p : Fin 68, ∃ t : TileJob, ∃ rest : List TileJob, ∃ a : Fin 16, ∃ w : Fin 1024, ∃ v : Word, (s.bole p.val).tiles = t :: rest ∧ s.pow.paused = false ∧ t.flt = false ∧ t.shape ≠ 6 ∧ t.byResidue a.val = false ∧ v ≠ (t.sums.getD a.val []).getD w.val 0 ∧ (t.column [] a.val (w.val % 32)).1 = (t.column [] a.val (w.val % 32)).2.2) :=
  ⟨⟨rdy.setBole 0 boleJ, 0, job1, [], by decide +kernel⟩,
   ⟨r0, 0, by decide +kernel⟩,
   ⟨{ job1 with shape := 5, mv := 64, nv := 64 }, 3, 1023, by decide +kernel⟩,
   ⟨boleJ, { job1 with shape := 5 }, (0, ⟨0, 0, 0, false, false⟩), by decide +kernel⟩,
   ⟨{ job1 with mv := 128, nv := 128 }, 15, 1023, by decide +kernel⟩,
   ⟨job1, 15, 1023, by decide +kernel⟩,
   ⟨{ job1 with shape := 6, ctx := 3 }, 15, 0, by decide +kernel⟩,
   ⟨job1, [], by decide +kernel⟩,
   ⟨(rdyC cmdR).setBole 0 boleJ, 0, job1, [], 15, 1023, 1, by decide +kernel⟩⟩

theorem wit_DiagnosisAndScrubs :
    (∃ s : State, ∃ p : Fin 68, (s.bole p.val).diag = none) ∧
    (∃ s : State, ∃ p : Fin 68, ∃ a : Nat, (s.bole p.val).diag = some (a, true)) ∧
    (∃ s : State, ∃ p : Fin 68, ∃ a : Nat, (s.bole p.val).diag = some (a, false) ∧ (s.bole p.val).tiles = []) ∧
    (∃ s : State, ∃ p : Nat, ∃ a : Nat, a < 16 ∧ (s.spareByte p a).testBit 5 = false) ∧
    (∃ s : State, ∃ p : Fin 68, ∃ v : Word, v.toNat.testBit 4 = true ∧ v.toNat.testBit 6 = false ∧ v.toNat.testBit 14 = false ∧ s.rd (F.arrDiag_busy.at (blBase p.val)) = 0 ∧ (s.rd (F.status_state.at (blBase p.val)) = 0 ∨ s.rd (F.status_state.at (blBase p.val)) = 5)) ∧
    (∃ s : State, ∃ p : Fin 68, ∃ v : Word, v.toNat.testBit 4 = true ∧ v.toNat.testBit 6 = false ∧ v.toNat.testBit 14 = false ∧ s.rd (F.arrDiag_busy.at (blBase p.val)) = 1) ∧
    (∃ s : State, ∃ p : Fin 68, ∃ v : Word, v.toNat.testBit 4 = true ∧ v.toNat.testBit 6 = false ∧ v.toNat.testBit 14 = false ∧ s.rd (F.arrDiag_busy.at (blBase p.val)) = 0 ∧ s.rd (F.status_state.at (blBase p.val)) ≠ 0 ∧ s.rd (F.status_state.at (blBase p.val)) ≠ 5) ∧
    (∃ s : State, ∃ p : Fin 68, (s.bole p.val).scrubFor = 0) ∧
    (∃ s : State, ∃ p : Fin 68, ∃ n : Nat, (s.bole p.val).scrubFor = 2 ∧ s.logOf p.val = some n ∧ n < 64 ∧ s.physOf n = p.val ∧ tget s.sched.groveMoves (n / 16) = none ∧ s.rd (F.status_state.at (blBase p.val)) = 2 ∧ s.sched.switching.contains n = false) :=
  ⟨⟨r0, 67, by decide +kernel⟩,
   ⟨r0.setBole 3 { Bole.new with diag := some (15, true) }, 3, 15, by decide +kernel⟩,
   ⟨r0.setBole 3 { Bole.new with diag := some (15, false), arrays := [(15, ⟨true, 0, 0⟩)] }, 3, 15, by decide +kernel⟩,
   ⟨r0, 3, 15, by decide +kernel⟩,
   ⟨r0, 3, 0x1F, by decide +kernel⟩,
   ⟨ws [(F.arrDiag_busy.at (blBase 3), 1)], 3, 0x1F, by decide +kernel⟩,
   ⟨ws [(F.status_state.at (blBase 3), 1)], 3, 0x1F, by decide +kernel⟩,
   ⟨r0, 3, by decide +kernel⟩,
   ⟨{ r0.setBole 3 { Bole.new with scrubFor := 2, spad := [(5, 1)] } with regs := (ws [(F.status_state.at (blBase 3), 2), (F.ptOwnLo_own.at (ptBase 15), 8)]).regs, sched := { r0.sched with handover := [(3, 2)] } }, 3, 3, by decide +kernel⟩⟩

theorem wit_UnitIssue :
    (∃ s : State, ∃ p : Fin 68, ∃ x : Fin 4, ∃ e : UnitErr, ∃ k : Nat, ∃ i : Iss, ∃ c : Nat, ∃ a : Nat, ∃ l : Bool, ∃ r, r ∈ unitRows p x e k ∧ issues s p x r.2.1 i ∧ r.2.2.check (opOfIss i) s = .error (.data c a l)) ∧
    (∃ s : State, ∃ p : Fin 68, ∃ x : Fin 4, ∃ e : UnitErr, ∃ k : Nat, ∃ i : Iss, ∃ r, r ∈ unitRows p x e k ∧ issues s p x r.2.1 i ∧ r.2.2.check (opOfIss i) s = .ok () ∧ i.c.unitHeld (unitOf i.w) = true) ∧
    (∃ s : State, ∃ p : Fin 68, ∃ x : Fin 4, ∃ k : Nat, ∃ i : Iss, ∃ r, ∃ t, r ∈ unitRows p x .none k ∧ issues s p x r.2.1 i ∧ r.2.2.check (opOfIss i) s = .ok () ∧ i.c.unitHeld (unitOf i.w) = false ∧ r.2.2.run (opOfIss i) s = .ok t) ∧
    (∃ s : State, ∃ p : Fin 68, ∃ x : Fin 4, ∃ k : Nat, ∃ i : Iss, ∃ r, r ∈ unitRows p x .none k ∧ issues s p x r.2.1 i ∧ r.2.2.check (opOfIss i) s = .ok () ∧ i.c.unitHeld (unitOf i.w) = false ∧ r.2.2.run (opOfIss i) s = .error .wait) ∧
    (∃ s : State, ∃ p : Fin 68, ∃ x : Fin 4, ∃ k : Nat, ∃ i : Iss, ∃ r, ∃ c, ∃ a, ∃ l, r ∈ unitRows p x .none k ∧ issues s p x r.2.1 i ∧ r.2.2.check (opOfIss i) s = .ok () ∧ i.c.unitHeld (unitOf i.w) = false ∧ r.2.2.run (opOfIss i) s = .error (.data c a l)) ∧
    (∃ s : State, ∃ p : Nat, ∃ x : Nat, ∃ slot : Nat, ∃ c : IssueCtx, tget (s.bole p).ctxs x = some c ∧ c.slot = slot) ∧
    (∃ s : State, ∃ p : Fin 68, ∃ x : Fin 4, ∃ u : Fin 4, ∃ c : IssueCtx, ∃ m : Cmd, ∃ l : CutList, ∃ f : InFlight, tget (s.bole p.val).ctxs x.val = some c ∧ tget s.cmds c.slot = some m ∧ tget s.lists m.desc.op = some l ∧ m.phase = .running ∧ s.pow.paused = false ∧ (c.flight.find? (fun f => f.unit == unitNo u.val) = some f) ∧ f.held = none ∧ (u.val = 3 → s.boomOut p.val x.val c.slot = false)) ∧
    (∃ s : State, ∃ t : State, ∃ p : Fin 68, ∃ x : Fin 4, ∃ u : Fin 4, ∃ c : IssueCtx, ∃ d : IssueCtx, ∃ m : Cmd, ∃ l : CutList, ∃ f : InFlight, ∃ r : Held, tget (s.bole p.val).ctxs x.val = some c ∧ tget s.cmds c.slot = some m ∧ tget s.lists m.desc.op = some l ∧ m.phase = .running ∧ s.pow.paused = false ∧ (c.flight.find? (fun f => f.unit == unitNo u.val) = some f) ∧ f.held = some r ∧ (unitSpecOf r.word).check ⟨p.val, x.val, c.slot, m, l, r⟩ s = .ok () ∧ (unitSpecOf r.word).run ⟨p.val, x.val, c.slot, m, l, r⟩ s = .ok t ∧ tget (t.bole p.val).ctxs x.val = some d ∧ d.slot = c.slot) ∧
    (∃ s : State, ∃ p : Fin 68, ∃ x : Fin 4, ∃ u : Fin 4, ∃ c : IssueCtx, tget (s.bole p.val).ctxs x.val = some c ∧ (∀ f ∈ c.flight, f.unit ≠ unitNo u.val)) :=
  ⟨⟨run [0x7000000000300000200000173000020] (icV), 0, 0, .none, 0, isx [0x7000000000300000200000173000020] icV, 0x601, 0, false, (Instr.vecFunction 0 0 .none, (fun w => opOf w == 0x20 && bits w 22 6 == 0xC), (⟨vecFuncCheck, vecFuncRun⟩ : UnitSpec)), (by unfold unitRows; exact .tail _ (.tail _ (.tail _ (.tail _ (.tail _ (.tail _ (.tail _ (.tail _ (.head _))))))))), (by unfold issues; decide +kernel), (bad_is _ _ (by decide +kernel))⟩,
   ⟨run [0x7000100000300000200000173000020] (heldBy icV .vu 0x7000100000300000200000173000020), 0, 0, .none, 0, isx [0x7000100000300000200000173000020] (heldBy icV .vu 0x7000100000300000200000173000020), (Instr.vecFunction 0 0 .none, (fun w => opOf w == 0x20 && bits w 22 6 == 0xC), (⟨vecFuncCheck, vecFuncRun⟩ : UnitSpec)), (by unfold unitRows; exact .tail _ (.tail _ (.tail _ (.tail _ (.tail _ (.tail _ (.tail _ (.tail _ (.head _))))))))), (by unfold issues; decide +kernel), (ok_unit _ (by decide +kernel)), (by decide +kernel)⟩,
   ⟨run [0x7000100000300000200000173000020] (icV), 0, 0, 0, isx [0x7000100000300000200000173000020] icV, (Instr.vecFunction 0 0 .none, (fun w => opOf w == 0x20 && bits w 22 6 == 0xC), (⟨vecFuncCheck, vecFuncRun⟩ : UnitSpec)), got r0 (vecFuncRun (opOfIss (isx [0x7000100000300000200000173000020] icV)) (run [0x7000100000300000200000173000020] (icV))), (by unfold unitRows; exact .tail _ (.tail _ (.tail _ (.tail _ (.tail _ (.tail _ (.tail _ (.tail _ (.head _))))))))), (by unfold issues; decide +kernel), (ok_unit _ (by decide +kernel)), (by decide +kernel), (got_eq _ _ (by decide +kernel))⟩,
   ⟨onBole (run [0x27000100000300000200000173000020] (icV)) fun b => { b with accBanks := [(8, ⟨0, 0, 0, false, false⟩)] }, 0, 0, 0, isx [0x27000100000300000200000173000020] icV, (Instr.vecFunction 0 0 .none, (fun w => opOf w == 0x20 && bits w 22 6 == 0xC), (⟨vecFuncCheck, vecFuncRun⟩ : UnitSpec)), (by unfold unitRows; exact .tail _ (.tail _ (.tail _ (.tail _ (.tail _ (.tail _ (.tail _ (.tail _ (.head _))))))))), (by unfold issues; decide +kernel), (ok_unit _ (by decide +kernel)), (by decide +kernel), (bad_is _ _ (by decide +kernel))⟩,
   ⟨run [0x7000100000300000200000175100020] (icV), 0, 0, 0, isx [0x7000100000300000200000175100020] icV, (Instr.vecDraw 0 0 .none, isVec 0x51, (⟨vecDrawCheck, vecDrawRun⟩ : UnitSpec)), 0x601, 16384, false, (by unfold unitRows; exact .tail _ (.tail _ (.tail _ (.tail _ (.tail _ (.tail _ (.tail _ (.tail _ (.tail _ (.tail _ (.tail _ (.tail _ (.head _))))))))))))), (by unfold issues; decide +kernel), (ok_unit _ (by decide +kernel)), (by decide +kernel), (bad_is _ _ (by decide +kernel))⟩,
   ⟨run [0] ic, 0, 0, 0, ic, by decide +kernel⟩,
   ⟨run [0] { ic with flight := [inFlight (ic.regs 0x20) false] }, 0, 0, 2, { ic with flight := [inFlight (ic.regs 0x20) false] }, cmdR, lst [0], inFlight (ic.regs 0x20) false, by decide +kernel⟩,
   ⟨run [0] (heldBy icV .vu 0x7000100000300000200000173000020), got r0 (vecFuncRun (opOfIss (isx [0x7000100000300000200000173000020] icV)) (run [0] (heldBy icV .vu 0x7000100000300000200000173000020))), 0, 0, 2, heldBy icV .vu 0x7000100000300000200000173000020, heldBy icV .vu 0x7000100000300000200000173000020, cmdR, lst [0], (⟨.vu, some 3, true, some (icV.regs 0x7000100000300000200000173000020), []⟩ : InFlight), icV.regs 0x7000100000300000200000173000020, (by decide +kernel), (by decide +kernel), (by decide +kernel), (by decide +kernel), (by decide +kernel), (by decide +kernel), (by decide +kernel), (ok_unit _ (by decide +kernel)), (got_eq _ _ (by decide +kernel)), (by decide +kernel), (by decide +kernel)⟩,
   ⟨run [0] ic, 0, 0, 2, ic, by decide +kernel⟩⟩

theorem wit_MatrixVector :
    (∃ s : State, ∃ p : Fin 68, ∃ x : Fin 4, ∃ i : Iss, ∃ m : Mv, ∃ d : List Byte, ∃ out : List Word, ∃ old : List Byte, ∃ axpy : Bool, (issues s p x (fun w => opOf w == 0x18 && w.testBit 20 == axpy) i) ∧ m = Mv.of i.w ∧ mvCheck (opOfIss i) s = .ok () ∧ i.c.unitHeld .mvp = false ∧ i.c.scales.getD 2 none = none ∧ i.c.scales.getD 3 none = none ∧ s.locRead i.part p.val ((i.c.regs i.w).aop 32) m.streamBytes = .ok d ∧ (out = m.outputs ((List.range m.rows).map fun n => (List.range (m.kb * 32)).map (elemAt m.fs (d.drop (n * m.pitch)))) ((List.range m.vecLen).map (elemAt m.fv ((s.bole p.val).bytes ((i.c.regs i.w).aop 56).addr (elemBytes m.fv m.vecLen)))) [] [] false) ∧ old = (s.bole p.val).bytes ((i.c.regs i.w).aop 101).addr (4 * m.outLen)) ∧
    (∃ m : Mv, ∃ rows : List (List Nat), ∃ n : Nat, ∃ r : List Nat, m.axpy = false ∧ mvPair m.fs m.fv = some false ∧ rows[n]? = some r) ∧
    (∃ m : Mv, ∃ rows : List (List Nat), ∃ vec : List Nat, ∃ j : Nat, m.axpy = true ∧ mvPair m.fs m.fv = some false ∧ j < m.kb * 32 ∧ rows.length = vec.length) ∧
    (∃ m : Mv, ∃ rows : List (List Nat), ∃ n : Nat, ∃ r : List Nat, m.axpy = false ∧ mvPair m.fs m.fv = some true ∧ rows[n]? = some r) ∧
    (∃ m : Mv, m.axpy = false) ∧
    (∃ m : Mv, m.axpy = true) :=
  ⟨⟨mem (run [0x40100100000100000000200018] icV) 0 (List.replicate 32 2), 0, 0, isx [0x40100100000100000000200018] icV, Mv.of 0x40100100000100000000200018, List.replicate 32 2, Mv.outputs (Mv.of 0x40100100000100000000200018) ((List.range (Mv.of 0x40100100000100000000200018).rows).map fun n => (List.range ((Mv.of 0x40100100000100000000200018).kb * 32)).map (elemAt (Mv.of 0x40100100000100000000200018).fs ((List.replicate 32 2 : List Byte).drop (n * (Mv.of 0x40100100000100000000200018).pitch)))) ((List.range (Mv.of 0x40100100000100000000200018).vecLen).map (elemAt (Mv.of 0x40100100000100000000200018).fv ((State.bole (mem (run [0x40100100000100000000200018] icV) 0 (List.replicate 32 2)) 0).bytes ((IssueCtx.regs icV 0x40100100000100000000200018).aop 56).addr (elemBytes (Mv.of 0x40100100000100000000200018).fv (Mv.of 0x40100100000100000000200018).vecLen)))) [] [] false, (State.bole (mem (run [0x40100100000100000000200018] icV) 0 (List.replicate 32 2)) 0).bytes ((IssueCtx.regs icV 0x40100100000100000000200018).aop 101).addr (4 * (Mv.of 0x40100100000100000000200018).outLen), false, (by unfold issues; decide +kernel), (rfl), (ok_unit _ (by decide +kernel)), (by decide +kernel), (by decide +kernel), (by decide +kernel), (got_is [] _ _ (by decide +kernel) (by decide +kernel)), (rfl), (rfl)⟩,
   ⟨{ axpy := false, acc := false, fs := 0, fv := 1, rows := 2, kb := 1 }, [List.replicate 32 3, List.replicate 32 4], 1, List.replicate 32 4, by decide +kernel⟩,
   ⟨{ axpy := true, acc := false, fs := 2, fv := 0, rows := 2, kb := 1 }, [List.replicate 32 3, List.replicate 32 4], [1, 255], 31, by decide +kernel⟩,
   ⟨{ axpy := false, acc := false, fs := 5, fv := 5, rows := 2, kb := 1 }, [List.replicate 32 0x3F80], 0, List.replicate 32 0x3F80, by decide +kernel⟩,
   ⟨{ axpy := false, acc := false, fs := 0, fv := 0, rows := 2, kb := 1 }, by decide +kernel⟩,
   ⟨{ axpy := true, acc := false, fs := 0, fv := 0, rows := 2, kb := 1 }, by decide +kernel⟩⟩

theorem wit_VectorOperations :
    (∃ s : State, ∃ p : Fin 68, ∃ x : Fin 4, ∃ i : Iss, ∃ v : Vec, ∃ a : List Nat, (issues s p x (fun w => opOf w == 0x20 && (vecArithOps (bits w 20 8) || !vecOps (bits w 20 8))) i) ∧ v = Vec.of i.w ∧ vecArithOps v.vop = true ∧ vecArithCheck (opOfIss i) s = .ok () ∧ i.c.unitHeld .vu = false ∧ s.vecSrc (opOfIss i) v 8 = .ok a) ∧
    (∃ s : State, ∃ p : Fin 68, ∃ x : Fin 4, ∃ i : Iss, (issues s p x (fun w => opOf w == 0x20 && (vecArithOps (bits w 20 8) || !vecOps (bits w 20 8))) i) ∧ vecOps (bits i.w 20 8) = false) ∧
    (∃ b : Word, b.toNat < 32) ∧
    (∃ a : Word, ∃ b : Word, (FV.vu a = .nan ∨ FV.vu b = .nan)) ∧
    (∃ s : State, ∃ p : Fin 68, ∃ x : Fin 4, ∃ i : Iss, ∃ v : Vec, ∃ a : List Nat, (issues s p x (fun w => opOf w == 0x20 && bits w 22 6 == 0xC) i) ∧ v = Vec.of i.w ∧ vecFuncCheck (opOfIss i) s = .ok () ∧ i.c.unitHeld .vu = false ∧ s.vecSrc (opOfIss i) v 7 = .ok a) ∧
    (∃ vop : Nat, ∃ n : Bool, ∃ m : Nat, ∃ e : Int, (0x800000 + funcUlp vop ≤ (funcExact vop n m e).toNat % 2 ^ 31) ∧ ((funcExact vop n m e).toNat % 2 ^ 31 ≤ 0x7F7FFFFF)) ∧
    (∃ s : State, ∃ p : Fin 68, ∃ x : Fin 4, ∃ i : Iss, ∃ v : Vec, ∃ a : List Nat, ∃ acc : Tab Word, (issues s p x (fun w => opOf w == 0x20 && 0x40 ≤ bits w 20 8 && bits w 20 8 ≤ 0x42) i) ∧ v = Vec.of i.w ∧ v.cnt = 1 ∧ vecReduceCheck (opOfIss i) s = .ok () ∧ i.c.unitHeld .vu = false ∧ s.vecSrc (opOfIss i) v 7 = .ok a ∧ acc = wput (s.bole p.val).redAcc 0 (redOp v.vop (tgetD (s.bole p.val).redAcc 0 0) (((pairTree (redOp v.vop) 7 ((a.take 128).map (BitVec.ofNat 32))).head?).getD 0))) ∧
    (∃ s : State, ∃ p : Fin 68, ∃ x : Fin 4, ∃ i : Iss, issues s p x (isVec 0x48) i ∧ vecStoreCheck (opOfIss i) s = .ok () ∧ i.c.unitHeld .vu = false) ∧
    (∃ s : State, ∃ p : Fin 68, ∃ x : Fin 4, ∃ i : Iss, ∃ v : Vec, ∃ a : List Nat, ∃ r : ElemRec, issues s p x (isVec 0x50) i ∧ v = Vec.of i.w ∧ vecDropCheck (opOfIss i) s = .ok () ∧ i.c.unitHeld .vu = false ∧ s.vecSrc (opOfIss i) v 7 = .ok a ∧ s.elemRec (opOfIss i) = .ok r) ∧
    (∃ s : State, ∃ p : Fin 68, ∃ x : Fin 4, ∃ i : Iss, ∃ r : ElemRec, issues s p x (isVec 0x51) i ∧ vecDrawCheck (opOfIss i) s = .ok () ∧ i.c.unitHeld .vu = false ∧ s.elemRec (opOfIss i) = .ok r) ∧
    (∃ u : UnitOp, u.code.usesRandom = true) ∧
    (∃ s : State, ∃ u : UnitOp, ∃ v : Vec, v.acc = true ∧ (s.bole u.p).accReadable (AccSrc.of u.w 32) v.len = false) ∧
    (∃ s : State, ∃ u : UnitOp, ∃ v : Vec, v.acc = true ∧ (s.bole u.p).accReadable (AccSrc.of u.w 32) v.len = true) ∧
    (∃ v : Vec, v.acc = false) :=
  ⟨⟨run [0x8000100000300000200000181000020] (icV), 0, 0, isx [0x8000100000300000200000181000020] (icV), Vec.of 0x8000100000300000200000181000020, (got [] (State.vecSrc (run [0x8000100000300000200000181000020] (icV)) (opOfIss (isx [0x8000100000300000200000181000020] icV)) (Vec.of 0x8000100000300000200000181000020) 8)), (by unfold issues; decide +kernel), (rfl), (by decide +kernel), (ok_unit _ (by decide +kernel)), (by decide +kernel), (got_eq _ _ (by decide +kernel))⟩,
   ⟨run [0x700010000030000020000017ff00020] (icV), 0, 0, isx [0x700010000030000020000017ff00020] (icV), by unfold issues; decide +kernel⟩,
   ⟨31, by decide +kernel⟩,
   ⟨0x7FC00000, 0, by decide +kernel⟩,
   ⟨run [0x7000100000300000200000173000020] (icV), 0, 0, isx [0x7000100000300000200000173000020] (icV), Vec.of 0x7000100000300000200000173000020, (got [] (State.vecSrc (run [0x7000100000300000200000173000020] (icV)) (opOfIss (isx [0x7000100000300000200000173000020] icV)) (Vec.of 0x7000100000300000200000173000020) 7)), (by unfold issues; decide +kernel), (rfl), (ok_unit _ (by decide +kernel)), (by decide +kernel), (got_eq _ _ (by decide +kernel))⟩,
   ⟨0x31, false, 3, 0, by decide +kernel⟩,
   ⟨run [0x7000100000300000200000174100020] (icV), 0, 0, isx [0x7000100000300000200000174100020] (icV), Vec.of 0x7000100000300000200000174100020, (got [] (State.vecSrc (run [0x7000100000300000200000174100020] (icV)) (opOfIss (isx [0x7000100000300000200000174100020] icV)) (Vec.of 0x7000100000300000200000174100020) 7)), wput (State.bole (run [0x7000100000300000200000174100020] (icV)) 0).redAcc 0 (redOp (Vec.of 0x7000100000300000200000174100020).vop (tgetD (State.bole (run [0x7000100000300000200000174100020] (icV)) 0).redAcc 0 0) (((pairTree (redOp (Vec.of 0x7000100000300000200000174100020).vop) 7 (((got [] (State.vecSrc (run [0x7000100000300000200000174100020] (icV)) (opOfIss (isx [0x7000100000300000200000174100020] icV)) (Vec.of 0x7000100000300000200000174100020) 7)).take 128).map (BitVec.ofNat 32))).head?).getD 0)), (by unfold issues; decide +kernel), (rfl), (by decide +kernel), (ok_unit _ (by decide +kernel)), (by decide +kernel), (got_eq _ _ (by decide +kernel)), (rfl)⟩,
   ⟨onBole (run [0x7000100000300000200000174800020] (icV)) fun b => { b with redAcc := [(3, 5)] }, 0, 0, isx [0x7000100000300000200000174800020] (icV), (by unfold issues; decide +kernel), (ok_unit _ (by decide +kernel)), (by decide +kernel)⟩,
   ⟨onBole (run [0x7000100000300000200000175000020] (icV)) fun b => { b with spad := mwrite 0 [] 16384 (rec1) }, 0, 0, isx [0x7000100000300000200000175000020] (icV), Vec.of 0x7000100000300000200000175000020, (got [] (State.vecSrc (onBole (run [0x7000100000300000200000175000020] (icV)) fun b => { b with spad := mwrite 0 [] 16384 (rec1) }) (opOfIss (isx [0x7000100000300000200000175000020] icV)) (Vec.of 0x7000100000300000200000175000020) 7)), got ⟨0, 0, 0, 0⟩ (State.elemRec (onBole (run [0x7000100000300000200000175000020] (icV)) fun b => { b with spad := mwrite 0 [] 16384 (rec1) }) (opOfIss (isx [0x7000100000300000200000175000020] icV))), (by unfold issues; decide +kernel), (rfl), (ok_unit _ (by decide +kernel)), (by decide +kernel), (got_eq _ _ (by decide +kernel)), (got_eq _ _ (by decide +kernel))⟩,
   ⟨onBole (run [0x7000100000300000200000175100020] (icV)) fun b => { b with spad := mwrite 0 [] 16384 (rec1) }, 0, 0, isx [0x7000100000300000200000175100020] (icV), got ⟨0, 0, 0, 0⟩ (State.elemRec (onBole (run [0x7000100000300000200000175100020] (icV)) fun b => { b with spad := mwrite 0 [] 16384 (rec1) }) (opOfIss (isx [0x7000100000300000200000175100020] icV))), (by unfold issues; decide +kernel), (ok_unit _ (by decide +kernel)), (by decide +kernel), (got_eq _ _ (by decide +kernel))⟩,
   ⟨(opOfIss { isx [0] icV with code := { lst [0] with usesRandom := true } }), by decide +kernel⟩,
   ⟨onBole (run [0x27000100000300000200000173000020] (icV)) fun b => { b with accBanks := [(8, ⟨0, 0, 0, false, false⟩)] }, opOfIss (isx [0x27000100000300000200000173000020] icV), Vec.of 0x27000100000300000200000173000020, by decide +kernel⟩,
   ⟨onBole (run [0x27000100000300000200000173000020] (icV)) fun b => { b with accBanks := [(8, ⟨0, 0, 0, true, false⟩)] }, opOfIss (isx [0x27000100000300000200000173000020] icV), Vec.of 0x27000100000300000200000173000020, by decide +kernel⟩,
   ⟨Vec.of 0x7000100000300000200000173000020, by decide +kernel⟩⟩

theorem wit_VectorNarrowing :
    (∃ s : State, ∃ p : Fin 68, ∃ x : Fin 4, ∃ i : Iss, ∃ v : Vec, ∃ a : List Nat, ∃ res : List Narrow, issues s p x (isVec 0x20) i ∧ v = Vec.of i.w ∧ vecConvertCheck (opOfIss i) s = .ok () ∧ i.c.unitHeld .vu = false ∧ s.vecSrc (opOfIss i) v v.fi = .ok a ∧ v.rnd = false ∧ scaleUsed (i.c.scales.getD 3 none) v.fi = none ∧ (res = (a.map fun c => narrow v.fo false 0 (FV.mul (.fin false 1 0) (vecValue v.fi c))))) ∧
    (∃ s : State, ∃ p : Fin 68, ∃ x : Fin 4, ∃ i : Iss, ∃ v : Vec, ∃ a : List Nat, ∃ d : List Byte, ∃ rq : Requant, ∃ res : List Narrow, issues s p x (isVec 0x28) i ∧ v = Vec.of i.w ∧ vecRequantCheck (opOfIss i) s = .ok () ∧ i.c.unitHeld .vu = false ∧ s.vecSrc (opOfIss i) v 8 = .ok a ∧ v.acc = false ∧ v.rnd = false ∧ d = (s.bole p.val).bytes ((i.c.regs i.w).aop 56).addr 2048 ∧ rq.mode = false ∧ (∀ c, c < 128 → Requant.of v.fo (d.drop (16 * c)) = some rq) ∧ (res = (a.map fun y => requant v.fo rq 0 (BitVec.ofNat 32 y)))) ∧
    (∃ s : State, ∃ p : Fin 68, ∃ x : Fin 4, ∃ i : Iss, ∃ v : Vec, ∃ a : List Nat, ∃ d : List Byte, issues s p x (isVec 0x28) i ∧ v = Vec.of i.w ∧ vecRequantCheck (opOfIss i) s = .ok () ∧ i.c.unitHeld .vu = false ∧ s.vecSrc (opOfIss i) v 8 = .ok a ∧ v.acc = false ∧ v.cnt ≠ 0 ∧ d = (s.bole p.val).bytes ((i.c.regs i.w).aop 56).addr 2048 ∧ Requant.of v.fo d = none) ∧
    (∃ s : State, ∃ p : Fin 68, ∃ x : Fin 4, ∃ i : Iss, ∃ v : Vec, ∃ a : List Nat, ∃ d : List Byte, ∃ res : List Narrow, issues s p x (isVec 0x29) i ∧ v = Vec.of i.w ∧ vecFloatRequantCheck (opOfIss i) s = .ok () ∧ i.c.unitHeld .vu = false ∧ s.vecSrc (opOfIss i) v 7 = .ok a ∧ v.acc = false ∧ v.rnd = false ∧ d = (s.bole p.val).bytes ((i.c.regs i.w).aop 56).addr 1024 ∧ (res = (a.zipIdx.map fun (y, j) => narrow v.fo false 0 (((FV.vu (BitVec.ofNat 32 y)).mul (FV.vu (BitVec.ofNat 32 (field d (8 * (j % 128)) 4)))).add (FV.vu (BitVec.ofNat 32 (field d (8 * (j % 128) + 4) 4)))))) ∧ v.fo ≠ 7) ∧
    (∃ s : State, ∃ p : Fin 68, ∃ x : Fin 4, ∃ i : Iss, ∃ v : Vec, ∃ a : List Nat, ∃ d : List Byte, ∃ res : List Narrow, issues s p x (isVec 0x29) i ∧ v = Vec.of i.w ∧ vecFloatRequantCheck (opOfIss i) s = .ok () ∧ i.c.unitHeld .vu = false ∧ s.vecSrc (opOfIss i) v 7 = .ok a ∧ v.acc = false ∧ v.rnd = false ∧ d = (s.bole p.val).bytes ((i.c.regs i.w).aop 56).addr 1024 ∧ (res = (a.zipIdx.map fun (y, j) => narrow v.fo false 0 (((FV.vu (BitVec.ofNat 32 y)).mul (FV.vu (BitVec.ofNat 32 (field d (8 * (j % 128)) 4)))).add (FV.vu (BitVec.ofNat 32 (field d (8 * (j % 128) + 4) 4)))))) ∧ v.fo = 7) ∧
    (∃ s : State, ∃ p : Fin 68, ∃ x : Fin 4, ∃ i : Iss, ∃ v : Vec, ∃ a : List Nat, ∃ bs : List (List Narrow × Nat), issues s p x (isVec 0x2A) i ∧ v = Vec.of i.w ∧ vecBlockCheck (opOfIss i) s = .ok () ∧ i.c.unitHeld .vu = false ∧ s.vecSrc (opOfIss i) v 7 = .ok a ∧ v.rnd = false ∧ ((blocks32 (a.map fun y => (FV.vu (BitVec.ofNat 32 y), 0))).mapM (blockQuant v.fo false) = some bs)) ∧
    (∃ s : State, ∃ p : Fin 68, ∃ x : Fin 4, ∃ i : Iss, ∃ v : Vec, ∃ a : List Nat, issues s p x (isVec 0x2A) i ∧ v = Vec.of i.w ∧ vecBlockCheck (opOfIss i) s = .ok () ∧ i.c.unitHeld .vu = false ∧ s.vecSrc (opOfIss i) v 7 = .ok a ∧ v.rnd = false ∧ ((blocks32 (a.map fun y => (FV.vu (BitVec.ofNat 32 y), 0))).mapM (blockQuant v.fo false) = none)) ∧
    (∃ s : State, ∃ u : UnitOp, ∃ fo : Nat, ∃ l : List Narrow, ∃ k : Nat, ∃ t : StatSlot, tget (s.bole u.p).stats k = some t ∧ t.slot = u.slot ∧ t.ctx = u.x ∧ t.fmt = fo ∧ t.total + l.length < 2 ^ 64 ∧ t.hi + l.length < 2 ^ 32 ∧ t.lo + l.length < 2 ^ 32 ∧ t.nan + l.length < 2 ^ 32 ∧ t.sat = false) :=
  ⟨⟨run [0x7000100000300000200000102000020] (icV), 0, 0, isx [0x7000100000300000200000102000020] (icV), Vec.of 0x7000100000300000200000102000020, (got [] (State.vecSrc (run [0x7000100000300000200000102000020] (icV)) (opOfIss (isx [0x7000100000300000200000102000020] icV)) (Vec.of 0x7000100000300000200000102000020) (Vec.of 0x7000100000300000200000102000020).fi)), ((got [] (State.vecSrc (run [0x7000100000300000200000102000020] (icV)) (opOfIss (isx [0x7000100000300000200000102000020] icV)) (Vec.of 0x7000100000300000200000102000020) (Vec.of 0x7000100000300000200000102000020).fi)).map fun c => narrow (Vec.of 0x7000100000300000200000102000020).fo false 0 (FV.mul (.fin false 1 0) (vecValue (Vec.of 0x7000100000300000200000102000020).fi c))), (by unfold issues; decide +kernel), (rfl), (ok_unit _ (by decide +kernel)), (by decide +kernel), (got_eq _ _ (by decide +kernel)), (by decide +kernel), (by decide +kernel), (rfl)⟩,
   ⟨run [0x8000100000300000200000102800020] (icV), 0, 0, isx [0x8000100000300000200000102800020] (icV), Vec.of 0x8000100000300000200000102800020, (got [] (State.vecSrc (run [0x8000100000300000200000102800020] (icV)) (opOfIss (isx [0x8000100000300000200000102800020] icV)) (Vec.of 0x8000100000300000200000102800020) 8)), List.replicate 2048 0, ⟨0, 0, 0, false, 0, 0, 0⟩, ((got [] (State.vecSrc (run [0x8000100000300000200000102800020] (icV)) (opOfIss (isx [0x8000100000300000200000102800020] icV)) (Vec.of 0x8000100000300000200000102800020) 8)).map fun y => requant (Vec.of 0x8000100000300000200000102800020).fo ⟨0, 0, 0, false, 0, 0, 0⟩ 0 (BitVec.ofNat 32 y)), (by unfold issues; decide +kernel), (rfl), (ok_unit _ (by decide +kernel)), (by decide +kernel), (got_eq _ _ (by decide +kernel)), (by decide +kernel), (by decide +kernel), (by decide +kernel), (by decide +kernel), (fun c _ => requant_zeros _ _ _ (by decide)), (rfl)⟩,
   ⟨onBole (run [0x8000100000300000200000102800020] (icV)) fun b => { b with spad := mwrite 0 [] 4096 (List.replicate 16 0xFF) }, 0, 0, isx [0x8000100000300000200000102800020] (icV), Vec.of 0x8000100000300000200000102800020, (got [] (State.vecSrc (onBole (run [0x8000100000300000200000102800020] (icV)) fun b => { b with spad := mwrite 0 [] 4096 (List.replicate 16 0xFF) }) (opOfIss (isx [0x8000100000300000200000102800020] icV)) (Vec.of 0x8000100000300000200000102800020) 8)), (State.bole (onBole (run [0x8000100000300000200000102800020] (icV)) fun b => { b with spad := mwrite 0 [] 4096 (List.replicate 16 0xFF) }) 0).bytes ((IssueCtx.regs icV 0x8000100000300000200000102800020).aop 56).addr 2048, (by unfold issues; decide +kernel), (rfl), (ok_unit _ (by decide +kernel)), (by decide +kernel), (got_eq _ _ (by decide +kernel)), (by decide +kernel), (by decide +kernel), (rfl), (by decide +kernel)⟩,
   ⟨run [0x7000100000300000200000152900020] (icV), 0, 0, isx [0x7000100000300000200000152900020] (icV), Vec.of 0x7000100000300000200000152900020, (got [] (State.vecSrc (run [0x7000100000300000200000152900020] (icV)) (opOfIss (isx [0x7000100000300000200000152900020] icV)) (Vec.of 0x7000100000300000200000152900020) 7)), (State.bole (run [0x7000100000300000200000152900020] (icV)) 0).bytes ((IssueCtx.regs icV 0x7000100000300000200000152900020).aop 56).addr 1024, ((got [] (State.vecSrc (run [0x7000100000300000200000152900020] (icV)) (opOfIss (isx [0x7000100000300000200000152900020] icV)) (Vec.of 0x7000100000300000200000152900020) 7)).zipIdx.map fun (y, j) => narrow (Vec.of 0x7000100000300000200000152900020).fo false 0 (((FV.vu (BitVec.ofNat 32 y)).mul (FV.vu (BitVec.ofNat 32 (field ((State.bole (run [0x7000100000300000200000152900020] (icV)) 0).bytes ((IssueCtx.regs icV 0x7000100000300000200000152900020).aop 56).addr 1024) (8 * (j % 128)) 4)))).add (FV.vu (BitVec.ofNat 32 (field ((State.bole (run [0x7000100000300000200000152900020] (icV)) 0).bytes ((IssueCtx.regs icV 0x7000100000300000200000152900020).aop 56).addr 1024) (8 * (j % 128) + 4) 4))))), (by unfold issues; decide +kernel), (rfl), (ok_unit _ (by decide +kernel)), (by decide +kernel), (got_eq _ _ (by decide +kernel)), (by decide +kernel), (by decide +kernel), (rfl), (rfl), (by decide +kernel)⟩,
   ⟨run [0x7000100000300000200000172900020] (icV), 0, 0, isx [0x7000100000300000200000172900020] (icV), Vec.of 0x7000100000300000200000172900020, (got [] (State.vecSrc (run [0x7000100000300000200000172900020] (icV)) (opOfIss (isx [0x7000100000300000200000172900020] icV)) (Vec.of 0x7000100000300000200000172900020) 7)), (State.bole (run [0x7000100000300000200000172900020] (icV)) 0).bytes ((IssueCtx.regs icV 0x7000100000300000200000172900020).aop 56).addr 1024, ((got [] (State.vecSrc (run [0x7000100000300000200000172900020] (icV)) (opOfIss (isx [0x7000100000300000200000172900020] icV)) (Vec.of 0x7000100000300000200000172900020) 7)).zipIdx.map fun (y, j) => narrow (Vec.of 0x7000100000300000200000172900020).fo false 0 (((FV.vu (BitVec.ofNat 32 y)).mul (FV.vu (BitVec.ofNat 32 (field ((State.bole (run [0x7000100000300000200000172900020] (icV)) 0).bytes ((IssueCtx.regs icV 0x7000100000300000200000172900020).aop 56).addr 1024) (8 * (j % 128)) 4)))).add (FV.vu (BitVec.ofNat 32 (field ((State.bole (run [0x7000100000300000200000172900020] (icV)) 0).bytes ((IssueCtx.regs icV 0x7000100000300000200000172900020).aop 56).addr 1024) (8 * (j % 128) + 4) 4))))), (by unfold issues; decide +kernel), (rfl), (ok_unit _ (by decide +kernel)), (by decide +kernel), (got_eq _ _ (by decide +kernel)), (by decide +kernel), (by decide +kernel), (rfl), (rfl), (by decide +kernel)⟩,
   ⟨run [0x7000100000300000200000132a00020] (icV), 0, 0, isx [0x7000100000300000200000132a00020] (icV), Vec.of 0x7000100000300000200000132a00020, (got [] (State.vecSrc (run [0x7000100000300000200000132a00020] (icV)) (opOfIss (isx [0x7000100000300000200000132a00020] icV)) (Vec.of 0x7000100000300000200000132a00020) 7)), ((blocks32 ((got [] (State.vecSrc (run [0x7000100000300000200000132a00020] (icV)) (opOfIss (isx [0x7000100000300000200000132a00020] icV)) (Vec.of 0x7000100000300000200000132a00020) 7)).map fun y => (FV.vu (BitVec.ofNat 32 y), 0))).mapM (blockQuant (Vec.of 0x7000100000300000200000132a00020).fo false)).getD [], (by unfold issues; decide +kernel), (rfl), (ok_unit _ (by decide +kernel)), (by decide +kernel), (got_eq _ _ (by decide +kernel)), (by decide +kernel), (some_getD _ _ (by decide +kernel))⟩,
   ⟨onBole (run [0x7000100000300000200000132a00020] (icV)) fun b => { b with spad := mwrite 0 [] 0 (leBytes 4 0x7FC00000) }, 0, 0, isx [0x7000100000300000200000132a00020] (icV), Vec.of 0x7000100000300000200000132a00020, (got [] (State.vecSrc (onBole (run [0x7000100000300000200000132a00020] (icV)) fun b => { b with spad := mwrite 0 [] 0 (leBytes 4 0x7FC00000) }) (opOfIss (isx [0x7000100000300000200000132a00020] icV)) (Vec.of 0x7000100000300000200000132a00020) 7)), (by unfold issues; decide +kernel), (rfl), (ok_unit _ (by decide +kernel)), (by decide +kernel), (got_eq _ _ (by decide +kernel)), (by decide +kernel), (is_none _ (by decide +kernel))⟩,
   ⟨onBole (run [0] ic) (fun b => { b with stats := [(2, st1)] }), opOfIss (isx [0x7000100000300000200000173000020] icV), 3, [⟨5, true, false, false⟩], 2, st1, by decide +kernel⟩⟩

theorem wit_Fetches :
    (∃ s : State, ∃ s1 : State, ∃ t : State, ∃ p : Fin 68, ∃ x : Fin 4, ∃ i : Iss, ∃ f : Fetch, ∃ d : List Byte, (issues s p x (fun w => opOf w == 0x30 && !w.testBit 20) i) ∧ f = Fetch.of i.w ∧ fetchSpecCheck (opOfIss i) s = .ok () ∧ i.c.unitHeld .dma = false ∧ f.zc = false ∧ s.locRead i.part p.val ((i.c.regs i.w).aop 32) (64 * f.lines) = .ok d ∧ (s1 = (if ((i.c.regs i.w).aop 32).space = 0 then s.modCmd i.c.slot fun c => { c with dramRd := c.dramRd + 64 * f.lines } else s)) ∧ s1.locWrite i.part p.val ((i.c.regs i.w).aop 56) d = .ok t) ∧
    (∃ s : State, ∃ s1 : State, ∃ t : State, ∃ p : Fin 68, ∃ x : Fin 4, ∃ i : Iss, ∃ f : Fetch, ∃ d : List Byte, ∃ n : Nat, (issues s p x (fun w => opOf w == 0x30 && !w.testBit 20) i) ∧ f = Fetch.of i.w ∧ fetchSpecCheck (opOfIss i) s = .ok () ∧ i.c.unitHeld .dma = false ∧ f.zc = true ∧ ((i.c.regs i.w).aop 32).space = 1 ∧ s.zcRead i.part p.val ((i.c.regs i.w).aop 32) (cdiv f.lines 16) f.lines = .ok d n ∧ s1 = s.inc2 (F.zcRdLo_bytes.at (blBase p.val)) (F.zcRdHi_bytes.at (blBase p.val)) n ∧ s1.locWrite i.part p.val ((i.c.regs i.w).aop 56) d = .ok t) ∧
    (∃ s : State, ∃ s1 : State, ∃ p : Fin 68, ∃ x : Fin 4, ∃ i : Iss, ∃ f : Fetch, ∃ d : List Byte, (issues s p x (fun w => opOf w == 0x30 && w.testBit 20) i) ∧ f = Fetch.of i.w ∧ fetchSpecCheck (opOfIss i) s = .ok () ∧ i.c.unitHeld .dma = false ∧ f.zc = false ∧ s.locRead i.part p.val ((i.c.regs i.w).aop 32) (64 * f.lines) = .ok d ∧ (s1 = (if ((i.c.regs i.w).aop 32).space = 0 then s.modCmd i.c.slot fun c => { c with dramRd := c.dramRd + 64 * f.lines } else s)) ∧ f.dsts.filter s.boleOnline ≠ []) ∧
    (∃ s : State, ∃ g : Fin 4, (∀ f ∈ s.fills, f.p / 17 ≠ g.val)) ∧
    (∃ s : State, ∃ g : Fin 4, ∃ f : BoomFill, ∃ k : Nat, ∃ c : Cmd, (s.fills.find? (fun f => f.p / 17 == g.val) = some f) ∧ tget s.cmds f.slot = some c ∧ s.segGated g.val 15 = false ∧ (s.rd (F.lndFailed_count.at (cgBase g.val))).testBit 15 = false ∧ k < 192 ∧ (∀ r ∈ s.remote, r.stage ≠ some (g.val, k)) ∧ (∀ j, j < k → ∃ r ∈ s.remote, r.stage = some (g.val, j))) ∧
    (∃ b : List Byte, b.length = 64) ∧
    (∃ b : List Byte, b.length = 64) :=
  ⟨⟨mem (run [0x100000100000000000030] icV) 0 (List.replicate 64 7), (State.modCmd (mem (run [0x100000100000000000030] icV) 0 (List.replicate 64 7)) 0 fun c => { c with dramRd := c.dramRd + 64 * (Fetch.of 0x100000100000000000030).lines }), got r0 (State.locWrite (State.modCmd (mem (run [0x100000100000000000030] icV) 0 (List.replicate 64 7)) 0 fun c => { c with dramRd := c.dramRd + 64 * (Fetch.of 0x100000100000000000030).lines }) 1 0 ((IssueCtx.regs icV 0x100000100000000000030).aop 56) (List.replicate 64 7)), 0, 0, isx [0x100000100000000000030] icV, Fetch.of 0x100000100000000000030, List.replicate 64 7, (by unfold issues; decide +kernel), (rfl), (ok_unit _ (by decide +kernel)), (by decide +kernel), (by decide +kernel), (got_is [] _ _ (by decide +kernel) (by decide +kernel)), (rfl), (got_eq _ _ (by decide +kernel))⟩,
   ⟨segs (run [0x100000100000000200030] icL), (State.inc2 (segs (run [0x100000100000000200030] icL)) (F.zcRdLo_bytes.at (blBase 0)) (F.zcRdHi_bytes.at (blBase 0)) 64), got r0 (State.locWrite (State.inc2 (segs (run [0x100000100000000200030] icL)) (F.zcRdLo_bytes.at (blBase 0)) (F.zcRdHi_bytes.at (blBase 0)) 64) 1 0 ((IssueCtx.regs icL 0x100000100000000200030).aop 56) (List.replicate 64 0)), 0, 0, isx [0x100000100000000200030] icL, Fetch.of 0x100000100000000200030, List.replicate 64 0, 64, (by unfold issues; decide +kernel), (rfl), (ok_unit _ (by decide +kernel)), (by decide +kernel), (by decide +kernel), (by decide +kernel), (zcOf_eq _ _ _ (by decide +kernel)), (rfl), (got_eq _ _ (by decide +kernel))⟩,
   ⟨{ mem (run [0x600003000100000000000000100030] icV) 0 (List.replicate 64 7) with cmds := [(0, cmdQ)], lists := [(5, { lst [0x600003000100000000000000100030] with level := 1 })] }, (State.modCmd ({ mem (run [0x600003000100000000000000100030] icV) 0 (List.replicate 64 7) with cmds := [(0, cmdQ)], lists := [(5, { lst [0x600003000100000000000000100030] with level := 1 })] }) 0 fun c => { c with dramRd := c.dramRd + 64 * (Fetch.of 0x600003000100000000000000100030).lines }), 0, 0, { isx [0x600003000100000000000000100030] icV with cmd := cmdQ, code := { lst [0x600003000100000000000000100030] with level := 1 } }, Fetch.of 0x600003000100000000000000100030, List.replicate 64 7, (by unfold issues; decide +kernel), (rfl), (ok_unit _ (by decide +kernel)), (by decide +kernel), (by decide +kernel), (got_is [] _ _ (by decide +kernel) (by decide +kernel)), (rfl), (by decide +kernel)⟩,
   ⟨r0, 3, by decide +kernel⟩,
   ⟨{ segs (rdyC cmdR) with fills := [fill1] }, 0, fill1, 0, cmdR, by decide +kernel⟩,
   ⟨List.replicate 64 9, by decide +kernel⟩,
   ⟨leBytes 64 (2 ^ 100), by decide +kernel⟩⟩

theorem wit_Puts :
    (∃ s : State, ∃ t : State, ∃ p : Fin 68, ∃ x : Fin 4, ∃ i : Iss, ∃ f : Put, ∃ d : List Byte, ∃ top : Nat, (issues s p x (fun w => opOf w == 0x34 && bits w 22 2 == 0) i) ∧ f = Put.of i.w ∧ putCheck (opOfIss i) s = .ok () ∧ i.c.unitHeld .dma = false ∧ s.putData (opOfIss i) f = .ok d ∧ f.zc = false ∧ s.regionEnd (opOfIss i) f.arg [(((i.c.regs i.w).aop 56).addr, d)] = some top ∧ i.cmd.unstored f.arg = false ∧ s.sendWins i.part = [] ∧ s.dramWrite i.part ((i.c.regs i.w).aop 56).addr d = some t) ∧
    (∃ s : State, ∃ p : Fin 68, ∃ x : Fin 4, ∃ i : Iss, ∃ f : Put, ∃ d : List Byte, (issues s p x (fun w => opOf w == 0x34 && bits w 22 2 == 0) i) ∧ f = Put.of i.w ∧ putCheck (opOfIss i) s = .ok () ∧ i.c.unitHeld .dma = false ∧ s.putData (opOfIss i) f = .ok d ∧ f.zc = false ∧ s.regionOf i.cmd i.code f.arg ((i.c.regs i.w).aop 56).addr d.length = none) ∧
    (∃ s : State, ∃ u : UnitOp, ∃ arg : Nat, ∃ a : Nat, ∃ o : Nat, ∃ d : List Byte, s.regionOf u.cmd u.code arg a d.length = some o) ∧
    (∃ s : State, ∃ u : State, ∃ p : Fin 68, ∃ x : Fin 4, ∃ i : Iss, ∃ f : Put, ∃ d : List Byte, ∃ b : BufRef, ∃ o : Nat, (issues s p x (fun w => opOf w == 0x34 && bits w 22 2 != 0) i) ∧ f = Put.of i.w ∧ putCheck (opOfIss i) s = .ok () ∧ i.c.unitHeld .dma = false ∧ s.putData (opOfIss i) f = .ok d ∧ s.regionOf i.cmd i.code f.arg ((i.c.regs i.w).aop 56).addr d.length = some o ∧ s.sendWins i.part = [] ∧ s.takeStage i.c.slot i.cmd (s.clsOf i.cmd == 0) (s.stageDeck i.part) (cdiv d.length (s.bufSize (s.stageDeck i.part))) = .got [b] u) ∧
    (∃ s : State, ∃ p : Fin 68, ∃ x : Fin 4, ∃ i : Iss, ∃ f : Put, ∃ d : List Byte, ∃ o : Nat, (issues s p x (fun w => opOf w == 0x34 && bits w 22 2 != 0) i) ∧ f = Put.of i.w ∧ putCheck (opOfIss i) s = .ok () ∧ i.c.unitHeld .dma = false ∧ s.putData (opOfIss i) f = .ok d ∧ s.regionOf i.cmd i.code f.arg ((i.c.regs i.w).aop 56).addr d.length = some o ∧ 0 < pieceBytes (s.sendPieces i.part ((i.c.regs i.w).aop 56).addr d.length)) ∧
    (∃ f : Put, f.acc = false) ∧
    (∃ s : State, ∃ c : Cmd, ∃ l : CutList, ∃ arg : Nat, ∃ a : Nat, ∃ n : Nat, ∃ o : Nat, s.regionOf c l arg a n = some o) :=
  ⟨⟨put1 [0x100000000000100000034], (State.dramWrite (put1 [0x100000000000100000034]) 1 0 (List.replicate 64 0)).getD r0, 0, 0, isP [0x100000000000100000034], Put.of 0x100000000000100000034, List.replicate 64 0, 64, (by unfold issues; decide +kernel), (rfl), (ok_unit _ (by decide +kernel)), (by decide +kernel), (got_is [] _ _ (by decide +kernel) (by decide +kernel)), (by decide +kernel), (by decide +kernel), (by decide +kernel), (by decide +kernel), (some_getD _ _ (by decide +kernel))⟩,
   ⟨run [0x100000000000100000034] icV, 0, 0, isx [0x100000000000100000034] icV, Put.of 0x100000000000100000034, List.replicate 64 0, (by unfold issues; decide +kernel), (rfl), (ok_unit _ (by decide +kernel)), (by decide +kernel), (got_is [] _ _ (by decide +kernel) (by decide +kernel)), (by decide +kernel), (by decide +kernel)⟩,
   ⟨put1 [0x100000000000100000034], opOfIss (isP [0x100000000000100000034]), 0, 64, 64, List.replicate 64 0, by decide +kernel⟩,
   ⟨deckS (put1 [0x2000100000000000100400034]), (stageOf r0 (State.takeStage (deckS (put1 [0x2000100000000000100400034])) 0 cmdS ((deckS (put1 [0x2000100000000000100400034])).clsOf cmdS == 0) ((deckS (put1 [0x2000100000000000100400034])).stageDeck 1) (cdiv (List.length (α := Byte) (List.replicate 64 0)) ((deckS (put1 [0x2000100000000000100400034])).bufSize ((deckS (put1 [0x2000100000000000100400034])).stageDeck 1))))).2, 0, 0, isP [0x2000100000000000100400034], Put.of 0x2000100000000000100400034, List.replicate 64 0, ⟨0, 2⟩, 0, (by unfold issues; decide +kernel), (rfl), (ok_unit _ (by decide +kernel)), (by decide +kernel), (got_is [] _ _ (by decide +kernel) (by decide +kernel)), (by decide +kernel), (by decide +kernel), (staged_eq _ _ _ (by decide +kernel) (by decide +kernel))⟩,
   ⟨((State.wr (put1 [0x2000100000000000100400034]) (F.txwCtl_en.at 0x81000) 1).wr (F.txwCtl_partition.at 0x81000) 1).wr (F.txwLimitLo_limit.at 0x81000) 4096, 0, 0, isP [0x2000100000000000100400034], Put.of 0x2000100000000000100400034, List.replicate 64 0, 0, (by unfold issues; decide +kernel), (rfl), (ok_unit _ (by decide +kernel)), (by decide +kernel), (got_is [] _ _ (by decide +kernel) (by decide +kernel)), (by decide +kernel), (by decide +kernel)⟩,
   ⟨Put.of 0x100000000000100000034, by decide +kernel⟩,
   ⟨put1 [0x100000000000100000034], cmdS, { lst [0x100000000000100000034] with outMask := 1 }, 0, 0, 64, 0, by decide +kernel⟩⟩

theorem wit_GatingAndLandingScrubs :
    (∃ s : State, ∃ n : Fin 68, ∃ k : Fin 48, ∃ m : Nat, s.logOf n.val = some m ∧ s.inFlightOn m = 0 ∧ (∀ r ∈ s.remote, r.dst ≠ m) ∧ (∀ e ∈ (s.bole n.val).wins, e.2.live = false) ∧ (s.rd2 (F.spadGateReqLo_banks.at (blBase n.val)) (F.spadGateReqHi_banks.at (blBase n.val))).testBit k.val = true ∧ (s.rd2 (F.spadGateStatLo_banks.at (blBase n.val)) (F.spadGateStatHi_banks.at (blBase n.val))).testBit k.val = false) ∧
    (∃ s : State, ∃ n : Fin 68, ∃ k : Fin 48, ((s.rd2 (F.spadGateReqLo_banks.at (blBase n.val)) (F.spadGateReqHi_banks.at (blBase n.val))).testBit k.val = false ∨ ∃ m, s.logOf n.val = some m ∧ ∃ e ∈ s.cmds, e.2.on m = true ∧ e.2.phase ≠ .suspended)) ∧
    (∃ s : State, ∃ g : Fin 4, ∃ k : Fin 32, k.val ∉ (s.land g.val).scrubbing) ∧
    (∃ s : State, ∃ g : Fin 4, ∃ k : Fin 32, k.val ∈ (s.land g.val).scrubbing ∧ k.val < 16 ∧ tget s.sched.groveMoves g.val = none) ∧
    (∃ s : State, ∃ g : Fin 4, ∃ k : Fin 32, k.val ∈ (s.land g.val).scrubbing ∧ k.val < 16 ∧ (s.rd (F.lndOwned_mask.at (cgBase g.val))).testBit k.val = false ∧ tget s.sched.groveMoves g.val = none) :=
  ⟨⟨ws [(F.status_state.at (blBase 0), 1), (F.spadGateReqLo_banks.at (blBase 0), 2)], 0, 1, 0, by decide +kernel⟩,
   ⟨r0, 67, 47, (.inl (by decide +kernel))⟩,
   ⟨r0, 3, 31, by decide +kernel⟩,
   ⟨r0.setLand 0 { Landing.new with scrubbing := [15, 3] }, 0, 15, by decide +kernel⟩,
   ⟨r0.setLand 0 { Landing.new with scrubbing := [15, 3] }, 0, 15, by decide +kernel⟩⟩

theorem wit_Decks :
    (∃ s : State, ∃ d : Fin 64, s.deckOn d.val = true ∧ s.rd (F.dkStat_ready.at (dkBase d.val)) = 0) ∧
    (∃ s : State, ∃ d : Fin 64, (s.deckOn d.val = false ∨ s.rd (F.dkStat_ready.at (dkBase d.val)) = 1)) ∧
    (∃ s : State, ∃ d : Fin 64, (s.deck d.val).waiters = []) ∧
    (∃ s : State, ∃ d : Fin 64, ∃ w : Waiter, ∃ c : Cmd, (s.deck d.val).waiters = [w] ∧ tget s.cmds w.slot = some c ∧ c.desc.cls ≠ 1) ∧
    (∃ a : Waiter, ∃ b : Waiter, a.recovery = true ∧ b.recovery = false) ∧
    (∃ a : Waiter, ∃ b : Waiter, a.recovery = b.recovery ∧ a.live = true ∧ b.live = false) ∧
    (∃ a : Waiter, ∃ b : Waiter, a.recovery = b.recovery ∧ a.live = false ∧ b.live = false ∧ a.order < b.order) ∧
    (∃ s : State, ∃ fn : Fin 16, ∃ v : Word, ∃ a : Nat, ∃ b : BufRef, ∃ o : Owner, a = (s.reg (fn.val * fnStride + 0x40020)).toNat + bits v.toNat 0 16 * 2 ^ 32 ∧ s.bufAt a = some b ∧ s.ownerOf b = some o ∧ o.part = fn.val ∧ a = s.bufAddr b ∧ Holder.host ∈ o.holders) ∧
    (∃ s : State, ∃ fn : Fin 16, ∃ v : Word, ∃ a : Nat, a = (s.reg (fn.val * fnStride + 0x40020)).toNat + bits v.toNat 0 16 * 2 ^ 32 ∧ s.bufAt a = none) ∧
    (∃ s : State, ∃ fn : Fin 16, ∃ v : Word, ∃ a : Nat, ∃ b, ∃ o, a = (s.reg (fn.val * fnStride + 0x40020)).toNat + bits v.toNat 0 16 * 2 ^ 32 ∧ s.bufAt a = some b ∧ s.ownerOf b = some o ∧ o.part ≠ fn.val) ∧
    (∃ s : State, ∃ fn : Fin 16, ∃ v : Word, ∃ a : Nat, ∃ b, ∃ o, a = (s.reg (fn.val * fnStride + 0x40020)).toNat + bits v.toNat 0 16 * 2 ^ 32 ∧ s.bufAt a = some b ∧ s.ownerOf b = some o ∧ o.part = fn.val ∧ a ≠ s.bufAddr b) ∧
    (∃ s : State, ∃ fn : Fin 16, ∃ v : Word, ∃ a : Nat, ∃ b, ∃ o, a = (s.reg (fn.val * fnStride + 0x40020)).toNat + bits v.toNat 0 16 * 2 ^ 32 ∧ s.bufAt a = some b ∧ s.ownerOf b = some o ∧ o.part = fn.val ∧ a = s.bufAddr b ∧ Holder.host ∉ o.holders) ∧
    (∃ s : State, ∃ b : BufRef, ∃ h : Holder, ∃ o : Owner, s.ownerOf b = some o ∧ h ∈ o.holders ∧ o.holders.erase h ≠ []) ∧
    (∃ s : State, ∃ b : BufRef, ∃ h : Holder, ∃ o : Owner, s.ownerOf b = some o ∧ h ∈ o.holders ∧ o.holders.erase h = []) ∧
    (∃ s : State, ∃ t : State, ∃ d : Nat, ∃ o : Owner, ∃ b : BufRef, s.takeBuf d o = some (b, t)) ∧
    (∃ s : State, ∃ t : State, ∃ d : Nat, ∃ o : Owner, ∃ b : BufRef, ∃ c : BufRef, s.takeBuf d o = some (b, t) ∧ c ≠ b) ∧
    (∃ fn : Fin 16, fn.val ≠ 0) ∧
    (∃ s : State, ∃ d : Nat, ∃ p : Nat, ∃ i : Nat, ∃ o : Owner, ∃ h : Holder, s.decks = [(d, { Deck.new with owners := [(i, o)] })] ∧ o.part = p ∧ o.holders = [h] ∧ s.reclaimable h = true) ∧
    (∃ v : Word, v.toNat.testBit 31 = true) ∧
    (∃ v : Word, v.toNat.testBit 31 = false) ∧
    (∃ s : State, ∃ d : Fin 64, s.rd (F.dkStat_rebuilding.at (dkBase d.val)) = 1) :=
  ⟨⟨(deckS r0).wr (F.dkStat_ready.at (dkBase 0)) 0, 0, by decide +kernel⟩,
   ⟨r0, 63, (.inl (by decide +kernel))⟩,
   ⟨r0, 63, by decide +kernel⟩,
   ⟨{ rdyC { cmdR with desc := { cmdR.desc with cls := 4 } } with decks := [(0, { Deck.new with waiters := [wtr] })] }, 0, wtr, { cmdR with desc := { cmdR.desc with cls := 4 } }, by decide +kernel⟩,
   ⟨{ wtr with recovery := true }, wtr, by decide +kernel⟩,
   ⟨{ wtr with live := true }, wtr, by decide +kernel⟩,
   ⟨wtr, { wtr with order := 5 }, by decide +kernel⟩,
   ⟨(deckA [.host]).setReg (1 * fnStride + 0x40020) 4096, 1, 0, 4096, ⟨0, 0⟩, ⟨1, 2, 0, [.host]⟩, by decide +kernel⟩,
   ⟨deckS r0, 1, 3, 3 * 2 ^ 32, by decide +kernel⟩,
   ⟨((deckA [.host]).setReg (1 * fnStride + 0x40020) 4096).setReg (2 * fnStride + 0x40020) 4096, 2, 0, 4096, ⟨0, 0⟩, ⟨1, 2, 0, [.host]⟩, by decide +kernel⟩,
   ⟨((deckA [.host]).setReg (1 * fnStride + 0x40020) 4096).setReg (1 * fnStride + 0x40020) 4351, 1, 0, 4351, ⟨0, 0⟩, ⟨1, 2, 0, [.host]⟩, by decide +kernel⟩,
   ⟨(deckA [.cmd 3]).setReg (1 * fnStride + 0x40020) 4096, 1, 0, 4096, ⟨0, 0⟩, ⟨1, 2, 0, [.cmd 3]⟩, by decide +kernel⟩,
   ⟨deckA [.host, .cmd 3], ⟨0, 0⟩, .cmd 3, ⟨1, 2, 0, [.host, .cmd 3]⟩, by decide +kernel⟩,
   ⟨deckA [.host], ⟨0, 0⟩, .host, ⟨1, 2, 0, [.host]⟩, by decide +kernel⟩,
   ⟨deckS r0, ((State.takeBuf (deckS r0) 0 ⟨1, 1, 0, [.cmd 0]⟩).getD (⟨0, 0⟩, r0)).2, 0, ⟨1, 1, 0, [.cmd 0]⟩, ⟨0, 2⟩, (some_is _ _ _ (by decide +kernel) (by decide +kernel))⟩,
   ⟨deckS r0, ((State.takeBuf (deckS r0) 0 ⟨1, 1, 0, [.cmd 0]⟩).getD (⟨0, 0⟩, r0)).2, 0, ⟨1, 1, 0, [.cmd 0]⟩, ⟨0, 2⟩, ⟨0, 1⟩, (some_is _ _ _ (by decide +kernel) (by decide +kernel)), (by decide +kernel)⟩,
   ⟨15, by decide +kernel⟩,
   ⟨{ r0 with decks := [(3, { Deck.new with owners := [(7, ⟨1, 2, 0, [.host]⟩)] })] }, 3, 1, 7, ⟨1, 2, 0, [.host]⟩, .host, by decide +kernel⟩,
   ⟨0x80000000, by decide +kernel⟩,
   ⟨0x7FFFFFFF, by decide +kernel⟩,
   ⟨((deckA [.host]).wr (F.dkStat_rebuilding.at (dkBase 0)) 1), 0, by decide +kernel⟩⟩

theorem wit_DramAccess :
    (∃ a, a < 448 * 2 ^ 30) ∧
    (∃ a, a < 448 * 2 ^ 30) ∧
    (∃ s : State, ∃ src : MemSrc, ∃ a : Nat, ∃ part : Nat, ∃ sc : Nat, ∃ p : Nat, s.srcPart src = some part ∧ s.dramOk part a = true ∧ dramMap a = (sc, p) ∧ s.serves sc = true ∧ p ∉ (s.subch sc).poison) ∧
    (∃ src : MemSrc, src ≠ .module) ∧
    (∃ s : State, ∃ src : MemSrc, ∃ a : Nat, ∃ part : Nat, ∃ sc : Nat, ∃ p : Nat, ∃ pos : Nat, ∃ e1 : List (Nat × Nat), ∃ t : State, s.srcPart src = some part ∧ s.dramOk part a = true ∧ dramMap a = (sc, p) ∧ s.serves sc = true ∧ p ∉ (s.subch sc).poison ∧ eccOf 39 e1 = .corrected pos ∧ (t = ((((if s.inSr sc then s.srExit sc false else s).touch sc p).traffic src 64).checkLine sc (p / 8)).2)) ∧
    (∃ i : Nat, ∃ v : Nat, i < 39 ∧ 0 < v ∧ v < 65536) ∧
    (∃ s : State, ∃ a : Nat, s.dramOk moduleKey a = false) ∧
    (∃ s : State, ∃ q : Fin 16, ∃ a : Nat, s.dramOk q.val a = false) ∧
    (∃ s : State, ∃ src : MemSrc, ∃ a : Nat, ∃ part : Nat, ∃ sc : Nat, ∃ p : Nat, ∃ data : List Byte, s.srcPart src = some part ∧ s.dramOk part a = true ∧ dramMap a = (sc, p) ∧ s.serves sc = true ∧ a % 64 + data.length ≤ 64) ∧
    (∃ fails : Fin 5, fails.val < 4) ∧
    (∃ s : State, (∀ k, k < 32 → (s.subch k).retraining = false)) ∧
    (∃ s : State, ∃ n : Nat, ∃ sc : Nat, ∃ p : Nat, n = s.dram.scrubPos ∧ n + 1 < 32 * 2 ^ 28 ∧ sc = n / 2 ^ 28 ∧ p = n % 2 ^ 28 ∧ s.rd F.drGScrub_en = 1 ∧ s.rd F.drGStat_memReady = 1 ∧ s.serves sc = true ∧ p ∉ (s.subch sc).poison ∧ s.inSr sc = false ∧ s.inPd sc (rankOf p) = false) ∧
    (∃ s : State, ∃ sc : Nat, ∃ p : Nat, ∃ t : Nat, sc = s.dram.scrubPos / 2 ^ 28 ∧ p = s.dram.scrubPos % 2 ^ 28 ∧ s.rd F.drGScrub_en = 1 ∧ s.rd F.drGStat_memReady = 1 ∧ s.serves sc = true ∧ (s.inPd sc (rankOf p) = true ∨ s.inSr sc = true) ∧ s.dram.scrubWait.getD s.now = t ∧ (s.dram.scrubWait = none ∨ s.nsSince t < 1000000)) ∧
    (∃ s : State, s.rd F.drGScrub_en = 0) :=
  ⟨⟨448 * 2 ^ 30 - 1, by decide +kernel⟩,
   ⟨448 * 2 ^ 30 - 1, by decide +kernel⟩,
   ⟨drm 0, .part 1, 0, 1, 0, 0, by decide +kernel⟩,
   ⟨.part 1, by decide +kernel⟩,
   ⟨drm 0, .part 1, 0, 1, 0, 0, 38, [(38, 0x8000)], ((((if (drm 0).inSr 0 then (drm 0).srExit 0 false else (drm 0)).touch 0 0).traffic (.part 1) 64).checkLine 0 (0 / 8)).2, (by decide +kernel), (by decide +kernel), (by decide +kernel), (by decide +kernel), (by decide +kernel), (by decide +kernel), (rfl)⟩,
   ⟨38, 65535, by decide +kernel⟩,
   ⟨drm 0, 0, by decide +kernel⟩,
   ⟨drm 0, 2, 0, by decide +kernel⟩,
   ⟨drm 0, .part 1, 63, 1, 0, 0, [7], by decide +kernel⟩,
   ⟨3, by decide +kernel⟩,
   ⟨r0, by decide +kernel⟩,
   ⟨(drm 0).wr F.drGScrub_en 1, 0, 0, 0, by decide +kernel⟩,
   ⟨((drm 0).wr F.drGScrub_en 1).setPd 0 0 true, 0, 0, 0, by decide +kernel, by decide +kernel, by decide +kernel, by decide +kernel, by decide +kernel, (.inl (by decide +kernel)), by decide +kernel, (.inl (by decide +kernel))⟩,
   ⟨(drm 0).wr F.drGScrub_en 0, by decide +kernel⟩⟩

theorem wit_DramMaintenance :
    (∃ s : State, ∃ sc : Fin 32, s.inSr sc.val = false ∧ s.dram.srAll = false) ∧
    (∃ s : State, ∃ sc : Fin 32, (s.inSr sc.val = true ∨ s.dram.srAll = true)) ∧
    (∃ s : State, ∃ sc : Fin 32, (s.subch sc.val).due = false) ∧
    (∃ s : State, ∃ sc : Fin 32, (s.subch sc.val).due = true) ∧
    (∃ s : State, ∃ sc : Fin 32, (s.subch sc.val).due = true ∧ (∀ k, k < 32 → (s.subch k).retraining = false) ∧ s.inSr sc.val = false ∧ s.dram.srAll = false ∧ s.rd F.drGGap_gapStart ≤ stLine s.now ∧ stLine s.now < s.rd F.drGGap_gapEnd) ∧
    (∃ s : State, ∃ sc : Fin 32, ((s.subch sc.val).due = false ∨ stLine s.now < s.rd F.drGGap_gapStart ∨ s.rd F.drGGap_gapEnd ≤ stLine s.now)) ∧
    (∃ s : State, ∃ sc : Fin 32, (s.subch sc.val).due = true ∧ (∀ k, k < 32 → (s.subch k).retraining = false) ∧ s.inSr sc.val = false ∧ s.dram.srAll = false ∧ stLine s.now = 0 ∧ s.rd F.drGRetrain_maxWait * 1000000 ≤ s.nsSince (s.subch sc.val).dueAt) ∧
    (∃ s : State, ∃ sc : Fin 32, (s.subch sc.val).retraining = true ∧ (∀ k, k < 32 → k ≠ sc.val → (s.subch k).urgent = false) ∧ (s.subch sc.val).urgent = false) ∧
    (∃ s : State, ∃ sc : Fin 32, (s.subch sc.val).retraining = true ∧ s.scState sc.val ≠ 1) ∧
    (∃ s : State, ∃ sc : Fin 32, (s.subch sc.val).retraining = true ∧ s.scState sc.val = 1) ∧
    (∃ s : State, ∃ sc : Fin 32, (s.subch sc.val).retraining = false) ∧
    (∃ s : State, ∃ sc : Fin 32, ∃ rank : Fin 2, s.inSr sc.val = false ∧ (s.subch sc.val).retraining = false ∧ s.idleFor sc.val rank.val (s.rd F.drGPd_pdIdle) = true) ∧
    (∃ s : State, ∃ sc : Fin 32, ∃ rank : Fin 2, ∃ t : Nat, tget (s.subch sc.val).lastReq rank.val = some t ∧ s.nsSince t < s.rd F.drGPd_pdIdle) ∧
    (∃ s : State, ∃ sc : Fin 32, s.rd F.drGPd_srIdle ≠ 0 ∧ (s.subch sc.val).retraining = false ∧ s.idleFor sc.val 0 (1000 * s.rd F.drGPd_srIdle) = true ∧ s.idleFor sc.val 1 (1000 * s.rd F.drGPd_srIdle) = true) ∧
    (∃ s : State, ∃ sc : Fin 32, s.inSr sc.val = true ∧ s.dram.srAll = false) ∧
    (∃ s : State, ∃ sc : Fin 32, ∃ k : Nat, ∃ rest : List Nat, (s.subch sc.val).repairDue = k :: rest ∧ s.inGap = true ∧ s.rd F.ftStat_recovering = 0 ∧ s.serves sc.val = true ∧ s.dram.svcRow = none ∧ (s.rd (F.drScPpr_used.at (scBase sc.val))).testBit (spareBit (k / 2) (k % 2)) = false) :=
  ⟨⟨onSub (drm 31) 31 fun c => { c with banks := [(16, bank5), (3, bank5)] }, 31, by decide +kernel⟩,
   ⟨(drm 31).setSr 31 true, 31, (.inl (by decide +kernel))⟩,
   ⟨drm 31, 31, by decide +kernel⟩,
   ⟨onSub (drm 31) 31 fun c => { c with due := true }, 31, by decide +kernel⟩,
   ⟨State.wr (onSub (drm 31) 31 fun c => { c with due := true }) F.drGGap_gapEnd 4, 31, by decide +kernel⟩,
   ⟨drm 31, 31, (.inl (by decide +kernel))⟩,
   ⟨State.wr (onSub (drm 31) 31 fun c => { c with due := true }) F.drGRetrain_maxWait 0, 31, by decide +kernel⟩,
   ⟨onSub (drm 31) 31 fun c => { c with due := true, retraining := true }, 31, by decide +kernel⟩,
   ⟨onSub (drm 31) 31 fun c => { c with due := true, retraining := true }, 31, by decide +kernel⟩,
   ⟨State.setScState (onSub (drm 31) 31 fun c => { c with due := true, retraining := true }) 31 1, 31, by decide +kernel⟩,
   ⟨drm 31, 31, by decide +kernel⟩,
   ⟨onSub (drm 31) 31 fun c => { c with banks := [(16, bank5), (3, bank5)] }, 31, 1, by decide +kernel⟩,
   ⟨(onSub (drm 31) 31 fun c => { c with lastReq := [(1, 0)] }).wr F.drGPd_pdIdle 9, 31, 1, 0, by decide +kernel⟩,
   ⟨State.wr (onSub (drm 31) 31 fun c => { c with banks := [(16, bank5), (3, bank5)] }) F.drGPd_srIdle 5, 31, by decide +kernel⟩,
   ⟨State.setSr (drm 31) 31 true, 31, by decide +kernel⟩,
   ⟨((onSub (drm 31) 31 fun c => { c with repairDue := [7, 9] }).wr F.drGGap_gapEnd 4), 31, 7, [9], by decide +kernel⟩⟩

theorem wit_SkidwayLink :
    (∃ s : State, ∃ n : Fin 3, ∃ l : Link, s.sky.xfers = [] ∧ (s.port n.val).linked = true ∧ (s.port n.val).rxSeq = l.seq.val ∧ (s.port n.val).replay = []) ∧
    (∃ s : State, ∃ n : Fin 3, ∃ l : Link, (s.port n.val).linked = true ∧ (s.port n.val).rxSeq ≠ l.seq.val) ∧
    (∃ s : State, ∃ n : Fin 3, (s.port n.val).linked = true) ∧
    (∃ s : State, ∃ n : Fin 3, (s.port n.val).linked = false) ∧
    (∃ s : State, ∃ n : Fin 3, ∃ ack : Fin 4096, (s.port n.val).linked = true ∧ (∀ k ∈ (s.port n.val).replay, k.seq ≠ ack.val) ∧ (s.port n.val).replay ≠ [] ∧ (s.port n.val).resends < 7) ∧
    (∃ s : State, ∃ n : Fin 3, ∃ ack : Fin 4096, (s.port n.val).linked = true ∧ (∀ k ∈ (s.port n.val).replay, k.seq ≠ ack.val) ∧ (s.port n.val).replay ≠ [] ∧ 7 ≤ (s.port n.val).resends) ∧
    (∃ s : State, ∃ n : Fin 3, ((s.port n.val).linked = false ∨ (s.port n.val).replay = [])) ∧
    (∃ s : State, ∃ n : Fin 3, ∃ ack : Fin 4096, ∃ k : SkyKept, ∃ rest : List SkyKept, (s.port n.val).linked = true ∧ (s.port n.val).replay = k :: rest ∧ k.seq = ack.val ∧ (s.port n.val).waiting = []) ∧
    (∃ s : State, ∃ n : Fin 3, ∃ ack : Fin 4096, ((s.port n.val).linked = false ∨ ∀ k ∈ (s.port n.val).replay, k.seq ≠ ack.val)) ∧
    (∃ s : State, ∃ n : Fin 3, (s.port n.val).ackDue = false) ∧
    (∃ s : State, ∃ n : Fin 3, (s.port n.val).ackDue = true) ∧
    (∃ s : State, ∃ n : Fin 3, (s.portState n.val = 0 ∨ s.portState n.val = 4)) ∧
    (∃ s : State, ∃ n : Fin 3, s.portState n.val ≠ 0 ∧ s.portState n.val ≠ 4 ∧ (s.port n.val).waiting = [] ∧ s.sky.xfers = []) ∧
    (∃ s : State, ∃ n : Fin 3, s.portState n.val = 0 ∧ s.skyOn = true) ∧
    (∃ s : State, ∃ n : Fin 3, (s.portState n.val ≠ 0 ∨ s.skyOn = false)) ∧
    (∃ s : State, ∃ n : Fin 3, s.portState n.val = 1 ∧ (s.port n.val).linked = false ∧ (s.port n.val).replay = [] ∧ (s.port n.val).waiting = []) ∧
    (∃ s : State, ∃ n : Fin 3, s.portState n.val ≠ 1) ∧
    (∃ c : Fin 4, ∃ m : Fin 8, 0 < c.val ∧ m.val < 2 ^ c.val) ∧
    (∃ c : Fin 4, ∃ m : Fin 8, 0 < c.val ∧ m.val < 2 ^ c.val) :=
  ⟨⟨sky 1 prt, 0, ⟨7, 3⟩, by decide +kernel⟩,
   ⟨sky 2 prt, 0, ⟨8, 3⟩, by decide +kernel⟩,
   ⟨sky 2 prt, 0, by decide +kernel⟩,
   ⟨r0, 2, by decide +kernel⟩,
   ⟨sky 2 ({ prt with replay := [kept1], resends := 6 }), 0, 2, by decide +kernel⟩,
   ⟨sky 2 ({ prt with replay := [kept1], resends := 7 }), 0, 2, by decide +kernel⟩,
   ⟨sky 2 prt, 0, (.inr (by decide +kernel))⟩,
   ⟨sky 2 ({ prt with replay := [kept1] }), 0, 3, kept1, [], by decide +kernel⟩,
   ⟨r0, 2, 4095, (.inl (by decide +kernel))⟩,
   ⟨sky 2 prt, 0, by decide +kernel⟩,
   ⟨sky 2 ({ prt with ackDue := true }), 0, by decide +kernel⟩,
   ⟨sky 4 prt, 0, (.inr (by decide +kernel))⟩,
   ⟨sky 3 prt, 0, by decide +kernel⟩,
   ⟨sky 0 Port.new, 0, by decide +kernel⟩,
   ⟨sky 1 Port.new, 0, (.inl (by decide +kernel))⟩,
   ⟨sky 1 Port.new, 0, by decide +kernel⟩,
   ⟨sky 2 prt, 0, by decide +kernel⟩,
   ⟨3, 7, by decide +kernel⟩,
   ⟨3, 7, by decide +kernel⟩⟩

theorem wit_SkidwayTransfers :
    (∃ s : State, ∃ slot : Fin 4096, ∃ c : Cmd, tget s.cmds slot.val = some c ∧ (c.commitDue = false ∨ s.pow.paused = true ∨ c.sent ≠ 0 ∨ s.toSend c = [])) ∧
    (∃ s : State, ∃ slot : Fin 4096, ∃ c : Cmd, ∃ w : Nat, ∃ a : Nat, ∃ n : Nat, ∃ q : Nat, ∃ data : List Byte, tget s.cmds slot.val = some c ∧ c.commitDue = true ∧ s.pow.paused = false ∧ c.committed = false ∧ c.sent = 0 ∧ c.accepted = [] ∧ s.toSend c = [(w, a, n)] ∧ s.sendPort (s.rd (F.txwCtl_dst.at (0x81000 + 0x20 * w))) 0 = some q ∧ s.dramRead c.desc.part a n = .ok data) ∧
    (∃ s : State, ∃ t : State, ∃ n : Fin 3, ∃ l : Link, ∃ dst : Fin 8, ∃ slot : Fin 4096, ∃ idx : Fin 1024, ∃ x : Xfer, s.portState n.val = 2 ∧ s.linkIn n.val l = some t ∧ dst.val = t.modId ∧ tget t.sky.xfers (slot.val * 1024 + idx.val) = some x) ∧
    (∃ s : State, ∃ t : State, ∃ n : Fin 3, ∃ l : Link, ∃ dst : Fin 8, ∃ slot : Fin 4096, ∃ idx : Fin 1024, ∃ x : Xfer, ∃ r : Fin 9, s.portState n.val = 2 ∧ s.linkIn n.val l = some t ∧ dst.val = t.modId ∧ tget t.sky.xfers (slot.val * 1024 + idx.val) = some x ∧ r.val ≠ 0 ∧ r.val ≠ 8) ∧
    (∃ c, c ≠ 6) ∧
    (∃ s : State, ∃ slot : Fin 4096, ∃ idx : Fin 1024, ∃ x : Xfer, tget s.sky.xfers (slot.val * 1024 + idx.val) = some x ∧ max 10 (s.rd F.swAckTo_us) * 1000 ≤ s.nsSince x.sentAt) ∧
    (∃ s : State, ∃ slot : Fin 4096, ∃ idx : Fin 1024, ∃ x : Xfer, tget s.sky.xfers (slot.val * 1024 + idx.val) = some x ∧ s.nsSince x.sentAt < max 10 (s.rd F.swAckTo_us) * 1000) ∧
    (∃ s : State, ∃ t : State, ∃ n : Fin 3, ∃ l : Link, ∃ w : SkyWrite, ∃ data : List Byte, s.portState n.val = 2 ∧ s.linkIn n.val l = some t ∧ w.dst.val = t.modId ∧ data.length ≤ 1024 ∧ w.kind.val = 0) ∧
    (∃ s : State, ∃ w : SkyWrite, ∃ o : Nat, ∃ base : Nat, o = rxwBase w.window.val ∧ base = s.rd2 (F.rxwBaseLo_base.at o) (F.rxwBaseHi_base.at o) ∧ s.rd (F.rxwCtl_en.at o) = 0) ∧
    (∃ s : State, ∃ w : SkyWrite, ∃ tag : Nat, ∃ o : Nat, ∃ base : Nat, o = rxwBase w.window.val ∧ base = s.rd2 (F.rxwBaseLo_base.at o) (F.rxwBaseHi_base.at o) ∧ s.rd (F.rxwCtl_en.at o) = 1 ∧ tag ∈ tgetD s.sky.rxIds w.window.val []) ∧
    (∃ s : State, ∃ w : SkyWrite, ∃ tag : Nat, ∃ o : Nat, ∃ base : Nat, ∃ data : List Byte, ∃ t, o = rxwBase w.window.val ∧ base = s.rd2 (F.rxwBaseLo_base.at o) (F.rxwBaseHi_base.at o) ∧ s.rd (F.rxwCtl_en.at o) = 1 ∧ tag ∉ tgetD s.sky.rxIds w.window.val [] ∧ s.rd (F.rxwStat_state.at o) = 1 ∧ (s.rd (F.rxwCtl_modMask.at o)).testBit w.src.val = true ∧ w.part.val = s.rd (F.rxwCtl_partition.at o) ∧ base + w.off.val + data.length ≤ s.rd2 (F.rxwLimitLo_limit.at o) (F.rxwLimitHi_limit.at o) ∧ s.dramWrite w.part.val (base + w.off.val) data = some t) ∧
    (∃ s : State, ∃ t : State, ∃ n : Fin 3, ∃ l : Link, ∃ w : SkyWrite, ∃ data : List Byte, s.portState n.val = 2 ∧ s.linkIn n.val l = some t ∧ w.dst.val = t.modId ∧ data.length ≤ 1024 ∧ w.kind.val = 1 ∧ tget (t.bole (t.physOf w.target.val)).wins w.window.val = none) ∧
    (∃ s : State, ∃ t : State, ∃ k : Nat, ∃ r : RemoteW, ∃ res : WriteRes, s.remote[k]? = some r ∧ r.src < 64 ∧ State.deliver { s with remote := s.remote.eraseIdx k } r s.now = (res, t)) ∧
    (∃ s : State, ∃ t : State, ∃ k : Nat, ∃ r : RemoteW, ∃ res : WriteRes, s.remote[k]? = some r ∧ 64 ≤ r.src ∧ State.deliver { s with remote := s.remote.eraseIdx k } r r.stamp = (res, t)) :=
  ⟨⟨rdyC cmdR, 0, cmdR, (by decide +kernel), (.inl (by decide +kernel))⟩,
   ⟨sendS, 0, cmdT, 0, 0, 8, 0, leBytes 8 5, (by decide +kernel), (by decide +kernel), (by decide +kernel), (by decide +kernel), (by decide +kernel), (by decide +kernel), (by decide +kernel), (by decide +kernel), (read_eq _ _ (by decide +kernel))⟩,
   ⟨skyX, linkOf skyX ⟨7, 3⟩, 0, ⟨7, 3⟩, 0, 0, 5, xf1, (by decide +kernel), (some_getD _ _ (by decide +kernel)), (by decide +kernel), (by decide +kernel)⟩,
   ⟨skyX, linkOf skyX ⟨7, 3⟩, 0, ⟨7, 3⟩, 0, 0, 5, xf1, 7, (by decide +kernel), (some_getD _ _ (by decide +kernel)), (by decide +kernel), (by decide +kernel), (by decide +kernel), (by decide +kernel)⟩,
   ⟨5, by decide +kernel⟩,
   ⟨{ skyX.wr F.swAckTo_us 0 with tl := { skyX.tl with now := mkStamp 1 0 0 } }, 0, 5, xf1, by decide +kernel⟩,
   ⟨skyX.wr F.swAckTo_us 100, 0, 5, xf1, by decide +kernel⟩,
   ⟨sky 2 prt, linkOf (sky 2 prt) ⟨7, 3⟩, 0, ⟨7, 3⟩, sw1, [1, 2], (by decide +kernel), (some_getD _ _ (by decide +kernel)), (by decide +kernel), (by decide +kernel), (by decide +kernel)⟩,
   ⟨sky 2 prt, sw1, rxwBase 3, 0, by decide +kernel⟩,
   ⟨{ rxS with sky := { rxS.sky with rxIds := [(3, [5])] } }, sw1, 5, rxwBase 3, 0, by decide +kernel⟩,
   ⟨rxS, sw1, 5, rxwBase 3, 0, leBytes 8 7, (State.dramWrite rxS 1 8 (leBytes 8 7)).getD r0, (by decide +kernel), (by decide +kernel), (by decide +kernel), (by decide +kernel), (by decide +kernel), (by decide +kernel), (by decide +kernel), (by decide +kernel), (some_getD _ _ (by decide +kernel))⟩,
   ⟨sky 2 prt, linkOf (sky 2 prt) ⟨7, 3⟩, 0, ⟨7, 3⟩, { sw1 with kind := 1 }, [1, 2], (by decide +kernel), (some_getD _ _ (by decide +kernel)), (by decide +kernel), (by decide +kernel), (by decide +kernel), (by decide +kernel)⟩,
   ⟨{ winS win2 with remote := [rw1] }, (dlv { winS win2 with remote := [rw1] } rw1 (State.now { winS win2 with remote := [rw1] })).2, 0, rw1, .accept, (by decide +kernel), (by decide +kernel), (pair_eq _ _ (by decide +kernel))⟩,
   ⟨{ winS ({ win1 with modMask := 2, modPart := 1 }) with remote := [{ rw1 with src := 65, stamp := 4, tag := 9 }] }, (dlv { winS ({ win1 with modMask := 2, modPart := 1 }) with remote := [{ rw1 with src := 65, stamp := 4, tag := 9 }] } ({ rw1 with src := 65, stamp := 4, tag := 9 }) 4).2, 0, { rw1 with src := 65, stamp := 4, tag := 9 }, .accept, (by decide +kernel), (by decide +kernel), (pair_eq _ _ (by decide +kernel))⟩⟩

theorem wit_QueueObjects :
    (∃ s : State, ∃ slot : Fin 4096, ∃ r, r ∈ controlRows slot ∧ (∀ c, ¬ controlTurn s slot r.2 c)) ∧
    (∃ s : State, ∃ slot : Fin 4096, ∃ c : Cmd, ∃ r, r ∈ controlRows slot ∧ controlTurn s slot r.2 c ∧ s.commonCheck c ≠ 0) ∧
    (∃ s : State, ∃ r : State, ∃ slot : Fin 4096, ∃ c : Cmd, ∃ q : Sq, controlRuns s slot 0x001 c r ∧ s.newSq c.desc.part c.desc = .ok q) ∧
    (∃ s : State, ∃ p : Nat, ∃ d : Desc, ∃ q : Sq, s.newSq p d = .ok q) ∧
    (∃ s : State, ∃ r : State, ∃ slot : Fin 4096, ∃ c : Cmd, ∃ e : Nat, controlRuns s slot 0x001 c r ∧ s.newSq c.desc.part c.desc = .error e) ∧
    (∃ s : State, ∃ r : State, ∃ slot : Fin 4096, ∃ c : Cmd, ∃ q : Cq, controlRuns s slot 0x003 c r ∧ s.newCq c.desc.part c.desc = .ok q) ∧
    (∃ s : State, ∃ p : Nat, ∃ d : Desc, ∃ q : Cq, s.newCq p d = .ok q) ∧
    (∃ s : State, ∃ r : State, ∃ slot : Fin 4096, ∃ c : Cmd, ∃ q : Ring, controlRuns s slot 0x005 c r ∧ s.newRing c.desc.part c.desc = .ok q) ∧
    (∃ s : State, ∃ p : Nat, ∃ d : Desc, ∃ q : Ring, s.newRing p d = .ok q) ∧
    (∃ s : State, ∃ r : State, ∃ slot : Fin 4096, ∃ c : Cmd, ∃ q : Sq, controlRuns s slot 0x002 c r ∧ c.desc.shape 0 < 16384 ∧ tget s.sqs (c.desc.shape 0) = some q ∧ q.part = c.desc.part) ∧
    (∃ s : State, ∃ n : Fin 16384, ∃ q : Sq, ∃ slot : Nat, tget s.sqs n.val = some q ∧ q.deleting = some slot ∧ q.fetching = false ∧ (∀ e ∈ s.cmds, e.2.sq ≠ n.val)) ∧
    (∃ s : State, ∃ n : Fin 16384, ∃ q : Sq, ∃ slot : Nat, tget s.sqs n.val = some q ∧ q.deleting = some slot ∧ (q.fetching = true ∨ ∃ e ∈ s.cmds, e.2.sq = n.val)) ∧
    (∃ s : State, ∃ n : Fin 16384, (∀ q, tget s.sqs n.val = some q → q.deleting = none)) ∧
    (∃ s : State, ∃ r : State, ∃ slot : Fin 4096, ∃ c : Cmd, ∃ q : Cq, controlRuns s slot 0x004 c r ∧ c.desc.shape 0 < 4096 ∧ tget s.cqs (c.desc.shape 0) = some q ∧ q.part = c.desc.part ∧ (∀ e ∈ s.sqs, e.2.cq ≠ c.desc.shape 0)) ∧
    (∃ s : State, ∃ r : State, ∃ slot : Fin 4096, ∃ c : Cmd, ∃ q : Cq, controlRuns s slot 0x004 c r ∧ c.desc.shape 0 < 4096 ∧ tget s.cqs (c.desc.shape 0) = some q ∧ q.part = c.desc.part ∧ (∃ e ∈ s.sqs, e.2.cq = c.desc.shape 0)) ∧
    (∃ s : State, ∃ r : State, ∃ slot : Fin 4096, ∃ c : Cmd, ∃ q : Ring, controlRuns s slot 0x006 c r ∧ c.desc.shape 0 < 1024 ∧ tget s.mrings (c.desc.shape 0) = some q ∧ q.part = c.desc.part ∧ (∀ e ∈ r.cmds, (e.2.inFlight = true ∨ e.2.phase = .killed) → ∀ a ∈ ringArgs e.2, a.1 ≠ c.desc.shape 0)) ∧
    (∃ s : State, ∃ slot : Nat, ∃ c : Cmd, tget s.cmds slot = some c) ∧
    (∃ s : State, ∃ slot : Nat, ∃ c : Cmd, tget s.cmds slot = some c ∧ c.late s.now = false) ∧
    (∃ s : State, ∃ slot : Nat, ∃ c : Cmd, tget s.cmds slot = some c ∧ c.late s.now = true) :=
  ⟨⟨rdy, 0, (Instr.createSq 0, 0x001), (by unfold controlRows; exact .head _), (by intro c h; exact absurd h.1 (by intro e; cases e))⟩,
   ⟨(ctlS (cmdO 1 [] []) []).wr F.ftStat_pfail 2, 0, cmdO 1 [] [], (Instr.createSq 0, 0x001), (by unfold controlRows; exact .head _), (by unfold controlTurn; decide +kernel), (by decide +kernel)⟩,
   ⟨ctlS (cmdO 1 [9, 16, 2 + 4096 + 2 ^ 14] [3 * 2 ^ 48 + 4096, 3 * 2 ^ 48 + 64]) [], ctlR (ctlS (cmdO 1 [9, 16, 2 + 4096 + 2 ^ 14] [3 * 2 ^ 48 + 4096, 3 * 2 ^ 48 + 64]) []) (cmdO 1 [9, 16, 2 + 4096 + 2 ^ 14] [3 * 2 ^ 48 + 4096, 3 * 2 ^ 48 + 64]), 0, cmdO 1 [9, 16, 2 + 4096 + 2 ^ 14] [3 * 2 ^ 48 + 4096, 3 * 2 ^ 48 + 64], { part := 1, place := ⟨4096, true, 64, true⟩, log2 := 4, head := 0, tail := 0, cls := 1, drop := true, cq := 2, stopped := false, deleting := none, templated := false, fetching := false, plan := false, bad := [], outs := [], fetched := 0 }, (by unfold controlRuns controlTurn; decide +kernel), (ok_of _ _ (by decide +kernel))⟩,
   ⟨ctlS (cmdO 1 [9, 16, 2 + 4096 + 2 ^ 14] [3 * 2 ^ 48 + 4096, 3 * 2 ^ 48 + 64]) [], 1, (cmdO 1 [9, 16, 2 + 4096 + 2 ^ 14] [3 * 2 ^ 48 + 4096, 3 * 2 ^ 48 + 64]).desc, { part := 1, place := ⟨4096, true, 64, true⟩, log2 := 4, head := 0, tail := 0, cls := 1, drop := true, cq := 2, stopped := false, deleting := none, templated := false, fetching := false, plan := false, bad := [], outs := [], fetched := 0 }, (ok_of _ _ (by decide +kernel))⟩,
   ⟨ctlS (cmdO 1 [16384, 16, 2] [3 * 2 ^ 48 + 4096, 3 * 2 ^ 48 + 64]) [], ctlR (ctlS (cmdO 1 [16384, 16, 2] [3 * 2 ^ 48 + 4096, 3 * 2 ^ 48 + 64]) []) (cmdO 1 [16384, 16, 2] [3 * 2 ^ 48 + 4096, 3 * 2 ^ 48 + 64]), 0, cmdO 1 [16384, 16, 2] [3 * 2 ^ 48 + 4096, 3 * 2 ^ 48 + 64], 0x320, (by unfold controlRuns controlTurn; decide +kernel), (err_of _ _ (by decide +kernel))⟩,
   ⟨ctlS (cmdO 3 [9, 16, 63 + 2 ^ 11] [3 * 2 ^ 48 + 4096, 3 * 2 ^ 48 + 64]) [], ctlR (ctlS (cmdO 3 [9, 16, 63 + 2 ^ 11] [3 * 2 ^ 48 + 4096, 3 * 2 ^ 48 + 64]) []) (cmdO 3 [9, 16, 63 + 2 ^ 11] [3 * 2 ^ 48 + 4096, 3 * 2 ^ 48 + 64]), 0, cmdO 3 [9, 16, 63 + 2 ^ 11] [3 * 2 ^ 48 + 4096, 3 * 2 ^ 48 + 64], { part := 1, place := ⟨4096, true, 64, true⟩, log2 := 4, prod := 0, cons := 0, vector := 63, irqEn := true, reserved := 0, plan := false, written := 0 }, (by unfold controlRuns controlTurn; decide +kernel), (ok_of _ _ (by decide +kernel))⟩,
   ⟨ctlS (cmdO 3 [9, 16, 63 + 2 ^ 11] [3 * 2 ^ 48 + 4096, 3 * 2 ^ 48 + 64]) [], 1, (cmdO 3 [9, 16, 63 + 2 ^ 11] [3 * 2 ^ 48 + 4096, 3 * 2 ^ 48 + 64]).desc, { part := 1, place := ⟨4096, true, 64, true⟩, log2 := 4, prod := 0, cons := 0, vector := 63, irqEn := true, reserved := 0, plan := false, written := 0 }, (ok_of _ _ (by decide +kernel))⟩,
   ⟨ctlS (cmdO 5 [9, 64, 3 + 3 * 8] [3 * 2 ^ 48 + 4096, 3 * 2 ^ 48 + 64]) [], ctlR (ctlS (cmdO 5 [9, 64, 3 + 3 * 8] [3 * 2 ^ 48 + 4096, 3 * 2 ^ 48 + 64]) []) (cmdO 5 [9, 64, 3 + 3 * 8] [3 * 2 ^ 48 + 4096, 3 * 2 ^ 48 + 64]), 0, cmdO 5 [9, 64, 3 + 3 * 8] [3 * 2 ^ 48 + 4096, 3 * 2 ^ 48 + 64], { part := 1, place := ⟨4096, true, 64, true⟩, log2 := 6, prod := 0, cons := 0, discard := true, faultEn := true, loadEn := false, vector := 3, irqEn := false, interval := 0, plan := false, dropped := 0 }, (by unfold controlRuns controlTurn; decide +kernel), (ok_of _ _ (by decide +kernel))⟩,
   ⟨ctlS (cmdO 5 [9, 64, 3 + 3 * 8] [3 * 2 ^ 48 + 4096, 3 * 2 ^ 48 + 64]) [], 1, (cmdO 5 [9, 64, 3 + 3 * 8] [3 * 2 ^ 48 + 4096, 3 * 2 ^ 48 + 64]).desc, { part := 1, place := ⟨4096, true, 64, true⟩, log2 := 6, prod := 0, cons := 0, discard := true, faultEn := true, loadEn := false, vector := 3, irqEn := false, interval := 0, plan := false, dropped := 0 }, (ok_of _ _ (by decide +kernel))⟩,
   ⟨ctlS (cmdO 2 [3] []) [], ctlR (ctlS (cmdO 2 [3] []) []) (cmdO 2 [3] []), 0, cmdO 2 [3] [], sq1, (by unfold controlRuns controlTurn; decide +kernel), (by decide +kernel), (by decide +kernel), (by decide +kernel)⟩,
   ⟨{ rdyC { cmdR with sq := 4 } with sqs := [(3, { sq1 with deleting := some 0, stopped := true })] }, 3, { sq1 with deleting := some 0, stopped := true }, 0, by decide +kernel⟩,
   ⟨{ rdyC cmdR with sqs := [(3, { sq1 with deleting := some 0, stopped := true })] }, 3, { sq1 with deleting := some 0, stopped := true }, 0, (by decide +kernel), (by decide +kernel), (.inr (by decide +kernel))⟩,
   ⟨rdy, 3, (by intro q h; cases h; rfl)⟩,
   ⟨{ ctlS (cmdO 4 [2] []) [] with sqs := [] }, ctlR ({ ctlS (cmdO 4 [2] []) [] with sqs := [] }) (cmdO 4 [2] []), 0, cmdO 4 [2] [], cq1, (by unfold controlRuns controlTurn; decide +kernel), (by decide +kernel), (by decide +kernel), (by decide +kernel), (by decide +kernel)⟩,
   ⟨ctlS (cmdO 4 [2] []) [], ctlR (ctlS (cmdO 4 [2] []) []) (cmdO 4 [2] []), 0, cmdO 4 [2] [], cq1, (by unfold controlRuns controlTurn; decide +kernel), (by decide +kernel), (by decide +kernel), (by decide +kernel), (by decide +kernel)⟩,
   ⟨ctlS (cmdO 6 [2] []) [], ctlR (ctlS (cmdO 6 [2] []) []) (cmdO 6 [2] []), 0, cmdO 6 [2] [], ring1, (by unfold controlRuns controlTurn; decide +kernel), (by decide +kernel), (by decide +kernel), (by decide +kernel), (by decide +kernel)⟩,
   ⟨rdyC cmdR, 0, cmdR, by decide +kernel⟩,
   ⟨rdyC cmdR, 0, cmdR, by decide +kernel⟩,
   ⟨rdyC cmdLt, 0, cmdLt, by decide +kernel⟩⟩

theorem wit_ContextsAndLists :
    (∃ s : State, ∃ r : State, ∃ slot : Fin 4096, ∃ c : Cmd, ∃ b : List Byte, ∃ id : Nat, controlRuns s slot 0x010 c r ∧ s.openEarly c.desc.part (c.desc.shape 0) = 0 ∧ r.inData slot.val c 0 (c.desc.arg 0) (ctxSize (c.desc.shape 0)) = .data b ∧ s.openRecord c.desc.part (c.desc.shape 0) b = 0 ∧ tfree s.ctxs 16384 = some id) ∧
    (∃ s : State, ∃ r : State, ∃ slot : Fin 4096, ∃ c : Cmd, controlRuns s slot 0x010 c r ∧ 5 ≤ c.desc.shape 0) ∧
    (∃ s : State, ∃ r : State, ∃ slot : Fin 4096, ∃ c : Cmd, controlRuns s slot 0x010 c r ∧ c.desc.shape 0 < 5 ∧ s.rd (F.ptQuota_contexts.at (ptBase c.desc.part)) ≤ s.partContexts c.desc.part) ∧
    (∃ s : State, ∃ r : State, ∃ slot : Fin 4096, ∃ c : Cmd, ∃ x : Ctx, controlRuns s slot 0x011 c r ∧ tget s.ctxs c.desc.ctx = some x ∧ x.part = c.desc.part ∧ x.parent = none ∧ r.ctxCmds c.desc.ctx c.order = true) ∧
    (∃ s : State, ∃ r : State, ∃ slot : Fin 4096, ∃ c : Cmd, ∃ x : Ctx, controlRuns s slot 0x011 c r ∧ tget s.ctxs c.desc.ctx = some x ∧ x.part = c.desc.part ∧ x.parent = none ∧ r.ctxCmds c.desc.ctx c.order = false) ∧
    (∃ s : State, ∃ id : Nat, ∃ x : Ctx, tget s.ctxs id = some x) ∧
    (∃ s : State, ∃ id : Nat, ∃ x : Ctx, ∃ k, ∃ y, tget s.ctxs id = some x ∧ k ≠ id ∧ tget s.ctxs k = some y ∧ y.parent ≠ some id) ∧
    (∃ s : State, ∃ r : State, ∃ slot : Fin 4096, ∃ c : Cmd, ∃ x : Ctx, ∃ b : List Byte, controlRuns s slot 0x012 c r ∧ tget s.ctxs c.desc.ctx = some x ∧ x.part = c.desc.part ∧ x.parent = none ∧ x.kind = 0 ∧ c.desc.shape 1 ≠ 0 ∧ 32 ≤ c.desc.shape 0 ∧ c.desc.shape 0 + c.desc.shape 1 ≤ 64 ∧ r.inData slot.val c 0 (c.desc.arg 0) (c.desc.shape 1) = .data b) ∧
    (∃ off : Nat, ∃ len : Nat, 32 ≤ off ∧ 0 < len) ∧
    (∃ p : List Byte, p.length = 64) ∧
    (∃ p : List Byte, ∃ k, p.length = 64 ∧ (k < 46 ∨ (48 ≤ k ∧ k < 52))) ∧
    (∃ s : State, ∃ r : State, ∃ slot : Fin 4096, ∃ c : Cmd, ∃ x : Ctx, controlRuns s slot 0x013 c r ∧ tget s.ctxs c.desc.ctx = some x ∧ x.part = c.desc.part ∧ x.parent = none ∧ c.desc.shape 1 ≠ 0 ∧ c.desc.shape 0 + c.desc.shape 1 ≤ ctxSize x.kind ∧ argSpace (c.desc.arg 0) = 3) ∧
    (∃ s : State, ∃ r : State, ∃ slot : Fin 4096, ∃ c : Cmd, ∃ x : Ctx, ∃ t, controlRuns s slot 0x013 c r ∧ tget s.ctxs c.desc.ctx = some x ∧ x.part = c.desc.part ∧ x.parent = none ∧ c.desc.shape 1 ≠ 0 ∧ c.desc.shape 0 + c.desc.shape 1 ≤ ctxSize x.kind ∧ argSpace (c.desc.arg 0) ≠ 3 ∧ r.dramWrite c.desc.part (argAddr (c.desc.arg 0)) ((x.params.drop (c.desc.shape 0)).take (c.desc.shape 1)) = some t) ∧
    (∃ s : State, ∃ r : State, ∃ slot : Fin 4096, ∃ c : Cmd, ∃ b : List Byte, ∃ l : CutList, ∃ h : Nat, controlRuns s slot 0x020 c r ∧ argSpace (c.desc.arg 0) = 0 ∧ argAddr (c.desc.arg 0) % 64 = 0 ∧ r.inData slot.val c 0 (c.desc.arg 0) (min (c.desc.shape 0) (192 + 16 * 65536 + 1)) = .data b ∧ s.registerCheck c.desc.part b (c.desc.shape 0) = .ok l ∧ tfree s.lists 4096 = some h) ∧
    (∃ s : State, ∃ r : State, ∃ slot : Fin 4096, ∃ c : Cmd, ∃ b : List Byte, ∃ k : Nat, controlRuns s slot 0x020 c r ∧ argSpace (c.desc.arg 0) = 0 ∧ argAddr (c.desc.arg 0) % 64 = 0 ∧ r.inData slot.val c 0 (c.desc.arg 0) (min (c.desc.shape 0) (192 + 16 * 65536 + 1)) = .data b ∧ s.registerCheck c.desc.part b (c.desc.shape 0) = .error k) ∧
    (∃ s : State, ∃ p : Nat, ∃ len : Nat, ∃ b : List Byte, ∃ l : CutList, s.registerCheck p b len = .ok l) ∧
    (∃ s : State, ∃ r : State, ∃ slot : Fin 4096, ∃ c : Cmd, ∃ l : CutList, controlRuns s slot 0x021 c r ∧ tget s.lists (c.desc.shape 0) = some l ∧ l.part = c.desc.part ∧ (∀ e ∈ r.cmds, e.2.desc.cls = 1 → e.2.desc.op = c.desc.shape 0 → e.2.inFlight = false ∧ e.2.phase ≠ .killed)) ∧
    (∃ s : State, ∃ r : State, ∃ slot : Fin 4096, ∃ c : Cmd, ∃ l : CutList, controlRuns s slot 0x021 c r ∧ tget s.lists (c.desc.shape 0) = some l ∧ l.part = c.desc.part ∧ (∃ e ∈ r.cmds, e.2.desc.cls = 1 ∧ e.2.desc.op = c.desc.shape 0 ∧ (e.2.inFlight = true ∨ e.2.phase = .killed))) ∧
    (∃ s : State, ∃ r : State, ∃ slot : Fin 4096, ∃ c : Cmd, controlRuns s slot 0x021 c r ∧ (∀ l, tget s.lists (c.desc.shape 0) = some l → l.part ≠ c.desc.part)) ∧
    (∃ s : State, ∃ r : State, ∃ slot : Fin 4096, ∃ c : Cmd, ∃ b : List Byte, ∃ h : Nat, controlRuns s slot 0x022 c r ∧ r.inData slot.val c 0 (c.desc.arg 0) (c.desc.shape 0) = .data b ∧ tfree s.dicts 16 = some h ∧ dictOk b = true) ∧
    (∃ s : State, ∃ r : State, ∃ slot : Fin 4096, ∃ c : Cmd, ∃ b : List Byte, ∃ h : Nat, controlRuns s slot 0x022 c r ∧ r.inData slot.val c 0 (c.desc.arg 0) (c.desc.shape 0) = .data b ∧ tfree s.dicts 16 = some h ∧ dictOk b = false) ∧
    (∃ s : State, ∃ r : State, ∃ slot : Fin 4096, ∃ c : Cmd, ∃ d : Dict, controlRuns s slot 0x023 c r ∧ tget s.dicts (c.desc.shape 0) = some d ∧ d.part = some c.desc.part ∧ (∀ e ∈ r.cmds, e.2.desc.cls ≠ 6)) ∧
    (∃ s : State, ∃ r : State, ∃ slot : Fin 4096, ∃ c : Cmd, ∃ d : Dict, controlRuns s slot 0x023 c r ∧ tget s.dicts (c.desc.shape 0) = some d ∧ d.part ≠ some c.desc.part) :=
  ⟨⟨ctlS (cmdO 0x10 [4] [0]) (List.replicate 16 0), ctlR (ctlS (cmdO 0x10 [4] [0]) (List.replicate 16 0)) (cmdO 0x10 [4] [0]), 0, cmdO 0x10 [4] [0], List.replicate 16 0, 0, (by unfold controlRuns controlTurn; decide +kernel), (by decide +kernel), (data_of _ _ (by decide +kernel)), (by decide +kernel), (by decide +kernel)⟩,
   ⟨ctlS (cmdO 0x10 [5] []) [], ctlR (ctlS (cmdO 0x10 [5] []) []) (cmdO 0x10 [5] []), 0, cmdO 0x10 [5] [], (by unfold controlRuns controlTurn; decide +kernel), (by decide +kernel)⟩,
   ⟨{ ctlS (cmdO 0x10 [4] []) [] with ctxs := [(0, ctx4), (1, ctx4), (2, ctx4), (3, ctx4)] }, ctlR ({ ctlS (cmdO 0x10 [4] []) [] with ctxs := [(0, ctx4), (1, ctx4), (2, ctx4), (3, ctx4)] }) (cmdO 0x10 [4] []), 0, cmdO 0x10 [4] [], (by unfold controlRuns controlTurn; decide +kernel), (by decide +kernel), (by decide +kernel)⟩,
   ⟨{ { ctlS ({ cmdO 0x11 [] [] with desc := { (cmdO 0x11 [] []).desc with ctx := 6, ctxValid := true } }) [] with ctxs := [(6, ctx4)] } with cmds := [(0, { cmdO 0x11 [] [] with desc := { (cmdO 0x11 [] []).desc with ctx := 6, ctxValid := true } }), (1, { cmdR with order := 0, sq := 4, desc := { cmdR.desc with ctx := 6, ctxValid := true } })] }, ctlR ({ { ctlS ({ cmdO 0x11 [] [] with desc := { (cmdO 0x11 [] []).desc with ctx := 6, ctxValid := true } }) [] with ctxs := [(6, ctx4)] } with cmds := [(0, { cmdO 0x11 [] [] with desc := { (cmdO 0x11 [] []).desc with ctx := 6, ctxValid := true } }), (1, { cmdR with order := 0, sq := 4, desc := { cmdR.desc with ctx := 6, ctxValid := true } })] }) ({ cmdO 0x11 [] [] with desc := { (cmdO 0x11 [] []).desc with ctx := 6, ctxValid := true } }), 0, { cmdO 0x11 [] [] with desc := { (cmdO 0x11 [] []).desc with ctx := 6, ctxValid := true } }, ctx4, (by unfold controlRuns controlTurn; decide +kernel), (by decide +kernel), (by decide +kernel), (by decide +kernel), (by decide +kernel)⟩,
   ⟨{ ctlS ({ cmdO 0x11 [] [] with desc := { (cmdO 0x11 [] []).desc with ctx := 6, ctxValid := true } }) [] with ctxs := [(6, ctx4)] }, ctlR ({ ctlS ({ cmdO 0x11 [] [] with desc := { (cmdO 0x11 [] []).desc with ctx := 6, ctxValid := true } }) [] with ctxs := [(6, ctx4)] }) ({ cmdO 0x11 [] [] with desc := { (cmdO 0x11 [] []).desc with ctx := 6, ctxValid := true } }), 0, { cmdO 0x11 [] [] with desc := { (cmdO 0x11 [] []).desc with ctx := 6, ctxValid := true } }, ctx4, (by unfold controlRuns controlTurn; decide +kernel), (by decide +kernel), (by decide +kernel), (by decide +kernel), (by decide +kernel)⟩,
   ⟨{ r0 with ctxs := [(6, ctx4)] }, 6, ctx4, by decide +kernel⟩,
   ⟨{ r0 with ctxs := [(6, ctx4), (7, ctx0)] }, 6, ctx4, 7, ctx0, by decide +kernel⟩,
   ⟨{ ctlS ({ cmdO 0x12 [60, 4] [0] with desc := { (cmdO 0x12 [60, 4] [0]).desc with ctx := 6, ctxValid := true } }) [1, 2, 3, 4] with ctxs := [(6, ctx0)] }, ctlR ({ ctlS ({ cmdO 0x12 [60, 4] [0] with desc := { (cmdO 0x12 [60, 4] [0]).desc with ctx := 6, ctxValid := true } }) [1, 2, 3, 4] with ctxs := [(6, ctx0)] }) ({ cmdO 0x12 [60, 4] [0] with desc := { (cmdO 0x12 [60, 4] [0]).desc with ctx := 6, ctxValid := true } }), 0, { cmdO 0x12 [60, 4] [0] with desc := { (cmdO 0x12 [60, 4] [0]).desc with ctx := 6, ctxValid := true } }, ctx0, [1, 2, 3, 4], (by unfold controlRuns controlTurn; decide +kernel), (by decide +kernel), (by decide +kernel), (by decide +kernel), (by decide +kernel), (by decide +kernel), (by decide +kernel), (by decide +kernel), (data_of _ _ (by decide +kernel))⟩,
   ⟨36, 5, by decide +kernel⟩,
   ⟨List.replicate 64 255, by decide +kernel⟩,
   ⟨List.replicate 64 255, 51, (by decide +kernel), (.inr (by decide +kernel))⟩,
   ⟨{ ctlS ({ cmdO 0x13 [0, 16] [3 * 2 ^ 48] with desc := { (cmdO 0x13 [0, 16] [3 * 2 ^ 48]).desc with ctx := 6, ctxValid := true } }) [] with ctxs := [(6, ctx4)] }, ctlR ({ ctlS ({ cmdO 0x13 [0, 16] [3 * 2 ^ 48] with desc := { (cmdO 0x13 [0, 16] [3 * 2 ^ 48]).desc with ctx := 6, ctxValid := true } }) [] with ctxs := [(6, ctx4)] }) ({ cmdO 0x13 [0, 16] [3 * 2 ^ 48] with desc := { (cmdO 0x13 [0, 16] [3 * 2 ^ 48]).desc with ctx := 6, ctxValid := true } }), 0, { cmdO 0x13 [0, 16] [3 * 2 ^ 48] with desc := { (cmdO 0x13 [0, 16] [3 * 2 ^ 48]).desc with ctx := 6, ctxValid := true } }, ctx4, (by unfold controlRuns controlTurn; decide +kernel), (by decide +kernel), (by decide +kernel), (by decide +kernel), (by decide +kernel), (by decide +kernel), (by decide +kernel)⟩,
   ⟨{ ctlS ({ cmdO 0x13 [0, 16] [0] with desc := { (cmdO 0x13 [0, 16] [0]).desc with ctx := 6, ctxValid := true } }) [] with ctxs := [(6, ctx4)] }, ctlR ({ ctlS ({ cmdO 0x13 [0, 16] [0] with desc := { (cmdO 0x13 [0, 16] [0]).desc with ctx := 6, ctxValid := true } }) [] with ctxs := [(6, ctx4)] }) ({ cmdO 0x13 [0, 16] [0] with desc := { (cmdO 0x13 [0, 16] [0]).desc with ctx := 6, ctxValid := true } }), 0, { cmdO 0x13 [0, 16] [0] with desc := { (cmdO 0x13 [0, 16] [0]).desc with ctx := 6, ctxValid := true } }, ctx4, (State.dramWrite (ctlR ({ ctlS ({ cmdO 0x13 [0, 16] [0] with desc := { (cmdO 0x13 [0, 16] [0]).desc with ctx := 6, ctxValid := true } }) [] with ctxs := [(6, ctx4)] }) ({ cmdO 0x13 [0, 16] [0] with desc := { (cmdO 0x13 [0, 16] [0]).desc with ctx := 6, ctxValid := true } })) 1 0 (List.replicate 16 0)).getD r0, (by unfold controlRuns controlTurn; decide +kernel), (by decide +kernel), (by decide +kernel), (by decide +kernel), (by decide +kernel), (by decide +kernel), (by decide +kernel), (some_getD _ _ (by decide +kernel))⟩,
   ⟨ctlS (cmdO 0x20 [208] [0]) bin1, ctlR (ctlS (cmdO 0x20 [208] [0]) bin1) (cmdO 0x20 [208] [0]), 0, cmdO 0x20 [208] [0], bin1, { list1 with budget := 1000, aConst := List.replicate 8 0, check := 2807382999 }, 0, (by unfold controlRuns controlTurn; decide +kernel), (by decide +kernel), (by decide +kernel), (data_of _ _ (by decide +kernel)), (ok_of _ _ (by decide +kernel)), (by decide +kernel)⟩,
   ⟨ctlS (cmdO 0x20 [208] [0]) (List.replicate 208 0), ctlR (ctlS (cmdO 0x20 [208] [0]) (List.replicate 208 0)) (cmdO 0x20 [208] [0]), 0, cmdO 0x20 [208] [0], List.replicate 208 0, 1, (by unfold controlRuns controlTurn; decide +kernel), (by decide +kernel), (by decide +kernel), (data_of _ _ (by decide +kernel)), (err_of _ _ (by decide +kernel))⟩,
   ⟨ctlS (cmdO 0x20 [208] [0]) bin1, 1, 208, bin1, { list1 with budget := 1000, aConst := List.replicate 8 0, check := 2807382999 }, (ok_of _ _ (by decide +kernel))⟩,
   ⟨{ ctlS (cmdO 0x21 [5] []) [] with cmds := [(0, cmdO 0x21 [5] []), (1, { cmdR with sq := 4, desc := { cmdR.desc with op := 6 } })] }, ctlR ({ ctlS (cmdO 0x21 [5] []) [] with cmds := [(0, cmdO 0x21 [5] []), (1, { cmdR with sq := 4, desc := { cmdR.desc with op := 6 } })] }) (cmdO 0x21 [5] []), 0, cmdO 0x21 [5] [], list1, (by unfold controlRuns controlTurn; decide +kernel), (by decide +kernel), (by decide +kernel), (by decide +kernel)⟩,
   ⟨{ ctlS (cmdO 0x21 [5] []) [] with cmds := [(0, cmdO 0x21 [5] []), (1, { cmdR with sq := 4 })] }, ctlR ({ ctlS (cmdO 0x21 [5] []) [] with cmds := [(0, cmdO 0x21 [5] []), (1, { cmdR with sq := 4 })] }) (cmdO 0x21 [5] []), 0, cmdO 0x21 [5] [], list1, (by unfold controlRuns controlTurn; decide +kernel), (by decide +kernel), (by decide +kernel), (by decide +kernel)⟩,
   ⟨ctlS (cmdO 0x21 [6] []) [], ctlR (ctlS (cmdO 0x21 [6] []) []) (cmdO 0x21 [6] []), 0, cmdO 0x21 [6] [], (by unfold controlRuns controlTurn; decide +kernel), (by intro l h; cases h)⟩,
   ⟨ctlS (cmdO 0x22 [81] [0]) dict1, ctlR (ctlS (cmdO 0x22 [81] [0]) dict1) (cmdO 0x22 [81] [0]), 0, cmdO 0x22 [81] [0], dict1, 0, (by unfold controlRuns controlTurn; decide +kernel), (data_of _ _ (by decide +kernel)), (by decide +kernel), (by decide +kernel)⟩,
   ⟨ctlS (cmdO 0x22 [81] [0]) (dict1.take 80 ++ [98]), ctlR (ctlS (cmdO 0x22 [81] [0]) (dict1.take 80 ++ [98])) (cmdO 0x22 [81] [0]), 0, cmdO 0x22 [81] [0], dict1.take 80 ++ [98], 0, (by unfold controlRuns controlTurn; decide +kernel), (data_of _ _ (by decide +kernel)), (by decide +kernel), (by decide +kernel)⟩,
   ⟨{ ctlS (cmdO 0x23 [7] []) [] with dicts := [(7, ⟨some 1, dict1⟩)] }, ctlR ({ ctlS (cmdO 0x23 [7] []) [] with dicts := [(7, ⟨some 1, dict1⟩)] }) (cmdO 0x23 [7] []), 0, cmdO 0x23 [7] [], (⟨some 1, dict1⟩ : Dict), (by unfold controlRuns controlTurn; decide +kernel), (by decide +kernel), (by decide +kernel), (by decide +kernel)⟩,
   ⟨{ ctlS (cmdO 0x23 [7] []) [] with dicts := [(7, ⟨none, dict1⟩)] }, ctlR ({ ctlS (cmdO 0x23 [7] []) [] with dicts := [(7, ⟨none, dict1⟩)] }) (cmdO 0x23 [7] []), 0, cmdO 0x23 [7] [], (⟨none, dict1⟩ : Dict), (by unfold controlRuns controlTurn; decide +kernel), (by decide +kernel), (by decide +kernel)⟩⟩

theorem wit_Pictures :
    (∃ s : State, ∃ slot : Fin 4096, ∃ c : Cmd, ∃ b : List Byte, tget s.cmds slot.val = some c ∧ c.desc.cls = 2 ∧ c.desc.op = 0 ∧ c.queued = false ∧ s.pow.paused = false ∧ (c.phase = .eligible ∨ c.phase = .killed) ∧ s.lateDrop c = false ∧ s.commonCheck c = 0 ∧ s.ctxClosed c = false ∧ s.triggersReady c.desc.ctx = true ∧ (s.fetchStalls c = false ∨ c.rerun = true) ∧ s.inData slot.val c 0 (c.desc.arg 0) (c.desc.shape 0) = .data b) ∧
    (∃ s : State, ∃ slot : Fin 4096, ∃ c : Cmd, ∃ x : Ctx, ∃ order : List Nat, ∃ t : State, tget s.cmds slot.val = some c ∧ c.desc.cls = 2 ∧ c.desc.op = 1 ∧ (c.phase = .eligible ∨ c.phase = .killed) ∧ s.lateDrop c = false ∧ s.epochWait c = false ∧ s.commonCheck c = 0 ∧ tget s.ctxs c.desc.ctx = some x ∧ s.ctxClosed c = false ∧ s.triggersReady c.desc.ctx = true ∧ (order.mergeSort = ((List.range x.dpb.length).filter fun n => match x.dpb[n]? with | some p => !p.shown | none => false)) ∧ s.tryDispatch slot.val c = .go t) ∧
    (∃ s : State, ∃ slot : Fin 4096, ∃ h : PicHead, ∃ c : Cmd, ∃ x : Ctx, ∃ e : Nat, tget s.cmds slot.val = some c ∧ c.desc.cls = 2 ∧ s.wantsEngine c = true ∧ s.pictureNext slot.val c = true ∧ s.mediaMay c = true ∧ (∀ k ∈ enginesOf 2, (s.engine k).aside = none) ∧ s.idleEngine 2 = some e ∧ s.lateDrop c = false ∧ s.commonCheck c = 0 ∧ tget s.ctxs c.desc.ctx = some x ∧ s.ctxClosed c = false ∧ (c.desc.epoch = 0 ∨ seqLt (s.engine e).epoch c.desc.epoch = false) ∧ x.rejects h ≠ 0) ∧
    (∃ s : State, ∃ slot : Fin 4096, ∃ h : PicHead, ∃ c : Cmd, ∃ x : Ctx, ∃ e : Nat, ∃ bufs : List (Nat × BufRef), ∃ t : State, ∃ s1 : State, ∃ s2 : State, ∃ s3 : State, tget s.cmds slot.val = some c ∧ c.desc.cls = 2 ∧ s.wantsEngine c = true ∧ s.pictureNext slot.val c = true ∧ s.mediaMay c = true ∧ (∀ k ∈ enginesOf 2, (s.engine k).aside = none) ∧ s.idleEngine 2 = some e ∧ s.lateDrop c = false ∧ s.commonCheck c = 0 ∧ tget s.ctxs c.desc.ctx = some x ∧ s.ctxClosed c = false ∧ (c.desc.epoch = 0 ∨ seqLt (s.engine e).epoch c.desc.epoch = false) ∧ x.rejects h = 0 ∧ c.frameBuf = none ∧ c.mapBuf = none ∧ s.tryDispatch slot.val c = .go t ∧ s.takeDecks slot.val c x.isLive (x.mediaDecks 2) = .got bufs s1 ∧ bufs ≠ [] ∧ s1.tryDispatch slot.val c = .go s2 ∧ (s3 = s2.modCmd slot.val (fun d => { d with waitDeck := none, epoch := (s.engine e).epoch, holds := d.holds ++ bufs.map (·.2), src := c.src, frameBuf := tget bufs 0, mapBuf := tget bufs 1 }))) ∧
    (∃ s : State, ∃ e : Nat, s.idleEngine 2 = some e) ∧
    (∃ s : State, ∃ e : Nat, ∃ k, s.idleEngine 2 = some e ∧ k < e) ∧
    (∃ h : PicHead, (h.ok = false ∨ 8192 < h.w ∨ 4352 < h.h ∨ 35651584 < h.w * h.h)) ∧
    (∃ s : State, ∃ e : Fin 6, ∃ j : Job, (s.engine e.val).job = some j ∧ s.pow.paused = false ∧ 64 + e.val ∉ s.sched.switching) ∧
    (∃ s : State, ∃ e : Fin 6, ∃ j : Job, (s.engine e.val).job = some j ∧ s.pow.paused = false ∧ s.sched.switching = [64 + e.val] ∧ s.rdB F.scStat_switching = true) ∧
    (∃ s : State, ∃ e : Fin 4, ∃ j : Job, (s.engine e.val).job = some j ∧ s.pow.paused = false ∧ j.expired = false) ∧
    (∃ s : State, ∃ e : Fin 4, ∃ j : Job, (s.engine e.val).job = some j ∧ s.pow.paused = false ∧ j.expired = true) ∧
    (∃ s : State, ∃ t : State, ∃ e : Fin 4, ∃ r : PicEnd, ∃ j : Job, ∃ c : Cmd, ∃ x : Ctx, ∃ fb : BufRef, ∃ p : Pic, ∃ uc : Word, (s.engine e.val).job = some j ∧ s.pow.paused = false ∧ tget s.cmds j.slot = some c ∧ tget s.ctxs j.ctx = some x ∧ c.frameBuf = some fb ∧ c.mapBuf = none ∧ c.desc.notBefore ≠ noStamp ∧ r.short = false ∧ r.syntaxErr = false ∧ r.lone = none ∧ r.refMissing = false ∧ j.expired = false ∧ j.damaged = false ∧ picCycles r ≤ x.budgetOf r ∧ x.grain = false ∧ j.head.unref = [] ∧ uc = BitVec.ofNat 32 (s.rd (F.engVer_ver.at (engBase e.val))) ∧ p = { id := 0, frame := fb, map := none, stamp := c.desc.notBefore, ref := j.head.isRef, shown := false, w := j.head.w, h := j.head.h, d10 := j.head.d10, chroma := j.head.chroma.val, key := j.head.key, intra := r.intra, hidden := r.hidden ++ r.marked, unpaired := false, clean := [] } ∧ t = s.writeFrame c.desc.part (s.frameOf p) 0 (s.frameOf p).h (s.decodedValue (Config.decodedSample x.params x.decHist c.src uc) (s.frameOf p) p r.hidden none x.lastOut)) ∧
    (∃ f : Frame, ∃ hidden : List Nat, ∃ plane : Nat, ∃ y : Nat, ∃ x : Nat, f.blockOf plane y x ∉ hidden) ∧
    (∃ f : Frame, ∃ hidden : List Nat, ∃ plane : Nat, ∃ y : Nat, ∃ x : Nat, f.blockOf plane y x ∈ hidden) ∧
    (∃ f : Frame, ∃ p : Pic, ∃ hidden : List Nat, ∃ plane : Nat, ∃ y : Nat, ∃ x : Nat, ∃ q, f.blockOf plane y x ∈ hidden ∧ p.sameShape q = true) ∧
    (∃ s : State, ∃ e : Fin 4, (s.engine e.val).job = none) ∧
    (∃ blocks : Nat, 0 < blocks) ∧
    (∃ s : State, ∃ s0 : State, ∃ s1 : State, ∃ e : Fin 2, ∃ read : Nat, ∃ j : Job, ∃ c : Cmd, ∃ x : Ctx, ∃ ob : BufRef, ∃ rb : BufRef, ∃ src : List Byte, ∃ out : List Byte, ∃ f : Frame, ∃ rf : Frame, ∃ uc : Word, (s.engine (4 + e.val)).job = some j ∧ s.pow.paused = false ∧ tget s.cmds j.slot = some c ∧ tget s.ctxs j.ctx = some x ∧ c.mapBuf = some ob ∧ c.frameBuf = some rb ∧ x.recon = none ∧ f = Frame.ofBytes c.src ∧ s.frameRead c.desc.part f = .ok src ∧ x.windowTrigger c.desc.op = false ∧ x.winLeft = 0 ∧ x.group = 0 ∧ x.encShape.2.1 ≤ x.encShape.2.2 ∧ f.h ≤ 64 * x.encShape.2.2 ∧ x.encRefs.length < field x.params 22 1 ∧ uc = BitVec.ofNat 32 (s.rd (F.engVer_ver.at (engBase (4 + e.val)))) ∧ out = Config.encBytes x.params x.encHist src c.desc.op uc ∧ s0 = (s.dramWrite c.desc.part (s.bufAddr ob) out).getD s ∧ rf = ⟨s0.bufAddr rb, s0.bufSize rb.deck, f.w, f.h, (frameLayout f.w f.h f.wide 1).1, (frameLayout f.w f.h f.wide 1).2.1, (frameLayout f.w f.h f.wide 1).2.2.1, 1, f.wide⟩ ∧ (s1 = State.engineDone (State.addWork (State.keepBuf (State.publishBuf (s0.writeFrame c.desc.part rf 0 f.h fun plane y k => Config.encSample x.params x.encHist src c.desc.op uc (plane, y, k)) ob j.slot [.host]) rb j.slot j.ctx) j.slot (f.w * f.h) read (out.length + f.w * f.h) (f.w * f.h)) (4 + e.val) (f.w * f.h) 1)) ∧
    (∃ s : State, ∃ e : Fin 6, (s.engine e.val).mode ≠ 1) ∧
    (∃ s : State, ∃ e : Fin 6, (s.engine e.val).mode = 1 ∧ (s.engine e.val).job = none) ∧
    (∃ s : State, ∃ e : Fin 6, (s.engine e.val).mode = 1) ∧
    (∃ s : State, ∃ e : Fin 6, (s.engine e.val).mode = 4 ∧ s.sec.reloads = []) ∧
    (∃ s : State, ∃ e : Fin 6, ∃ j : Job, ∃ c : Cmd, (s.engine e.val).mode = 1 ∧ s.pow.paused = false ∧ (s.engine e.val).job = some j ∧ (s.engine e.val).aside = none ∧ tget s.cmds j.slot = some c ∧ c.attempts ≤ 1 ∧ (s.idleEngine (if e.val < 4 then 2 else 3) = none) ∧ (∃ w ∈ s.cmds, w.2.desc.cls = (if e.val < 4 then 2 else 3) ∧ w.2.phase = .killed ∧ s.wantsEngine w.2 = true)) ∧
    (∃ s : State, ∃ slot : Fin 4096, ∃ c : Cmd, ∃ j : Job, ∃ e : Nat, ∃ k : Nat, tget s.cmds slot.val = some c ∧ s.idleEngine c.desc.cls = some e ∧ (((enginesOf c.desc.cls).find? fun k => match (s.engine k).aside with | some j => j.slot == slot.val | none => false) = some k) ∧ (s.engine k).aside = some j ∧ s.pow.paused = false ∧ (∀ w ∈ s.cmds, w.2.phase ≠ .killed)) :=
  ⟨⟨mem (medS (cmdM 2 0 .eligible [4] [0]) ctxD []) 0 [1, 2, 3, 4], 0, cmdM 2 0 .eligible [4] [0], [1, 2, 3, 4], (by decide +kernel), (by decide +kernel), (by decide +kernel), (by decide +kernel), (by decide +kernel), (.inl (by decide +kernel)), (by decide +kernel), (by decide +kernel), (by decide +kernel), (by decide +kernel), (.inl (by decide +kernel)), (data_of _ _ (by decide +kernel))⟩,
   ⟨medS (cmdM 2 1 .eligible [] []) ({ ctxD with dpb := [({ id := 0, frame := ⟨0, 0⟩, map := none, stamp := 5, ref := true, shown := false, w := 64, h := 64, d10 := false, chroma := 1, key := true, intra := [], hidden := [], unpaired := false, clean := [] } : Pic)] }) [], 0, cmdM 2 1 .eligible [] [], { ctxD with dpb := [({ id := 0, frame := ⟨0, 0⟩, map := none, stamp := 5, ref := true, shown := false, w := 64, h := 64, d10 := false, chroma := 1, key := true, intra := [], hidden := [], unpaired := false, clean := [] } : Pic)] }, [0], goneOf r0 (State.tryDispatch (medS (cmdM 2 1 .eligible [] []) ({ ctxD with dpb := [({ id := 0, frame := ⟨0, 0⟩, map := none, stamp := 5, ref := true, shown := false, w := 64, h := 64, d10 := false, chroma := 1, key := true, intra := [], hidden := [], unpaired := false, clean := [] } : Pic)] }) []) 0 (cmdM 2 1 .eligible [] [])), (by decide +kernel), (by decide +kernel), (by decide +kernel), (.inl (by decide +kernel)), (by decide +kernel), (by decide +kernel), (by decide +kernel), (by decide +kernel), (by decide +kernel), (by decide +kernel), (by decide +kernel), (goneOf_eq _ _ (by decide +kernel))⟩,
   ⟨medS ({ cmdM 2 0 .eligible [4] [0] with queued := true }) ctxD [(0, eng1)], 0, { hd1 with ok := false }, { cmdM 2 0 .eligible [4] [0] with queued := true }, ctxD, 0, (by decide +kernel), (by decide +kernel), (by decide +kernel), (by decide +kernel), (by decide +kernel), (by decide +kernel), (by decide +kernel), (by decide +kernel), (by decide +kernel), (by decide +kernel), (by decide +kernel), (.inl (by decide +kernel)), (by decide +kernel)⟩,
   ⟨medS ({ cmdM 2 0 .eligible [4] [0] with queued := true }) ctxD [(0, eng1)], 0, hd1, { cmdM 2 0 .eligible [4] [0] with queued := true }, ctxD, 0, (freshOf r0 (State.takeDecks (medS ({ cmdM 2 0 .eligible [4] [0] with queued := true }) ctxD [(0, eng1)]) 0 ({ cmdM 2 0 .eligible [4] [0] with queued := true }) ctxD.isLive (ctxD.mediaDecks 2))).1, goneOf r0 (State.tryDispatch (medS ({ cmdM 2 0 .eligible [4] [0] with queued := true }) ctxD [(0, eng1)]) 0 ({ cmdM 2 0 .eligible [4] [0] with queued := true })), (freshOf r0 (State.takeDecks (medS ({ cmdM 2 0 .eligible [4] [0] with queued := true }) ctxD [(0, eng1)]) 0 ({ cmdM 2 0 .eligible [4] [0] with queued := true }) ctxD.isLive (ctxD.mediaDecks 2))).2, goneOf r0 (State.tryDispatch (freshOf r0 (State.takeDecks (medS ({ cmdM 2 0 .eligible [4] [0] with queued := true }) ctxD [(0, eng1)]) 0 ({ cmdM 2 0 .eligible [4] [0] with queued := true }) ctxD.isLive (ctxD.mediaDecks 2))).2 0 ({ cmdM 2 0 .eligible [4] [0] with queued := true })), State.modCmd (goneOf r0 (State.tryDispatch (freshOf r0 (State.takeDecks (medS ({ cmdM 2 0 .eligible [4] [0] with queued := true }) ctxD [(0, eng1)]) 0 ({ cmdM 2 0 .eligible [4] [0] with queued := true }) ctxD.isLive (ctxD.mediaDecks 2))).2 0 ({ cmdM 2 0 .eligible [4] [0] with queued := true }))) 0 (fun d => { d with waitDeck := none, epoch := (State.engine (medS ({ cmdM 2 0 .eligible [4] [0] with queued := true }) ctxD [(0, eng1)]) 0).epoch, holds := d.holds ++ (freshOf r0 (State.takeDecks (medS ({ cmdM 2 0 .eligible [4] [0] with queued := true }) ctxD [(0, eng1)]) 0 ({ cmdM 2 0 .eligible [4] [0] with queued := true }) ctxD.isLive (ctxD.mediaDecks 2))).1.map (·.2), src := (Cmd.src ({ cmdM 2 0 .eligible [4] [0] with queued := true })), frameBuf := tget (freshOf r0 (State.takeDecks (medS ({ cmdM 2 0 .eligible [4] [0] with queued := true }) ctxD [(0, eng1)]) 0 ({ cmdM 2 0 .eligible [4] [0] with queued := true }) ctxD.isLive (ctxD.mediaDecks 2))).1 0, mapBuf := tget (freshOf r0 (State.takeDecks (medS ({ cmdM 2 0 .eligible [4] [0] with queued := true }) ctxD [(0, eng1)]) 0 ({ cmdM 2 0 .eligible [4] [0] with queued := true }) ctxD.isLive (ctxD.mediaDecks 2))).1 1 }), (by decide +kernel), (by decide +kernel), (by decide +kernel), (by decide +kernel), (by decide +kernel), (by decide +kernel), (by decide +kernel), (by decide +kernel), (by decide +kernel), (by decide +kernel), (by decide +kernel), (.inl (by decide +kernel)), (by decide +kernel), (by decide +kernel), (by decide +kernel), (goneOf_eq _ _ (by decide +kernel)), (fresh_eq _ _ (by decide +kernel)), (by decide +kernel), (goneOf_eq _ _ (by decide +kernel)), (rfl)⟩,
   ⟨medS ({ cmdM 2 0 .eligible [4] [0] with queued := true }) ctxD [(0, eng1)], 0, by decide +kernel⟩,
   ⟨medS cmdR ctxD [(3, eng1)], 3, 2, by decide +kernel⟩,
   ⟨{ hd1 with w := 8193 }, (.inr (.inl (by decide +kernel)))⟩,
   ⟨medS cmdR ctxD [(3, { eng1 with job := some jobP })], 3, jobP, by decide +kernel⟩,
   ⟨(State.wr { medS cmdR ctxD [(3, { eng1 with job := some jobP })] with sched := { r0.sched with switching := [67] } } F.scStat_switching 1), 3, jobP, by decide +kernel⟩,
   ⟨medS cmdR ctxD [(3, { eng1 with job := some jobP })], 3, jobP, by decide +kernel⟩,
   ⟨medS cmdR ctxD [(3, { eng1 with job := some { jobP with expired := true } })], 3, { jobP with expired := true }, by decide +kernel⟩,
   ⟨medS ({ cmdM 2 0 .running [] [] with frameBuf := some ⟨0, 0⟩, desc := { (cmdM 2 0 .running [] []).desc with notBefore := 5 } }) ctxD [(3, { eng1 with job := some jobP })], State.writeFrame (medS ({ cmdM 2 0 .running [] [] with frameBuf := some ⟨0, 0⟩, desc := { (cmdM 2 0 .running [] []).desc with notBefore := 5 } }) ctxD [(3, { eng1 with job := some jobP })]) 1 (State.frameOf (medS ({ cmdM 2 0 .running [] [] with frameBuf := some ⟨0, 0⟩, desc := { (cmdM 2 0 .running [] []).desc with notBefore := 5 } }) ctxD [(3, { eng1 with job := some jobP })]) { id := 0, frame := ⟨0, 0⟩, map := none, stamp := 5, ref := true, shown := false, w := 64, h := 64, d10 := false, chroma := 1, key := true, intra := [], hidden := [], unpaired := false, clean := [] }) 0 (Frame.h (State.frameOf (medS ({ cmdM 2 0 .running [] [] with frameBuf := some ⟨0, 0⟩, desc := { (cmdM 2 0 .running [] []).desc with notBefore := 5 } }) ctxD [(3, { eng1 with job := some jobP })]) { id := 0, frame := ⟨0, 0⟩, map := none, stamp := 5, ref := true, shown := false, w := 64, h := 64, d10 := false, chroma := 1, key := true, intra := [], hidden := [], unpaired := false, clean := [] })) (State.decodedValue (medS ({ cmdM 2 0 .running [] [] with frameBuf := some ⟨0, 0⟩, desc := { (cmdM 2 0 .running [] []).desc with notBefore := 5 } }) ctxD [(3, { eng1 with job := some jobP })]) (Config.decodedSample ctxD.params ctxD.decHist [] (BitVec.ofNat 32 (State.rd (medS ({ cmdM 2 0 .running [] [] with frameBuf := some ⟨0, 0⟩, desc := { (cmdM 2 0 .running [] []).desc with notBefore := 5 } }) ctxD [(3, { eng1 with job := some jobP })]) (F.engVer_ver.at (engBase 3))))) (State.frameOf (medS ({ cmdM 2 0 .running [] [] with frameBuf := some ⟨0, 0⟩, desc := { (cmdM 2 0 .running [] []).desc with notBefore := 5 } }) ctxD [(3, { eng1 with job := some jobP })]) { id := 0, frame := ⟨0, 0⟩, map := none, stamp := 5, ref := true, shown := false, w := 64, h := 64, d10 := false, chroma := 1, key := true, intra := [], hidden := [], unpaired := false, clean := [] }) { id := 0, frame := ⟨0, 0⟩, map := none, stamp := 5, ref := true, shown := false, w := 64, h := 64, d10 := false, chroma := 1, key := true, intra := [], hidden := [], unpaired := false, clean := [] } [] none ctxD.lastOut), 3, pe1, jobP, { cmdM 2 0 .running [] [] with frameBuf := some ⟨0, 0⟩, desc := { (cmdM 2 0 .running [] []).desc with notBefore := 5 } }, ctxD, ⟨0, 0⟩, { id := 0, frame := ⟨0, 0⟩, map := none, stamp := 5, ref := true, shown := false, w := 64, h := 64, d10 := false, chroma := 1, key := true, intra := [], hidden := [], unpaired := false, clean := [] }, BitVec.ofNat 32 (State.rd (medS ({ cmdM 2 0 .running [] [] with frameBuf := some ⟨0, 0⟩, desc := { (cmdM 2 0 .running [] []).desc with notBefore := 5 } }) ctxD [(3, { eng1 with job := some jobP })]) (F.engVer_ver.at (engBase 3))), (by decide +kernel), (by decide +kernel), (by decide +kernel), (by decide +kernel), (by decide +kernel), (by decide +kernel), (by decide +kernel), (by decide +kernel), (by decide +kernel), (by decide +kernel), (by decide +kernel), (by decide +kernel), (by decide +kernel), (by decide +kernel), (by decide +kernel), (by decide +kernel), (rfl), (rfl), (rfl)⟩,
   ⟨fE, [5], 0, 0, 0, by decide +kernel⟩,
   ⟨fE, [0], 2, 0, 0, by decide +kernel⟩,
   ⟨fE, { id := 0, frame := ⟨0, 0⟩, map := none, stamp := 5, ref := true, shown := false, w := 64, h := 64, d10 := false, chroma := 1, key := true, intra := [], hidden := [], unpaired := false, clean := [] }, [0], 2, 0, 0, { id := 0, frame := ⟨0, 0⟩, map := none, stamp := 5, ref := true, shown := false, w := 64, h := 64, d10 := false, chroma := 1, key := true, intra := [], hidden := [], unpaired := false, clean := [] }, by decide +kernel⟩,
   ⟨r0, 3, by decide +kernel⟩,
   ⟨1, by decide +kernel⟩,
   ⟨stE, stE0, stE1, 0, 0, jobP, cmdE, ctxE, ⟨0, 1⟩, ⟨0, 0⟩, srcE, outE, fE, rfE, ucE, (by decide +kernel), (by decide +kernel), (by decide +kernel), (by decide +kernel), (by decide +kernel), (by decide +kernel), (by decide +kernel), (by decide +kernel), (srcE_read), (by decide +kernel), (by decide +kernel), (by decide +kernel), (by decide +kernel), (by decide +kernel), (by decide +kernel), (rfl), (rfl), (rfl), (rfl), (rfl)⟩,
   ⟨r0, 5, by decide +kernel⟩,
   ⟨medS cmdR ctxD [(5, eng1)], 5, by decide +kernel⟩,
   ⟨medS cmdR ctxD [(3, { eng1 with job := some jobP })], 3, by decide +kernel⟩,
   ⟨medS cmdR ctxD [(5, { eng1 with mode := 4 })], 5, by decide +kernel⟩,
   ⟨{ medS cmdR ctxD [(0, { eng1 with job := some jobP })] with cmds := [(0, cmdR), (1, { cmdM 2 0 .killed [] [] with queued := true, sq := 4, order := 2 })] }, 0, jobP, cmdR, by decide +kernel⟩,
   ⟨medS (cmdM 2 0 .running [] []) ctxD [(0, eng1), (1, { Engine.new with aside := some jobP })], 0, cmdM 2 0 .running [] [], jobP, 0, 1, by decide +kernel⟩⟩

theorem wit_InputCommands :
    (∃ s : State, ∃ slot : Fin 4096, ∃ c : Cmd, tget s.cmds slot.val = some c ∧ c.desc.cls = 5 ∧ c.phase = .eligible ∧ inputMay s 5 c = true ∧ s.commonCheck c = 0 ∧ 4096 < c.desc.shape 0) ∧
    (∃ s : State, ∃ slot : Fin 4096, ∃ c : Cmd, tget s.cmds slot.val = some c ∧ c.desc.cls = 5 ∧ c.phase = .eligible ∧ inputMay s 5 c = true ∧ s.commonCheck c = 0 ∧ c.desc.shape 0 ≤ 4096 ∧ (c.desc.shape 1 < 4 ∨ 64 < c.desc.shape 1)) ∧
    (∃ s : State, ∃ t : State, ∃ slot : Fin 4096, ∃ c : Cmd, tget s.cmds slot.val = some c ∧ c.desc.cls = 5 ∧ c.phase = .running ∧ s.pow.paused = false ∧ c.desc.shape 0 = 0 ∧ s.freshOut slot.val 1 [] = .ok t) ∧
    (∃ s : State, ∃ slot : Fin 4096, ∃ c : Cmd, ∃ bl : List Byte, ∃ tb : List Byte, ∃ data : List Byte, ∃ b : Box, ∃ f : Frame, ∃ t : State, tget s.cmds slot.val = some c ∧ c.desc.cls = 5 ∧ c.phase = .running ∧ s.pow.paused = false ∧ c.desc.shape 0 = 1 ∧ s.inData slot.val c 0 (c.desc.arg 0) 32 = .data bl ∧ s.inData slot.val c 1 (c.desc.arg 2) 512 = .data tb ∧ b = boxAt bl 0 ∧ field ((tb.drop (64 * b.frame)).take 64) 8 4 ≠ 0 ∧ frameOk ((tb.drop (64 * b.frame)).take 64) = true ∧ f = Frame.ofBytes ((tb.drop (64 * b.frame)).take 64) ∧ (∃ px, s.frameRead c.desc.part f = .ok px) ∧ b.hole f = false ∧ c.desc.shape 3 = 1 ∧ (data = s.roiBytes [(b, f)] [0] (c.desc.shape 1) (c.desc.shape 2) (if f.wide then 2 else 1)) ∧ s.freshOut slot.val 1 data = .ok t) ∧
    (∃ W : Nat, ∃ H : Nat, ∃ ow : Nat, ∃ oh : Nat, ∃ y : Nat, ∃ x : Nat, 0 < W ∧ 0 < H ∧ y < oh ∧ x < ow) ∧
    (∃ s : State, ∃ slot : Fin 4096, ∃ c : Cmd, ∃ b : List Byte, tget s.cmds slot.val = some c ∧ c.desc.cls = 4 ∧ c.phase = .eligible ∧ inputMay s 4 c = true ∧ s.commonCheck c = 0 ∧ (s.inputStalls c = false ∨ c.rerun = true) ∧ s.inData slot.val c 0 (c.desc.arg 7) 64 = .data b ∧ batchOk b c = false) ∧
    (∃ s : State, ∃ t1 : State, ∃ t2 : State, ∃ slot : Fin 4096, ∃ c : Cmd, ∃ b : List Byte, ∃ sds : List Byte, ∃ d : Batch, ∃ ls : List (List Byte), ∃ n : Nat, tget s.cmds slot.val = some c ∧ c.desc.cls = 4 ∧ c.phase = .running ∧ s.pow.paused = false ∧ s.inData slot.val c 0 (c.desc.arg 7) 64 = .data b ∧ d = Batch.of b ∧ d.n = 1 ∧ d.levels = 0 ∧ c.segs = 0 ∧ (s.inData slot.val c 1 (d.desc + if d.dram then 0 else 3 * 2 ^ 48) 64 = .data sds) ∧ field (sds.take 64) 0 1 ≠ 1 ∧ s.batchSample slot.val c d 0 (sds.take 64) = .data ls n ∧ s.freshOut slot.val 0 (ls.getD 0 []) = .ok t1 ∧ t1.freshOut slot.val 6 (statusBytes [0]) = .ok t2) ∧
    (∃ v : Nat, v < 256) ∧
    (∃ s : State, ∃ slot : Fin 4096, ∃ c : Cmd, tget s.cmds slot.val = some c ∧ c.desc.cls = 6 ∧ c.phase = .eligible ∧ inputMay s 6 c = true ∧ s.commonCheck c = 0 ∧ 262144 < c.desc.shape 0) ∧
    (∃ s : State, ∃ slot : Fin 4096, ∃ c : Cmd, tget s.cmds slot.val = some c ∧ c.desc.cls = 6 ∧ c.phase = .eligible ∧ inputMay s 6 c = true ∧ s.commonCheck c = 0 ∧ c.desc.shape 0 ≤ 262144 ∧ c.desc.op.testBit 1 = true ∧ c.desc.op.testBit 2 = false) ∧
    (∃ s : State, ∃ t : State, ∃ slot : Fin 4096, ∃ c : Cmd, ∃ x : Ctx, ∃ dict : Dict, ∃ own : List Byte, ∃ rest : List Byte, ∃ ids : List Nat, ∃ last : Option Byte, tget s.cmds slot.val = some c ∧ c.desc.cls = 6 ∧ c.phase = .running ∧ s.pow.paused = false ∧ s.inData slot.val c 0 (c.desc.arg 0) (c.desc.shape 0) = .data own ∧ tget s.ctxs c.desc.ctx = some x ∧ tget s.dicts (field x.params 0 1) = some dict ∧ c.desc.op = 4 ∧ tokens dict.image (dictEntries dict.image) 1 ((x.carry ++ own).length + 1) (x.carry ++ own) x.lastByte = (ids, rest, last) ∧ argKind (c.desc.arg 1) = 4 ∧ s.ringOut slot.val (tokRecords c.desc.ctx c.seq s.now x.tokens ids) = some t) ∧
    (∃ n : Nat, ∃ text : List Byte, text.length < n) ∧
    (∃ s : State, ∃ slot : Fin 4096, ∃ c : Cmd, tget s.cmds slot.val = some c ∧ c.desc.cls = 7 ∧ c.phase = .eligible ∧ inputMay s 7 c = true ∧ s.commonCheck c = 0 ∧ s.ctxClosed c = true) ∧
    (∃ s : State, ∃ slot : Fin 4096, ∃ c : Cmd, tget s.cmds slot.val = some c ∧ c.desc.cls = 7 ∧ c.phase = .running ∧ s.pow.paused = false ∧ 1024 < c.desc.shape 0) ∧
    (∃ s : State, ∃ t : State, ∃ slot : Fin 4096, ∃ c : Cmd, ∃ x : Ctx, tget s.cmds slot.val = some c ∧ c.desc.cls = 7 ∧ c.phase = .running ∧ s.pow.paused = false ∧ c.desc.shape 0 = 0 ∧ argKind (c.desc.arg 0) ≠ 7 ∧ s.inData slot.val c 0 (c.desc.arg 0) 0 = .data [] ∧ tget s.ctxs c.desc.ctx = some x ∧ x.tracks = [] ∧ x.lastFrame = none ∧ c.src = [] ∧ argKind (c.desc.arg 2) ≠ 6 ∧ s.ringOut slot.val [metaRecord 6 0 0 (c.desc.ctx + 2 ^ 14) c.seq s.now (leBytes 1 1 ++ List.replicate 7 (0 : Byte) ++ leBytes 4 0 ++ leBytes 4 0 ++ leBytes 4 0 ++ leBytes 4 0 ++ leBytes 4 0 ++ leBytes 4 0)] = some t) ∧
    (∃ ts : List Track, ∃ ds : List Det, ∃ iouMin : Nat, ∃ f : Nat, ∃ p, p ∈ associate iouMin f ts ds) :=
  ⟨⟨rdyC (cmdM 5 0 .eligible [4097] [0, 0, 64]), 0, cmdM 5 0 .eligible [4097] [0, 0, 64], by decide +kernel⟩,
   ⟨rdyC (cmdM 5 0 .eligible [4096, 65] [0, 0, 64]), 0, cmdM 5 0 .eligible [4096, 65] [0, 0, 64], (by decide +kernel), (by decide +kernel), (by decide +kernel), (by decide +kernel), (by decide +kernel), (by decide +kernel), (.inr (by decide +kernel))⟩,
   ⟨deckS (rdyC ({ cmdM 5 0 .running [0] [0, 0, 64] with fresh := [(1, ⟨0, 0⟩)] })), stOf r0 (State.freshOut (deckS (rdyC ({ cmdM 5 0 .running [0] [0, 0, 64] with fresh := [(1, ⟨0, 0⟩)] }))) 0 1 []), 0, { cmdM 5 0 .running [0] [0, 0, 64] with fresh := [(1, ⟨0, 0⟩)] }, (by decide +kernel), (by decide +kernel), (by decide +kernel), (by decide +kernel), (by decide +kernel), (st_eq _ _ (by decide +kernel))⟩,
   ⟨st4, 0, cmd4, box4.take 32, tb4, roi4, theBox, Frame.ofBytes frm4, stOf r0 (State.freshOut st4 0 1 roi4), (by decide +kernel), (by decide +kernel), (by decide +kernel), (by decide +kernel), (by decide +kernel), (data_of _ _ (by decide +kernel)), (data_get (st4.inData 0 cmd4 1 (cmd4.desc.arg 2) 512) (by decide +kernel)), (by decide +kernel), (by decide +kernel), (by decide +kernel), (by decide +kernel), (⟨_, mem_ok _ (by decide +kernel)⟩), (by decide +kernel), (by decide +kernel), (rfl), (st_eq r0 (State.freshOut st4 0 1 roi4) (by decide +kernel))⟩,
   ⟨64, 64, 4, 4, 3, 3, by decide +kernel⟩,
   ⟨mem (rdyC (cmdM 4 0 .eligible [] [0, 0, 0, 0, 0, 0, 0, 0])) 0 (List.replicate 64 0), 0, cmdM 4 0 .eligible [] [0, 0, 0, 0, 0, 0, 0, 0], List.replicate 64 0, (by decide +kernel), (by decide +kernel), (by decide +kernel), (by decide +kernel), (by decide +kernel), (.inl (by decide +kernel)), (data_of _ _ (by decide +kernel)), (by decide +kernel)⟩,
   ⟨st7, t17, stOf r0 (t17.freshOut 0 6 (statusBytes [0])), 0, cmd7, bd7, sd7, Batch.of bd7, ls7, (smpOf sm7).2, (by decide +kernel), (by decide +kernel), (by decide +kernel), (by decide +kernel), (data_of _ _ (by decide +kernel)), (rfl), (by decide +kernel), (by decide +kernel), (by decide +kernel), (data_of _ _ (by decide +kernel)), (by decide +kernel), (smp_eq sm7 (by decide +kernel)), (st_eq r0 (State.freshOut st7 0 0 (ls7.getD 0 [])) (by decide +kernel)), (st_eq r0 (t17.freshOut 0 6 (statusBytes [0])) (by decide +kernel))⟩,
   ⟨255, by decide +kernel⟩,
   ⟨rdyC (cmdM 6 0 .eligible [262145] []), 0, cmdM 6 0 .eligible [262145] [], by decide +kernel⟩,
   ⟨rdyC (cmdM 6 2 .eligible [262144] []), 0, cmdM 6 2 .eligible [262144] [], by decide +kernel⟩,
   ⟨mem { rdyC ({ cmdM 6 4 .running [2] [0, 4 * 2 ^ 50 + 2] with rings := [⟨2, 9, 4, true, 0⟩] }) with ctxs := [(6, Ctx.new 3 1 (List.replicate 16 0))], dicts := [(0, ⟨some 1, dict1⟩)], mrings := [(2, ring1)] } 0 [97, 98], (State.ringOut (mem { rdyC ({ cmdM 6 4 .running [2] [0, 4 * 2 ^ 50 + 2] with rings := [⟨2, 9, 4, true, 0⟩] }) with ctxs := [(6, Ctx.new 3 1 (List.replicate 16 0))], dicts := [(0, ⟨some 1, dict1⟩)], mrings := [(2, ring1)] } 0 [97, 98]) 0 (tokRecords 6 5 (State.now (mem { rdyC ({ cmdM 6 4 .running [2] [0, 4 * 2 ^ 50 + 2] with rings := [⟨2, 9, 4, true, 0⟩] }) with ctxs := [(6, Ctx.new 3 1 (List.replicate 16 0))], dicts := [(0, ⟨some 1, dict1⟩)], mrings := [(2, ring1)] } 0 [97, 98])) 0 [7, 98])).getD r0, 0, { cmdM 6 4 .running [2] [0, 4 * 2 ^ 50 + 2] with rings := [⟨2, 9, 4, true, 0⟩] }, Ctx.new 3 1 (List.replicate 16 0), (⟨some 1, dict1⟩ : Dict), [97, 98], [], [7, 98], some 98, (by decide +kernel), (by decide +kernel), (by decide +kernel), (by decide +kernel), (data_of _ _ (by decide +kernel)), (by decide +kernel), (by decide +kernel), (by decide +kernel), (by decide +kernel), (by decide +kernel), (some_getD _ _ (by decide +kernel))⟩,
   ⟨3, [97, 98], by decide +kernel⟩,
   ⟨rdyC (cmdM 7 0 .eligible [] []), 0, cmdM 7 0 .eligible [] [], by decide +kernel⟩,
   ⟨rdyC (cmdM 7 0 .running [1025] []), 0, cmdM 7 0 .running [1025] [], by decide +kernel⟩,
   ⟨mem { rdyC ({ cmdM 7 0 .running [0] [] with rings := [⟨2, 9, 4, true, 0⟩] }) with ctxs := [(6, Ctx.new 2 1 (List.replicate 16 0))], mrings := [(2, ring1)] } 0 [], (State.ringOut (mem { rdyC ({ cmdM 7 0 .running [0] [] with rings := [⟨2, 9, 4, true, 0⟩] }) with ctxs := [(6, Ctx.new 2 1 (List.replicate 16 0))], mrings := [(2, ring1)] } 0 []) 0 [metaRecord 6 0 0 (6 + 2 ^ 14) 5 (State.now (mem { rdyC ({ cmdM 7 0 .running [0] [] with rings := [⟨2, 9, 4, true, 0⟩] }) with ctxs := [(6, Ctx.new 2 1 (List.replicate 16 0))], mrings := [(2, ring1)] } 0 [])) (leBytes 1 1 ++ List.replicate 7 (0 : Byte) ++ leBytes 4 0 ++ leBytes 4 0 ++ leBytes 4 0 ++ leBytes 4 0 ++ leBytes 4 0 ++ leBytes 4 0)]).getD r0, 0, { cmdM 7 0 .running [0] [] with rings := [⟨2, 9, 4, true, 0⟩] }, Ctx.new 2 1 (List.replicate 16 0), (by decide +kernel), (by decide +kernel), (by decide +kernel), (by decide +kernel), (by decide +kernel), (by decide +kernel), (data_of _ _ (by decide +kernel)), (by decide +kernel), (by decide +kernel), (by decide +kernel), (by decide +kernel), (by decide +kernel), (some_getD _ _ (by decide +kernel))⟩,
   ⟨[⟨1, 7, 0, 0, 10, 10, 0, 0, 3, 4, 0⟩], [⟨0, 1, 1, 10, 10, 3, 5, true⟩], 100, 5, (⟨⟨1, 7, 0, 0, 10, 10, 0, 0, 3, 4, 0⟩, ⟨0, 1, 1, 10, 10, 3, 5, true⟩, 81, 100⟩ : Pair), by decide +kernel⟩⟩

theorem wit_EndpointAccess :
    (∃ s : State, ∃ speed : Fin 7, ∃ width : Fin 5, speed.val ≠ 0 ∧ (width.val = 1 ∨ width.val = 2 ∨ width.val = 4) ∧ s.ep.perst = false ∧ s.railsUp = true) ∧
    (∃ s : State, ∃ speed : Fin 7, ∃ width : Fin 5, (speed.val = 0 ∨ width.val = 0 ∨ width.val = 3 ∨ s.ep.perst = true ∨ s.railsUp = false)) ∧
    (∃ s : State, s.ep.linkUp = true ∧ (s.rd (F.cfgLinkCtl_aspm.cfg 0)).testBit 1 = true) ∧
    (∃ s : State, (s.rd (F.cfgLinkCtl_aspm.cfg 0)).testBit 1 = false) ∧
    (∃ s : State, ∃ t : State, ∃ fn : Fin 16, ∃ off : Nat, ∃ n : Fin 4097, s.ep.linkUp = true ∧ t = s.wr F.glLink_l1 0 ∧ t.barOpen fn.val = true ∧ off + n.val ≤ t.aptSize fn.val ∧ t.aptRefuse fn.val (t.aptBase fn.val + off) n.val true = none) ∧
    (∃ s : State, ∃ t : State, ∃ fn : Fin 16, ∃ off : Nat, ∃ data : List Byte, s.ep.linkUp = true ∧ t = s.wr F.glLink_l1 0 ∧ t.barOpen fn.val = true ∧ off + data.length ≤ t.aptSize fn.val ∧ t.aptRefuse fn.val (t.aptBase fn.val + off) data.length false = none) ∧
    (∃ s : State, ∃ t : State, ∃ fn : Fin 16, ∃ off : Nat, ∃ n : Fin 4097, ∃ code : Nat, ∃ a : Nat, s.ep.linkUp = true ∧ t = s.wr F.glLink_l1 0 ∧ t.barOpen fn.val = true ∧ off + n.val ≤ t.aptSize fn.val ∧ t.aptRefuse fn.val (t.aptBase fn.val + off) n.val true = some (code, a)) ∧
    (∃ s : State, ∃ t : State, ∃ fn : Fin 16, ∃ off : Nat, ∃ n : Fin 4097, s.ep.linkUp = true ∧ t = s.wr F.glLink_l1 0 ∧ t.barOpen fn.val = true ∧ t.aptSize fn.val < off + n.val) ∧
    (∃ s : State, ∃ t : State, ∃ fn : Fin 16, ∃ off : Nat, ∃ data : List Byte, s.ep.linkUp = true ∧ t = s.wr F.glLink_l1 0 ∧ (t.barOpen fn.val = false ∨ t.aptSize fn.val < off + data.length ∨ ∃ e, t.aptRefuse fn.val (t.aptBase fn.val + off) data.length false = some e)) ∧
    (∃ s : State, s.rdB F.glStatus_memReady = false) ∧
    (∃ s : State, ∃ a : Nat, ∃ n : Nat, s.rdB F.glStatus_memReady = true ∧ dramSize < a + n) ∧
    (∃ fn : Fin 16, ∃ vec : Fin 2048, fnVectors fn.val ≤ vec.val) ∧
    (∃ s : State, ∃ fn : Fin 16, ∃ vec : Fin 2048, vec.val < fnVectors fn.val ∧ ((s.msixEnt fn.val vec.val).pend = false ∨ s.rdB (F.cfgMsix_enable.cfg fn.val) = false)) ∧
    (∃ s : State, ∃ fn : Fin 16, ∃ vec : Fin 2048, vec.val < fnVectors fn.val ∧ (s.msixEnt fn.val vec.val).pend = true ∧ s.rdB (F.cfgMsix_enable.cfg fn.val) = true ∧ s.rdB (F.cfgMsix_fnMask.cfg fn.val) = false ∧ s.fnAwake fn.val = true) ∧
    (∃ s : State, s.ep.held = [] ∧ s.ep.waitq = [] ∧ (∀ e ∈ s.ep.msix, e.2.pend = false)) ∧
    (∃ s : State, ∃ fn : Fin 16, ∃ m : OutMsg, s.ep.held = [(fn.val, m)] ∧ s.ep.waitq = [] ∧ s.ep.msix = [] ∧ s.rd (F.cfgPmcsr_state.cfg fn.val) = 0 ∧ s.rd (F.cfgPmcsr_state.cfg 0) = 0) ∧
    (∃ s : State, ∃ fn : Fin 16, ∃ q : HostReq, ∃ sq : Nat, s.ep.waitq = [q] ∧ q.fn = fn.val ∧ q.use = .descriptor sq) ∧
    (∃ s : State, (s.d3cold = true ∨ s.rd (F.cfgPmcsr_state.cfg 0) = 3) ∧ s.rdB F.glWake_skidwayEn = true) :=
  ⟨⟨{ ws15 [] with pow := { r0.pow with railsOn := [0, 1, 2, 3, 4, 5, 6] } }, 5, 4, by decide +kernel, (.inr (.inr (by decide +kernel))), by decide +kernel, by decide +kernel⟩,
   ⟨r0, 0, 4, (.inl (by decide +kernel))⟩,
   ⟨ws15 [(F.cfgLinkCtl_aspm.cfg 0, 2)], by decide +kernel⟩,
   ⟨ws15 [], by decide +kernel⟩,
   ⟨epS, (epS).wr F.glLink_l1 0, 0, 0, 8, by decide +kernel⟩,
   ⟨epS, (epS).wr F.glLink_l1 0, 0, 3, [1, 2], by decide +kernel⟩,
   ⟨ws15 [(F.glStatus_memReady, 0)], (ws15 [(F.glStatus_memReady, 0)]).wr F.glLink_l1 0, 0, 0, 8, 0xD05, 0, by decide +kernel⟩,
   ⟨epS, (epS).wr F.glLink_l1 0, 0, 2 ^ 40, 8, by decide +kernel⟩,
   ⟨epS, epS.wr F.glLink_l1 0, 1, 0, [1], by decide +kernel, by decide +kernel, (.inl (by decide +kernel))⟩,
   ⟨r0, by decide +kernel⟩,
   ⟨epS, dramSize - 7, 8, by decide +kernel⟩,
   ⟨1, 64, by decide +kernel⟩,
   ⟨r0, 1, 63, by decide +kernel, (.inl (by decide +kernel))⟩,
   ⟨pendS, 0, 3, by decide +kernel⟩,
   ⟨r0, by decide +kernel⟩,
   ⟨{ r0 with ep := { r0.ep with held := [(1, (.msix 1 5 4096 3))] } }, 1, (.msix 1 5 4096 3), by decide +kernel⟩,
   ⟨{ r0 with ep := { r0.ep with waitq := [⟨2, 4096, 128, .descriptor 3⟩] } }, 2, ⟨2, 4096, 128, .descriptor 3⟩, 3, by decide +kernel⟩,
   ⟨ws [(F.cfgPmcsr_state.cfg 0, 3), (F.glWake_skidwayEn, 1), (F.cfgPmcsr_pmeEn.cfg 0, 1)], (.inr (by decide +kernel)), by decide +kernel⟩⟩

theorem wit_EndpointResets :
    (∃ s : State, ∃ v : Fin 65536, v.val ≤ 15 ∧ s.rdB (F.cfgSriovCtl_vfEnable.cfg 0) = false) ∧
    (∃ s : State, ∃ v : Fin 65536, (15 < v.val ∨ s.rdB (F.cfgSriovCtl_vfEnable.cfg 0) = true)) ∧
    (∃ s : State, s.rdB (F.cfgSriovCtl_vfEnable.cfg 0) = false) ∧
    (∃ s : State, s.rdB (F.cfgSriovCtl_vfEnable.cfg 0) = true) ∧
    (∃ s : State, ∃ fn : Fin 16, ∃ tag : Fin 1024, tget s.ep.tags (fn.val * 1024 + tag.val) = none) ∧
    (∃ s : State, ∃ fn : Fin 16, ∃ tag : Fin 1024, ∃ data : List Byte, ∃ t : Tag, ∃ slot : Nat, ∃ buf : Nat, ∃ off : Nat, ∃ c : Cmd, ∃ h : HostBuf, tget s.ep.tags (fn.val * 1024 + tag.val) = some t ∧ t.quarantined = false ∧ t.use = .cmdData slot buf off ∧ t.len = data.length ∧ s.ep.waitq = [] ∧ tget s.cmds slot = some c ∧ tget c.hostBufs buf = some h) ∧
    (∃ s : State, ∃ fn : Fin 16, ∃ tag : Fin 1024, ∃ t : Tag, tget s.ep.tags (fn.val * 1024 + tag.val) = some t ∧ t.quarantined = true) ∧
    (∃ s : State, ∃ fn : Fin 16, ∃ tag : Fin 1024, ∃ st : CplStatus, ∃ t : Tag, tget s.ep.tags (fn.val * 1024 + tag.val) = some t ∧ t.quarantined = false ∧ st ≠ .success ∧ t.use = .discard ∧ s.ep.waitq = []) ∧
    (∃ s : State, ∃ fn : Fin 16, ∃ tag : Fin 1024, ∃ t : Tag, ∃ slot : Nat, ∃ buf : Nat, ∃ off : Nat, tget s.ep.tags (fn.val * 1024 + tag.val) = some t ∧ t.quarantined = false ∧ s.cplTimeout fn.val ≤ s.nsSince t.at' ∧ t.use = .cmdData slot buf off ∧ (∃ c, tget s.cmds slot = some c ∧ (c.desc.cls ≠ 4 ∨ buf < 8))) ∧
    (∃ s : State, ∃ fn : Fin 16, ∃ tag : Fin 1024, ∃ t : Tag, tget s.ep.tags (fn.val * 1024 + tag.val) = some t ∧ s.ep.waitq = [] ∧ t.quarantined = true ∧ t.hold ≤ s.nsSince t.at') ∧
    (∃ s : State, ∃ fn : Fin 16, ∃ tag : Fin 1024, ∃ t : Tag, tget s.ep.tags (fn.val * 1024 + tag.val) = some t ∧ s.ep.waitq = [] ∧ (t.quarantined = false ∨ s.nsSince t.at' < t.hold)) ∧
    (∃ s : State, ∃ fn : Fin 16, ∃ tag : Fin 1024, ∃ t : Tag, tget s.ep.tags (fn.val * 1024 + tag.val) = some t ∧ s.nsSince t.at' < s.cplTimeout fn.val) ∧
    (∃ s : State, ∃ fn : Fin 16, s.fnExists fn.val = false) ∧
    (∃ s : State, ∃ fn : Fin 16, s.fnExists fn.val = true ∧ (fn.val ≠ 0 ∨ s.rdB (F.cfgSriovCtl_vfEnable.cfg 0) = false)) ∧
    (∃ s : State, ∃ fn : Fin 16, fn.val ∉ s.ep.flr) ∧
    (∃ s : State, ∃ fn : Fin 16, fn.val ∈ s.ep.flr) ∧
    (∃ s : State, s.ep.linkUp = false) ∧
    (∃ s : State, s.ep.linkUp = true) ∧
    (∃ s : State, s.ep.perst = true) ∧
    (∃ s : State, s.ep.perst = false) :=
  ⟨⟨r0, 15, by decide +kernel⟩,
   ⟨r0, 16, (.inl (by decide +kernel))⟩,
   ⟨r0, by decide +kernel⟩,
   ⟨vfS, by decide +kernel⟩,
   ⟨r0, 1, 7, by decide +kernel⟩,
   ⟨cmdHS false, 1, 7, [1, 2, 3, 4], ⟨4, .cmdData 0 0 4, false, 0, 0⟩, 0, 0, 4, cmdH, { addr := 0x8000, len := 8, got := [], missing := 8, code := 0 }, by decide +kernel⟩,
   ⟨cmdHS true, 1, 7, ⟨4, .cmdData 0 0 4, true, 0, 0⟩, by decide +kernel⟩,
   ⟨tagS ⟨4, .discard, false, 0, 9⟩, 1, 7, .abort, ⟨4, .discard, false, 0, 9⟩, by decide +kernel⟩,
   ⟨laterS (cmdHS false), 1, 7, ⟨4, .cmdData 0 0 4, false, 0, 0⟩, 0, 0, 4, (by decide +kernel), (by decide +kernel), (by decide +kernel), (by decide +kernel), (⟨cmdH, by decide +kernel, .inl (by decide +kernel)⟩)⟩,
   ⟨tagS ⟨4, .discard, true, 0, 0⟩, 1, 7, ⟨4, .discard, true, 0, 0⟩, by decide +kernel⟩,
   ⟨tagS ⟨4, .discard, false, 0, 9⟩, 1, 7, ⟨4, .discard, false, 0, 9⟩, (by decide +kernel), (by decide +kernel), (.inl (by decide +kernel))⟩,
   ⟨tagS ⟨4, .discard, false, 0, 9⟩, 1, 7, ⟨4, .discard, false, 0, 9⟩, by decide +kernel⟩,
   ⟨r0, 1, by decide +kernel⟩,
   ⟨vfS, 1, by decide +kernel, (.inl (by decide +kernel))⟩,
   ⟨r0, 1, by decide +kernel⟩,
   ⟨vfS, 1, by decide +kernel⟩,
   ⟨r0, by decide +kernel⟩,
   ⟨vfS, by decide +kernel⟩,
   ⟨{ r0 with ep := { r0.ep with perst := true } }, by decide +kernel⟩,
   ⟨vfS, by decide +kernel⟩⟩

theorem wit_StartUp :
    (∃ s : State, s.railsUp = true ∧ s.boot.stage = 0) ∧
    (∃ s : State, (s.railsUp = false ∨ s.boot.stage ≠ 0)) ∧
    (∃ s : State, s.railsUp = true) ∧
    (∃ s : State, s.railsUp = false) ∧
    (∃ cause : Nat, cause < 16) ∧
    (∃ fn : Fin 16, fn.val = 0) ∧
    (∃ fn : Fin 16, fn.val ≠ 0) ∧
    (∃ key : Fin 65536, key.val ≠ 0x5A5A) ∧
    (∃ fn : Fin 16, ∃ key : Fin 65536, fn.val = 0 ∧ key.val = 0x5A5A) ∧
    (∃ s : State, ∃ n : Fin 8, (n.val = 0 ∨ (n.val < 5 ∧ s.boot.stage ≠ n.val) ∨ ((n.val = 5 ∨ n.val = 6) ∧ s.boot.stage ≠ 6) ∨ (n.val = 7 ∧ s.boot.stage ≠ 7))) ∧
    (∃ s : State, ∃ f : StageFacts, s.boot.stage = 1 ∧ f.replayOk = false) ∧
    (∃ s : State, ∃ f : StageFacts, s.boot.stage = 1 ∧ f.replayOk = true) ∧
    (∃ s : State, ∃ f : StageFacts, s.boot.stage = 2 ∧ f.entropyOk = false) ∧
    (∃ s : State, ∃ f : StageFacts, s.boot.stage = 2 ∧ f.entropyOk = true) ∧
    (∃ s : State, s.boot.stage = 3) ∧
    (∃ s : State, s.boot.stage = 4 ∧ s.sec.slotA = [] ∧ s.sec.slotB = []) ∧
    (∃ s : State, s.boot.stage = 4 ∧ s.sec.slotA ≠ [] ∧ s.sec.slotB = []) ∧
    (∃ s : State, s.boot.stage = 6 ∧ s.boot.tested = false) ∧
    (∃ s : State, ∃ f : StageFacts, s.boot.stage = 6 ∧ s.boot.tested = true ∧ f.trained = false) ∧
    (∃ s : State, ∃ f : StageFacts, s.boot.stage = 6 ∧ s.boot.tested = true ∧ f.trained = true ∧ s.dram.sub = []) ∧
    (∃ s : State, s.boot.stage = 7 ∧ (∀ d, d < 64 → s.deckOn d = false ∨ s.rdB (F.dkStat_ready.at (dkBase d)) = true)) ∧
    (∃ s : State, ∃ d : Nat, s.boot.stage = 7 ∧ d < 64 ∧ s.deckOn d = true ∧ s.rdB (F.dkStat_ready.at (dkBase d)) = false) ∧
    (∃ s : State, ∃ i : Fin 256, (s.boot.preloads.length ≤ i.val ∨ s.rdB F.glStatus_ready = false)) ∧
    (∃ s : State, ∃ i : Fin 256, ∃ p : Preload, s.boot.preloads[i.val]? = some p ∧ s.rdB F.glStatus_ready = true ∧ p.state = 0 ∧ (∀ q ∈ s.boot.preloads.take i.val, q.state ≠ 0)) :=
  ⟨⟨stg 0 false, by decide +kernel⟩,
   ⟨r0, (.inl (by decide +kernel))⟩,
   ⟨stg 7 true, by decide +kernel⟩,
   ⟨r0, by decide +kernel⟩,
   ⟨15, by decide +kernel⟩,
   ⟨0, by decide +kernel⟩,
   ⟨15, by decide +kernel⟩,
   ⟨0x5A5B, by decide +kernel⟩,
   ⟨0, 0x5A5A, by decide +kernel⟩,
   ⟨stg 6 false, 7, (.inr (.inr (.inr (by decide +kernel))))⟩,
   ⟨stg 1 false, { obs with replayOk := false }, by decide +kernel⟩,
   ⟨stg 1 false, obs, by decide +kernel⟩,
   ⟨stg 2 false, { obs with entropyOk := false }, by decide +kernel⟩,
   ⟨stg 2 false, obs, by decide +kernel⟩,
   ⟨stg 3 false, by decide +kernel⟩,
   ⟨stg 4 false, by decide +kernel⟩,
   ⟨{ stg 4 false with sec := { r0.sec with slotA := [1] } }, by decide +kernel⟩,
   ⟨stg 6 false, by decide +kernel⟩,
   ⟨stg 6 true, { obs with trained := false }, by decide +kernel⟩,
   ⟨stg 6 true, obs, by decide +kernel⟩,
   ⟨stg 7 true, by decide +kernel⟩,
   ⟨{ deckS r0 with regs := ((deckS r0).wr (F.dkStat_ready.at (dkBase 0)) 0).regs, boot := { r0.boot with stage := 7 } }, 0, by decide +kernel⟩,
   ⟨r0, 0, (.inl (by decide +kernel))⟩,
   ⟨{ rw F.glStatus_ready 1 with boot := { r0.boot with preloads := [pre1] } }, 0, pre1, by decide +kernel⟩⟩

theorem wit_PowerSupply :
    (∃ s : State, s.pow.auxOn = true) ∧
    (∃ s : State, s.pow.auxOn = false) ∧
    (∃ s : State, s.pow.auxOn = false) ∧
    (∃ s : State, s.pow.auxOn = true ∧ s.pow.switchOn = true) ∧
    (∃ s : State, s.pow.auxOn = true ∧ s.pow.switchOn = false) ∧
    (∃ s : State, s.mated = true) ∧
    (∃ s : State, s.mated = false) ∧
    (∃ s : State, (s.mated = false ∨ s.pow.switchOn = true ∨ s.rd F.msHs_state ≠ 1)) ∧
    (∃ s : State, s.mated = true ∧ s.pow.switchOn = false ∧ s.rd F.msHs_state = 1 ∧ s.pow.auxOn = true) ∧
    (∃ s : State, ∃ k : Fin 7, s.pow.switchOn = true ∧ s.pow.railsOn.length = k.val) ∧
    (∃ s : State, ∃ k : Fin 7, (s.pow.switchOn = false ∨ s.pow.railsOn.length ≠ k.val)) ∧
    (∃ s : State, s.pow.railsOn ≠ []) ∧
    (∃ s : State, ∃ w : Bool, s.pow.railsOn ≠ [] ∧ w = false) ∧
    (∃ s : State, ∃ e, s.pow.railsOn ≠ [] ∧ e ∈ s.cmds) ∧
    (∃ s : State, s.mated = false) ∧
    (∃ s : State, s.mated = true ∧ s.pow.switchOn = true ∧ s.pow.railsOn ≠ []) ∧
    (∃ s : State, s.pow.switchOn = false) ∧
    (∃ s : State, s.pow.switchOn = true ∧ s.pow.railsOn ≠ [] ∧ s.rdB F.msCfg_attended = false) ∧
    (∃ s : State, ∃ c : Fin 5, s.pow.switchOn = true ∧ s.pow.railsOn ≠ [] ∧ s.rdB F.msCfg_attended = false ∧ 2 ≤ c.val) ∧
    (∃ st : Nat, ∃ cause : Nat, st < 8 ∧ cause < 16) ∧
    (∃ s : State, s.pow.overV = false) ∧
    (∃ s : State, s.pow.overV = true ∧ s.mated = true ∧ s.pow.wanted = true) ∧
    (∃ s : State, s.mated = true ∧ s.pow.railsOn ≠ [] ∧ s.pow.paused = false) ∧
    (∃ s : State, (s.mated = false ∨ s.pow.railsOn = [] ∨ s.pow.paused = true)) ∧
    (∃ s : State, s.pow.paused = true ∧ s.nsSince s.pow.pauseAt ≤ s.rideNs) ∧
    (∃ s : State, s.pow.paused = false) ∧
    (∃ s : State, s.rideNs < s.nsSince s.pow.pauseAt) ∧
    (∃ s : State, s.nsSince s.pow.pauseAt < s.rideNs) ∧
    (∃ s : State, s.pow.paused = true ∧ s.rideNs ≤ s.nsSince s.pow.pauseAt) ∧
    (∃ s : State, ∃ k : Fin 7, k.val ∉ s.pow.railsOn) ∧
    (∃ s : State, ∃ k : Fin 7, k.val ∈ s.pow.railsOn) ∧
    (∃ s : State, s.pow.switchOn = true) ∧
    (∃ s : State, (s.pow.switchOn = false ∨ s.rdB F.msCfg_attended = false)) ∧
    (∃ s : State, (s.pow.switchOn = false ∨ s.boot.stage = 14)) ∧
    (∃ s : State, s.pow.switchOn = false ∧ s.pow.auxOn = true ∧ s.mated = true ∧ s.pow.overV = false) ∧
    (∃ s : State, s.pow.switchOn = false ∧ s.pow.auxOn = true ∧ s.mated = true ∧ s.pow.overV = false ∧ s.boot.stage ≠ 14) ∧
    (∃ s : State, s.pow.switchOn = true) ∧
    (∃ s : State, s.pow.auxOn = false ∧ s.pow.switchOn = false) :=
  ⟨⟨pwS, by decide +kernel⟩,
   ⟨pwN, by decide +kernel⟩,
   ⟨pwN, by decide +kernel⟩,
   ⟨pwS, by decide +kernel⟩,
   ⟨pwOff, by decide +kernel⟩,
   ⟨pwS, by decide +kernel⟩,
   ⟨r0, by decide +kernel⟩,
   ⟨pwN, (.inl (by decide +kernel))⟩,
   ⟨pwOff, by decide +kernel⟩,
   ⟨{ pwS with pow := { pwS.pow with railsOn := [0, 1] } }, 2, by decide +kernel⟩,
   ⟨pwS, 3, (.inr (by decide +kernel))⟩,
   ⟨pwS, by decide +kernel⟩,
   ⟨pwS, false, by decide +kernel⟩,
   ⟨pwS, (0, cmd1), (by decide +kernel), (.head _)⟩,
   ⟨r0, by decide +kernel⟩,
   ⟨pwS, by decide +kernel⟩,
   ⟨pwOff, by decide +kernel⟩,
   ⟨pwS, by decide +kernel⟩,
   ⟨pwS, 2, by decide +kernel⟩,
   ⟨7, 15, by decide +kernel⟩,
   ⟨pwS, by decide +kernel⟩,
   ⟨{ pwOff with pow := { pwOff.pow with overV := true } }, by decide +kernel⟩,
   ⟨pwS, by decide +kernel⟩,
   ⟨pwP, (.inr (.inr (by decide +kernel)))⟩,
   ⟨pwP, by decide +kernel⟩,
   ⟨pwS, by decide +kernel⟩,
   ⟨laterS pwP, by decide +kernel⟩,
   ⟨pwP, by decide +kernel⟩,
   ⟨laterS pwP, by decide +kernel⟩,
   ⟨{ pwS with pow := { pwS.pow with railsOn := [0] } }, 6, by decide +kernel⟩,
   ⟨pwS, 6, by decide +kernel⟩,
   ⟨pwS, by decide +kernel⟩,
   ⟨pwOff, (.inl (by decide +kernel))⟩,
   ⟨pwOff, (.inl (by decide +kernel))⟩,
   ⟨pwOff, by decide +kernel⟩,
   ⟨pwOff, by decide +kernel⟩,
   ⟨pwS, by decide +kernel⟩,
   ⟨pwN, by decide +kernel⟩⟩

theorem wit_PowerControl :
    (∃ s : State, s.pow.auxOn = true ∧ s.boot.stage ≠ 14) ∧
    (∃ s : State, (s.pow.auxOn = false ∧ s.pow.switchOn = false ∨ s.boot.stage = 14)) ∧
    (∃ die : Fin 256, ∃ dram : Fin 256, die.val < 120 ∧ dram.val ≤ 115) ∧
    (∃ s : State, ∃ die : Fin 256, ∃ dram : Fin 256, (120 ≤ die.val ∨ 115 < dram.val) ∧ s.pow.switchOn = true ∧ s.pow.railsOn ≠ []) ∧
    (∃ d : Nat, ∃ m : Nat, d < 95 ∧ m ≤ 85) ∧
    (∃ t, t ≤ 4) ∧
    (∃ s : State, s.pow.railsOn = []) ∧
    (∃ s : State, s.pow.railsOn ≠ []) ∧
    (∃ s : State, s.managed = false) ∧
    (∃ s : State, ∃ cmd : Fin 256, s.managed = true ∧ cmd.val ≠ 1) ∧
    (∃ s : State, s.managed = true) ∧
    (∃ s : State, ∃ id : Fin 16, (s.managed = false ∨ s.boot.stage = 14 ∨ id.val = 0 ∨ 9 < id.val)) ∧
    (∃ s : State, ∃ id : Fin 16, s.managed = true ∧ s.boot.stage ≠ 14 ∧ 1 ≤ id.val ∧ id.val ≤ 7) ∧
    (∃ s : State, ∃ id : Fin 16, s.managed = true ∧ s.boot.stage ≠ 14 ∧ id.val = 8) :=
  ⟨⟨pwS, by decide +kernel⟩,
   ⟨pwN, (.inl (by decide +kernel))⟩,
   ⟨117, 112, by decide +kernel⟩,
   ⟨pwS, 120, 112, (.inl (by decide +kernel)), (by decide +kernel), (by decide +kernel)⟩,
   ⟨94, 85, by decide +kernel⟩,
   ⟨(4 : Nat), by decide +kernel⟩,
   ⟨pwN, by decide +kernel⟩,
   ⟨pwS, by decide +kernel⟩,
   ⟨pwN, by decide +kernel⟩,
   ⟨pwS, 255, by decide +kernel⟩,
   ⟨pwS, by decide +kernel⟩,
   ⟨pwS, 10, (.inr (.inr (.inr (by decide +kernel))))⟩,
   ⟨pwS, 7, by decide +kernel⟩,
   ⟨pwS, 8, by decide +kernel⟩⟩

theorem wit_ServiceRefusals :
    (∃ s : State, (s.rdB F.ftSvcStat_busy = true ∨ s.rdB F.ftStat_recovering = true)) ∧
    (∃ s : State, ∃ p : Fin 128, s.rdB F.ftSvcStat_busy = false ∧ s.rdB F.ftStat_recovering = false ∧ 68 ≤ p.val) ∧
    (∃ s : State, s.rdB F.ftSvcStat_busy = false ∧ s.rdB F.ftStat_recovering = false ∧ dramSize ≤ s.rd2 F.ftSvcAddrLo_addr F.ftSvcAddrHi_addr) ∧
    (∃ s : State, ∃ fn : Fin 16, ∃ v : Word, (v.toNat % 8 = 0 ∨ 3 < v.toNat % 8) ∧ fn.val = 0 ∧ (s.rdB F.ftSvcStat_busy = true ∨ s.rdB F.ftStat_recovering = true)) ∧
    (∃ s : State, ∃ fn : Fin 16, ∃ v : Word, (v.toNat % 8 = 0 ∨ 3 < v.toNat % 8) ∧ fn.val = 0 ∧ s.rdB F.ftSvcStat_busy = false ∧ s.rdB F.ftStat_recovering = false) :=
  ⟨⟨rw F.ftSvcStat_busy 1, (.inl (by decide +kernel))⟩,
   ⟨r0, 68, by decide +kernel⟩,
   ⟨ws [(F.ftSvcAddrLo_addr, dramSize % 2 ^ 32), (F.ftSvcAddrHi_addr, dramSize / 2 ^ 32)], by decide +kernel⟩,
   ⟨rw F.ftSvcStat_busy 1, 0, 8, (.inl (by decide +kernel)), (by decide +kernel), (.inl (by decide +kernel))⟩,
   ⟨r0, 0, 4, (.inr (by decide +kernel)), (by decide +kernel), (by decide +kernel), (by decide +kernel)⟩⟩

theorem wit_ServiceRequests :
    (∃ s : State, ∃ e : Fin 6, (s.engine e.val).mode = 1 ∧ (s.engine e.val).job = none ∧ (s.engine e.val).watch = 0) ∧
    (∃ s : State, ∃ t : State, ∃ p : Fin 128, ∃ n, s.rdB F.ftSvcStat_busy = false ∧ s.rdB F.ftStat_recovering = false ∧ p.val < 68 ∧ t = s.wr F.ftSvcStat_busy 1 ∧ t.logOf p.val = some n ∧ t.boleOnline n = true) ∧
    (∃ s : State, ∃ t : State, ∃ p : Fin 128, ∃ n, s.rdB F.ftSvcStat_busy = false ∧ s.rdB F.ftStat_recovering = false ∧ p.val < 68 ∧ t = s.wr F.ftSvcStat_busy 1 ∧ t.logOf p.val = some n ∧ t.boleOnline n = false) ∧
    (∃ s : State, ∃ t : State, ∃ p : Fin 128, s.rdB F.ftSvcStat_busy = false ∧ s.rdB F.ftStat_recovering = false ∧ p.val < 68 ∧ t = s.wr F.ftSvcStat_busy 1 ∧ t.logOf p.val = none ∧ p.val % 17 = 16 ∧ t.rd (F.status_state.at (blBase p.val)) = 3) ∧
    (∃ s : State, ∃ t : State, ∃ p : Fin 128, s.rdB F.ftSvcStat_busy = false ∧ s.rdB F.ftStat_recovering = false ∧ p.val < 68 ∧ t = s.wr F.ftSvcStat_busy 1 ∧ (t.rd (F.status_state.at (blBase p.val)) = 0 ∨ t.rd (F.status_state.at (blBase p.val)) = 5)) ∧
    (∃ s : State, ∃ t : State, ∃ p : Fin 128, s.rdB F.ftSvcStat_busy = false ∧ s.rdB F.ftStat_recovering = false ∧ p.val < 68 ∧ t = s.wr F.ftSvcStat_busy 1 ∧ t.rd (F.status_state.at (blBase p.val)) ≠ 0 ∧ t.rd (F.status_state.at (blBase p.val)) ≠ 5) ∧
    (∃ r : Nat, r < 8) ∧
    (∃ s : State, ∃ p : Fin 68, ((s.bole p.val).draining = false ∨ s.slotsOn p.val ≠ [])) ∧
    (∃ s : State, ∃ p : Fin 68, ∃ n : Nat, (s.bole p.val).draining = true ∧ s.slotsOn p.val = [] ∧ (s.bole (17 * (p.val / 17) + 16)).standFor = none ∧ s.logOf p.val = some n ∧ p.val % 17 ≠ 16 ∧ s.spareFree (p.val / 17) = true) ∧
    (∃ s : State, ∃ p : Fin 68, ∃ n : Nat, (s.bole p.val).draining = true ∧ s.slotsOn p.val = [] ∧ (s.bole (17 * (p.val / 17) + 16)).standFor = none ∧ s.logOf p.val = some n ∧ p.val % 17 ≠ 16 ∧ s.spareFree (p.val / 17) = false) ∧
    (∃ s : State, ∃ p : Fin 68, ∃ n : Nat, (s.bole p.val).draining = true ∧ s.slotsOn p.val = [] ∧ (s.bole (17 * (p.val / 17) + 16)).standFor = none ∧ s.logOf p.val = some n ∧ p.val % 17 = 16) ∧
    (∃ s : State, ∃ p : Fin 68, (s.bole p.val).testing = false) ∧
    (∃ s : State, ∃ p : Fin 68, (s.bole p.val).testing = true) ∧
    (∃ s : State, ∃ p : Fin 68, (s.bole p.val).testing = true ∧ (s.bole p.val).scrubFor ≠ 0) ∧
    (∃ s : State, ∃ p : Fin 68, (s.bole p.val).testing = true ∧ (s.bole p.val).scrubFor = 0) ∧
    (∃ s : State, s.rdB F.ftSvcStat_busy = false ∧ s.rdB F.ftStat_recovering = false ∧ s.rd2 F.ftSvcAddrLo_addr F.ftSvcAddrHi_addr < dramSize) :=
  ⟨⟨{ r0 with engines := [(0, eng1)] }, 0, by decide +kernel⟩,
   ⟨rdy, rdy.wr F.ftSvcStat_busy 1, 3, (3 : Nat), by decide +kernel⟩,
   ⟨r0, r0.wr F.ftSvcStat_busy 1, 0, (0 : Nat), by decide +kernel⟩,
   ⟨{ r0 with regs := (r0.wr (F.status_state.at (blBase 16)) 3).regs }, State.wr ({ r0 with regs := (r0.wr (F.status_state.at (blBase 16)) 3).regs }) F.ftSvcStat_busy 1, 16, by decide +kernel⟩,
   ⟨r0, r0.wr F.ftSvcStat_busy 1, 67, by decide +kernel, by decide +kernel, by decide +kernel, by decide +kernel, (.inl (by decide +kernel))⟩,
   ⟨rdy, rdy.wr F.ftSvcStat_busy 1, 3, by decide +kernel⟩,
   ⟨7, by decide +kernel⟩,
   ⟨r0, 0, (.inl (by decide +kernel))⟩,
   ⟨drn, 0, 0, by decide +kernel⟩,
   ⟨svc 0 (fun b => { b with draining := true }), 0, 0, by decide +kernel⟩,
   ⟨drnS, 16, 5, by decide +kernel⟩,
   ⟨r0, 67, by decide +kernel⟩,
   ⟨svc 0 (fun b => { b with testing := true }), 0, by decide +kernel⟩,
   ⟨svc 0 (fun b => { b with testing := true, scrubFor := 3 }), 0, by decide +kernel⟩,
   ⟨svc 0 (fun b => { b with testing := true }), 0, by decide +kernel⟩,
   ⟨r0, by decide +kernel⟩⟩

theorem wit_SecurityRequests :
    (∃ s : State, ∃ req : List Byte, s.managed = true ∧ s.boot.stage ≠ 14 ∧ (spdmFresh req = false ∨ s.rdB F.seStat_entropyOk = true)) ∧
    (∃ s : State, ∃ req : List Byte, (s.managed = false ∨ s.boot.stage = 14 ∨ (spdmFresh req = true ∧ s.rdB F.seStat_entropyOk = false))) ∧
    (∃ s : State, s.mbServes = true ∧ (spdmFresh s.mbRequest = false ∨ s.rdB F.seStat_entropyOk = true)) ∧
    (∃ s : State, ∃ req : List Byte, field req 1 1 = 0x82 ∧ field req 2 1 = 0 ∧ field req 4 2 < s.certSlot.length) ∧
    (∃ s : State, s.sec.unlocked = 0) ∧
    (∃ s : State, s.sec.unlocked ≠ 0) ∧
    (∃ s : State, s.mbServes = false) ∧
    (∃ d : List Byte, d.length ≤ 4096) ∧
    (∃ d : List Byte, ∃ i, d.length ≤ 4096 ∧ 4 * i < d.length) ∧
    (∃ s : State, ∃ lv : Nat, ∃ c, s.mbServes = true ∧ field s.mbRequest 0 1 = lv ∧ 1 ≤ lv ∧ lv ≤ 3 ∧ s.sec.challenge = some c) ∧
    (∃ s : State, ∃ lv : Nat, s.mbServes = true ∧ field s.mbRequest 0 1 = lv ∧ 1 ≤ lv ∧ lv ≤ 3 ∧ s.sec.challenge = none ∧ s.rdB F.seStat_entropyOk = true) ∧
    (∃ s : State, s.mbServes = true ∧ s.sec.challenge = none) ∧
    (∃ s : State, ∃ lv : Nat, ∃ c : List Byte, ∃ sig : List Byte, s.mbServes = true ∧ s.sec.challenge = some (lv, c) ∧ sig = s.mbRequest.take 96 ∧ s.nsSince s.sec.challengedAt ≤ 10000000000) ∧
    (∃ s : State, ∃ lv : Nat, ∃ c : List Byte, s.mbServes = true ∧ s.sec.challenge = some (lv, c) ∧ 10000000000 < s.nsSince s.sec.challengedAt) ∧
    (∃ s : State, 10000000000 ≤ s.nsSince s.sec.challengedAt) ∧
    (∃ s : State, s.nsSince s.sec.challengedAt < 10000000000) ∧
    (∃ s : State, ∃ hash : List Byte, ∃ o : List Byte, ∃ gen : Nat, ∃ serial : Nat, s.mbServes = true ∧ s.mbRequest.length = 256 ∧ s.sec.owner = some o ∧ Config.transferFields s.mbRequest = (hash, gen, serial)) ∧
    (∃ s : State, s.boot.stage = 13) ∧
    (∃ s : State, 1 ≤ s.boot.stage ∧ s.boot.stage ≤ 7) :=
  ⟨⟨mbS 1 1, [0x10, 0xE0], by decide +kernel, by decide +kernel, (.inr (by decide +kernel))⟩,
   ⟨r0, [0x10, 0x83], (.inr (.inr (by decide +kernel)))⟩,
   ⟨mbS 0xE000 2, by decide +kernel, (.inr (by decide +kernel))⟩,
   ⟨r0, [0x10, 0x82, 0, 0, 0, 0, 64, 0], (by decide +kernel), (by decide +kernel), (by show 0 < _; simp [State.certSlot, leBytes])⟩,
   ⟨r0, by decide +kernel⟩,
   ⟨{ r0 with sec := { r0.sec with unlocked := 1 } }, by decide +kernel⟩,
   ⟨r0, by decide +kernel⟩,
   ⟨[1, 2, 3], by decide +kernel⟩,
   ⟨[1, 2, 3, 4, 5], (1 : Nat), by decide +kernel⟩,
   ⟨{ mbS 3 1 with sec := { (mbS 3 1).sec with challenge := some (1, []) } }, 3, ((1, []) : Nat × List Byte), by decide +kernel⟩,
   ⟨mbS 1 1, 1, by decide +kernel⟩,
   ⟨mbS 1 1, by decide +kernel⟩,
   ⟨{ mbS 2 96 with sec := { (mbS 2 96).sec with challenge := some (1, [1]), owner := none } }, 1, [1], State.mbRequest ({ mbS 2 96 with sec := { (mbS 2 96).sec with challenge := some (1, [1]), owner := none } }) |>.take 96, (by decide +kernel), (by decide +kernel), (rfl), (by decide +kernel)⟩,
   ⟨{ ({ mbS 2 96 with sec := { (mbS 2 96).sec with challenge := some (1, [1]), owner := none } }) with tl := { r0.tl with now := mkStamp 600 0 0 } }, 1, [1], by decide +kernel⟩,
   ⟨{ ({ mbS 2 96 with sec := { (mbS 2 96).sec with challenge := some (1, [1]), owner := none } }) with tl := { r0.tl with now := mkStamp 600 0 0 } }, by decide +kernel⟩,
   ⟨{ mbS 2 96 with sec := { (mbS 2 96).sec with challenge := some (1, [1]), owner := none } }, by decide +kernel⟩,
   ⟨{ mbS 2 256 with sec := { (mbS 2 256).sec with unlocked := 1 } }, (Config.transferFields (State.mbRequest ({ mbS 2 256 with sec := { (mbS 2 256).sec with unlocked := 1 } }))).1, List.replicate 48 7, (Config.transferFields (State.mbRequest ({ mbS 2 256 with sec := { (mbS 2 256).sec with unlocked := 1 } }))).2.1, (Config.transferFields (State.mbRequest ({ mbS 2 256 with sec := { (mbS 2 256).sec with unlocked := 1 } }))).2.2, (by decide +kernel), (by decide +kernel), (by decide +kernel), (rfl)⟩,
   ⟨mbS 1 1, by decide +kernel⟩,
   ⟨{ r0 with boot := { r0.boot with stage := 7 } }, by decide +kernel⟩⟩

theorem wit_Updates :
    (∃ s : State, s.rdB F.upStat_busy = false ∧ s.rdB (F.cfgCmd_busMaster.cfg 0) = true) ∧
    (∃ s : State, s.rdB F.upStat_busy = false ∧ s.rdB (F.cfgCmd_busMaster.cfg 0) = true) ∧
    (∃ s : State, s.rdB F.upStat_busy = true ∧ s.sec.updOp = 1 ∧ s.sec.updPiece = 0 ∧ s.sec.updMissing = 0) ∧
    (∃ s : State, ∃ n : Fin 65536, s.rdB F.upStat_busy = true ∧ s.sec.updOp = 2 ∧ s.sec.updPiece = n.val ∧ s.sec.updMissing = 0 ∧ s.sec.byPldm = false) ∧
    (∃ s : State, ∃ d : List Byte, s.manifestOk d = false) ∧
    (∃ s : State, ∃ d : List Byte, s.boot.stage ≠ 14 ∧ manSvn (d.take (manSize d)) < s.compCounter (manComp d)) ∧
    (∃ s : State, ∃ d : List Byte, s.boot.stage ≠ 14 ∧ s.compCounter (manComp d) ≤ manSvn (d.take (manSize d)) ∧ s.updateRefused (d.take (manSize d)) = true) ∧
    (∃ s : State, ∃ d : List Byte, s.boot.stage ≠ 14 ∧ s.compCounter (manComp d) ≤ manSvn (d.take (manSize d)) ∧ s.updateRefused (d.take (manSize d)) = false ∧ s.sec.manifest = []) ∧
    (∃ s : State, ∃ n : Nat, ∃ d : List Byte, s.sec.manifest ≠ [] ∧ n < manPieces s.sec.manifest ∧ n ∉ s.sec.held ∧ s.updateRefused s.sec.manifest = false ∧ pieceLen s.sec.manifest n ≤ d.length) ∧
    (∃ s : State, s.rdB F.upStat_busy = false ∧ s.sec.byPldm = false ∧ (s.sec.manifest = [] ∨ s.sec.held.length ≠ manPieces s.sec.manifest)) ∧
    (∃ s : State, s.rdB F.upStat_busy = false ∧ s.sec.byPldm = false ∧ s.sec.manifest ≠ [] ∧ s.sec.held.length = manPieces s.sec.manifest ∧ s.updateRefused s.sec.manifest = true) ∧
    (∃ s : State, s.rdB F.upStat_busy = false ∧ s.sec.byPldm = false ∧ s.sec.manifest ≠ [] ∧ s.sec.held.length = manPieces s.sec.manifest ∧ s.updateRefused s.sec.manifest = false ∧ manComp s.sec.manifest = 1 ∧ s.boot.stage ≠ 14) ∧
    (∃ s : State, ∃ n : Fin 65536, s.rdB F.upStat_busy = false ∧ s.sec.byPldm = false ∧ s.sec.manifest ≠ [] ∧ s.sec.held.length = manPieces s.sec.manifest ∧ s.updateRefused s.sec.manifest = false ∧ n.val ∈ s.sec.held) ∧
    (∃ s : State, s.sec.byPldm = true) ∧
    (∃ s : State, s.managed = true) ∧
    (∃ s : State, s.managed = true ∧ s.sec.byPldm = true) ∧
    (∃ s : State, s.managed = true ∧ s.sec.byPldm = false) ∧
    (∃ s : State, ∃ n : Nat, (∀ k, k < n → k ∈ s.sec.held) ∧ n < manPieces s.sec.manifest ∧ n ∉ s.sec.held) ∧
    (∃ s : State, ∃ new : Bank, s.rdB F.seMbCtrl_busy = false ∧ s.sec.handover = 1 ∧ (new = (if s.rdB F.seStat_bank then s.sec.stewA else s.sec.stewB))) ∧
    (∃ s : State, (s.rdB F.seMbCtrl_busy = true ∨ s.sec.handover = 0)) ∧
    (∃ s : State, s.rdB F.seMbCtrl_busy = false ∧ s.sec.handover = 2) ∧
    (∃ s : State, s.rdB F.seMbCtrl_busy = false ∧ s.sec.handover = 2 ∧ s.nsSince s.sec.switchedAt ≤ 100000000) ∧
    (∃ s : State, s.rdB F.seMbCtrl_busy = false ∧ s.sec.handover = 2 ∧ 100000000 < s.nsSince s.sec.switchedAt) ∧
    (∃ s : State, (s.sec.handover ≠ 2 ∨ s.nsSince s.sec.switchedAt < 100000000)) ∧
    (∃ s : State, s.sec.handover = 2 ∧ 100000000 ≤ s.nsSince s.sec.switchedAt) :=
  ⟨⟨mbS 1 1, by decide +kernel⟩,
   ⟨mbS 1 1, by decide +kernel⟩,
   ⟨opS 1 0, by decide +kernel⟩,
   ⟨opS 2 9, 9, by decide +kernel⟩,
   ⟨r0, [], by decide +kernel⟩,
   ⟨{ r0 with sec := { r0.sec with fwSvn := 9 } }, man1, by decide +kernel⟩,
   ⟨r0, man1, by decide +kernel⟩,
   ⟨{ colS [] with sec := { r0.sec with manifest := [] } }, man1, by decide +kernel⟩,
   ⟨colS [], 0, List.replicate 10 7, by decide +kernel⟩,
   ⟨r0, by decide +kernel, by decide +kernel, (.inl (by decide +kernel))⟩,
   ⟨{ r0 with sec := { r0.sec with manifest := man1, held := [0] } }, by decide +kernel⟩,
   ⟨colS [0], by decide +kernel⟩,
   ⟨colS [0], 0, by decide +kernel⟩,
   ⟨{ r0 with sec := { r0.sec with byPldm := true } }, by decide +kernel⟩,
   ⟨mbS 1 1, by decide +kernel⟩,
   ⟨{ mbS 1 1 with sec := { r0.sec with byPldm := true } }, by decide +kernel⟩,
   ⟨mbS 1 1, by decide +kernel⟩,
   ⟨colS [], 0, (fun k h => by cases h), (by decide +kernel), (by decide +kernel)⟩,
   ⟨{ r0 with sec := { r0.sec with handover := 1, fwSvn := 9 } }, r0.sec.stewB, by decide +kernel⟩,
   ⟨r0, (.inr (by decide +kernel))⟩,
   ⟨{ r0 with sec := { r0.sec with handover := 2 } }, by decide +kernel⟩,
   ⟨{ r0 with sec := { r0.sec with handover := 2 } }, by decide +kernel⟩,
   ⟨{ ({ r0 with sec := { r0.sec with handover := 2 } }) with tl := { r0.tl with now := mkStamp 600 0 0 } }, by decide +kernel⟩,
   ⟨r0, (.inl (by decide +kernel))⟩,
   ⟨{ ({ r0 with sec := { r0.sec with handover := 2 } }) with tl := { r0.tl with now := mkStamp 600 0 0 } }, by decide +kernel⟩⟩

theorem wit_HostAccess :
    (∃ s : State, ∃ t : State, ∃ fn : Fin 16, ∃ bar4 : Bool, ∃ off : Nat, s.barOpen fn.val = true ∧ off % 4 = 0 ∧ off < barSize bar4 ∧ t = s.wr F.glLink_l1 0) ∧
    (∃ s : State, ∃ fn : Fin 16, ∃ bar4 : Bool, ∃ off : Nat, (s.barOpen fn.val = false ∨ off % 4 ≠ 0 ∨ barSize bar4 ≤ off)) ∧
    (∃ s : State, ∃ fn : Fin 16, ∃ o : Nat, o ∈ [0x40, 0x104, 0x10C, 0x20800, 0x20010, 0x30004, 0x90000, 0x90020] ∧ (s.vfWrites fn.val o = true ∨ fn.val = 0)) ∧
    (∃ s : State, ∃ fn : Fin 16, ∃ o : Nat, ∃ a, o ∈ [0x40, 0x104, 0x10C, 0x20800, 0x20010, 0x30004, 0x90000, 0x90020] ∧ (s.vfWrites fn.val o = true ∨ fn.val = 0) ∧ a ≠ o) ∧
    (∃ s : State, ∃ fn : Fin 16, ∃ o : Nat, fn.val ≠ 0 ∧ s.vfWrites fn.val o = false) ∧
    (∃ s : State, ∃ fn : Nat, ∃ o : Nat, fn ≠ 0 ∧ s.vfReads fn o = false) ∧
    (∃ s : State, s.ep.linkUp = false) ∧
    (∃ s : State, ∃ t : State, ∃ fn : Fin 16, ∃ bar4 : Bool, ∃ off : Nat, ∃ size : Nat, s.ep.linkUp = true ∧ t = s.wr F.glLink_l1 0 ∧ (t.barOpen fn.val = false ∨ barSize bar4 < off + size)) ∧
    (∃ s : State, ∃ t : State, ∃ fn : Fin 16, ∃ bar4 : Bool, ∃ off : Nat, s.ep.linkUp = true ∧ t = s.wr F.glLink_l1 0 ∧ t.barOpen fn.val = true ∧ off % 4 = 0 ∧ off + 4 ≤ barSize bar4) ∧
    (∃ s : State, ∃ t : State, ∃ fn : Fin 16, ∃ off : Nat, s.ep.linkUp = true ∧ t = s.wr F.glLink_l1 0 ∧ t.barOpen fn.val = true ∧ off % 8 = 0 ∧ off + 8 ≤ 2 ^ 26) ∧
    (∃ s : State, ∃ t : State, ∃ fn : Fin 16, ∃ off : Nat, ∃ size : Nat, s.ep.linkUp = true ∧ t = s.wr F.glLink_l1 0 ∧ t.barOpen fn.val = true ∧ off + size ≤ 2 ^ 26 ∧ accessOk off size = false) ∧
    (∃ fn : Fin 16, ∃ vec : Nat, vec < fnVectors fn.val) ∧
    (∃ fn : Fin 16, ∃ vec : Nat, ∃ v : Word, vec < fnVectors fn.val ∧ v.toNat.testBit 0 = true) ∧
    (∃ s : State, (s.ep.linkUp = false ∨ s.ep.perst = true)) ∧
    (∃ s : State, s.ep.linkUp = true ∧ s.ep.perst = false ∧ s.ep.cfgReady = false) ∧
    (∃ s : State, ∃ fn : Fin 16, s.ep.linkUp = true ∧ s.ep.perst = false ∧ s.ep.cfgReady = true ∧ (s.wr F.glLink_l1 0).fnExists fn.val = false) ∧
    (∃ s : State, ∃ t : State, ∃ fn : Fin 16, s.ep.linkUp = true ∧ s.ep.perst = false ∧ s.ep.cfgReady = true ∧ t = s.wr F.glLink_l1 0 ∧ t.fnExists fn.val = true) ∧
    (∃ fn : Nat, ∃ o : Nat, fn ≠ 0 ∧ pfOnly o = true) :=
  ⟨⟨epS, epS.wr F.glLink_l1 0, 0, false, 2 ^ 26 - 4, by decide +kernel⟩,
   ⟨epS, 1, false, 0, (.inl (by decide +kernel))⟩,
   ⟨r0, 0, 0x90020, (by decide +kernel), (.inr (by decide +kernel))⟩,
   ⟨r0, 0, 0x20010, (0x20014 : Nat), (by decide +kernel), (.inr (by decide +kernel)), (by decide +kernel)⟩,
   ⟨r0, 15, 0x20004, by decide +kernel⟩,
   ⟨r0, 15, 0x20004, by decide +kernel⟩,
   ⟨r0, by decide +kernel⟩,
   ⟨epS, epS.wr F.glLink_l1 0, 0, true, 2 ^ 23 - 4, 8, (by decide +kernel), (by decide +kernel), (.inr (by decide +kernel))⟩,
   ⟨epS, epS.wr F.glLink_l1 0, 0, true, 2 ^ 23 - 4, by decide +kernel⟩,
   ⟨epS, epS.wr F.glLink_l1 0, 0, 2 ^ 26 - 8, by decide +kernel⟩,
   ⟨epS, epS.wr F.glLink_l1 0, 0, 2 ^ 26 - 2, 2, by decide +kernel⟩,
   ⟨1, 63, by decide +kernel⟩,
   ⟨0, 2047, 1, by decide +kernel⟩,
   ⟨r0, (.inl (by decide +kernel))⟩,
   ⟨{ epS with ep := { epS.ep with cfgReady := false } }, by decide +kernel⟩,
   ⟨epS, 1, by decide +kernel⟩,
   ⟨epS, epS.wr F.glLink_l1 0, 0, by decide +kernel⟩,
   ⟨15, 0x10, by decide +kernel⟩⟩


/-! ### The spec's worked examples; the expected results are the spec's own numbers -/

/-- 02, PTM: 30,000/1,001, 1,125 lines. -/
def ptmT : Timeline := { r0.tl with lines := 1125, num := 30000, den := 1001, ptmOrigin := 1000000000000, ptmFrame := 5000 }
/-- 02: the stamp of the dialog is 5000:416.16409. -/
theorem test_ptm_stamp : ptmT.ptmStamp 1000012345678 = mkStamp 5000 416 16409 := by decide +kernel
/-- 02: the counter is 81,945 sublines behind. -/
theorem test_ptm_error : ptmT.errSub (mkStamp 5000 416 16409) (mkStamp 5000 415 0) = 81945 := by decide +kernel
/-- 15: 1200:562.0 is 0x0000_04B0_0232_0000. -/
theorem test_stamp_word : mkStamp 1200 562 0 = 0x000004B002320000 := by decide +kernel
/-- 12: address 0x3_2A1C_5E40 lies in subchannel 28 (channel 14, A) at burst 7,584,485, and in key granule 12. -/
theorem test_dram_map : dramMap 0x32A1C5E40 = (28, 7584485) ∧ (0x32A1C5E40 : Nat) / 2 ^ 30 = 12 := by decide +kernel
/-- 12: the burst maps back to the address. -/
theorem test_dram_unmap : dramUnmap 28 7584485 = some 0x32A1C5E40 := by decide +kernel
/-- 05: 0x6_0440 lies in bank 17, and the region of 16 KiB at 0x6_0000 covers banks 16 to 31. -/
theorem test_spad_bank : spadBank 0x60440 = 17 ∧ banksOf 0x60000 0x4000 = (List.range 16).map (· + 16) := by decide +kernel
/-- 04: 1.5 times -0.3125 under scales 2^3 and 2^-7 is -0.029296875, in FP32 0xBCF0_0000. -/
theorem test_fp8_product : ((((FV.dec 3 0x3C).mul (FV.dec 3 0xAA)).mul (FV.dec 9 130)).mul (FV.dec 9 120)).to32 = 0xBCF00000#32 := by decide +kernel
/-- 04, channel 17: the requantization record. -/
def rq17 : Requant := ⟨1099511628, 0, 40, true, -20, -128, 127⟩
/-- 04: 123,456 gives 104 below the draw 1,958,505,195 and 103 from there on; -123,456 clips. -/
theorem test_requant : (requant 0 rq17 1958505194 123456).code = 104 ∧ (requant 0 rq17 1958505195 123456).code = 103 ∧
    (requant 0 { rq17 with mode := false } 0 123456).code = 103 ∧ requant 0 rq17 0 (BitVec.ofInt 32 (-123456)) = { code := 0x80, lo := true } := by
  decide +kernel
/-- 04: with the folded half, 123,456 gives 123 and 123,600 gives 124. -/
theorem test_requant_fold : (requant 0 ⟨1099511628, 500, 40, false, 0, -128, 127⟩ 0 123456).code = 123 ∧
    (requant 0 ⟨1099511628, 500, 40, false, 0, -128, 127⟩ 0 123600).code = 124 := by decide +kernel
/-- 06: the TILE at index 8 of the annotated cut list. -/
def tile8 : Nat := 0x000B0510 + 0x90000080 * 2 ^ 32 + 0x00800000 * 2 ^ 64 + 0x00000080 * 2 ^ 96
/-- 06: opcode 0x10, wait 0x05, set 3, shape 0, A registers 8 and 9, kblk 8, im 1. -/
theorem test_tile_word : opOf tile8 = 0x10 ∧ bits tile8 8 8 = 5 ∧ bits tile8 36 4 = 8 ∧ bits tile8 60 4 = 9 ∧ bits tile8 103 5 = 1 ∧
    (Tile.of tile8).shape = 0 ∧ (Tile.of tile8).kblk = 8 := by decide +kernel
/-- 11: the dictionary of the tokenizer's example. -/
def cats : List Byte := leBytes 4 0x54444B54 ++ leBytes 2 1 ++ [3, 0] ++ leBytes 4 5 ++ leBytes 4 1000 ++ leBytes 8 0 ++ leBytes 4 8 ++ List.replicate 36 0 ++
  (leBytes 4 0 ++ [3, 0, 0, 0] ++ leBytes 8 900) ++ (leBytes 4 0 ++ [3, 1, 0, 0] ++ leBytes 8 901) ++ (leBytes 4 3 ++ [1, 0, 0, 0] ++ leBytes 8 40) ++
  (leBytes 4 4 ++ [3, 0, 0, 0] ++ leBytes 8 77) ++ (leBytes 4 7 ++ [1, 0, 0, 0] ++ leBytes 8 3) ++ [99, 97, 116, 115, 116, 101, 114, 32]
/-- 11: "cat scatter" gives 901, 3, 40, 900, 77. -/
theorem test_tokens : (tokens cats (dictEntries cats) 1 12 [99, 97, 116, 32, 115, 99, 97, 116, 116, 101, 114] none).1 = [901, 3, 40, 900, 77] := by decide +kernel
/-- 16: module 2 of eight, with every port of the board up. -/
def mod2 : State := let p : Port := { Port.new with peerUps := 7 }
  ((((ws [(F.swCfg_count, 3), (F.swCfg_modId, 2), (F.swPortStat_state.at (swBase 0), 2), (F.swPortStat_state.at (swBase 1), 2),
    (F.swPortStat_state.at (swBase 2), 2)]).setPort 0 p).setPort 1 p).setPort 2 p).reroute
/-- 16: module 5 is reached over X (port 2), and over W (port 0) when X has failed. -/
theorem test_route : mod2.routeTo 5 = some 2 ∧ (State.reroute (mod2.wr (F.swPortStat_state.at (swBase 2)) 0)).routeTo 5 = some 0 := by decide +kernel
/-- 08: 4,200,000 µJ in, 1,100,000 static and 3,000,000 dynamic calibrate k to 67,720, and 1,200,000 µJ are charged as 1,239,990. -/
theorem test_calibration : (nextOr r0 (exec (.energyCalibration 4200000 1100000 3000000) r0)).rd F.acCalK_k = 67720 ∧
    (rw F.acCalK_k 67720).calibrated 1200000 = 1239990 := by decide +kernel
/-- 01: bole 2.3.1 has failed, and understory bole 2.U stands in. -/
def stood : State := ws [(F.spare_active.at (cgBase 2), 1), (F.spare_slot.at (cgBase 2), 13)]
/-- 01: logical bole 45 runs at physical index 50, whose ID names it; CG_SPARE lies at 0x0025_9000 and the block of bole 50 at 0x001C_8000. -/
theorem test_stand_in : stood.physOf 45 = 50 ∧ stood.regView 0 0x1C8000 0 = 50 * 2 ^ 16 + 2 ^ 15 + 2 ^ 14 + 1 * 2 ^ 12 + 3 * 2 ^ 10 + 2 * 2 ^ 8 ∧
    (F.spare_active.at (cgBase 2)).off = 0x259000 ∧ blBase 50 = 0x1C8000 := by decide +kernel
/-- 19: with the understory bole of grove 1 in slot 7, the grove's bits in ID_TIMING_IMG3 (bits 31 to 24) are 0x0F. -/
theorem test_timing_image : (ws [(F.spare_active.at (cgBase 1), 1), (F.spare_slot.at (cgBase 1), 7)]).imageGrove 1 = 0x0F := by decide +kernel
/-- 20: the manifest of 91 pieces takes 4,880 bytes. -/
theorem test_manifest_size : manSize (List.replicate 24 0 ++ leBytes 4 91) = 4880 := by decide +kernel

/-! ### Ill-formed commands are refused, one per check -/

theorem test_wf_write_align : (Instr.registerWrite 0 false 2 0).wf = false ∧ (Instr.registerWrite 0 false 4 0).wf = true := by decide
theorem test_wf_write_reach : (Instr.registerWrite 0 true 0x800000 0).wf = false ∧ (Instr.registerWrite 0 true 0x7FFFFC 0).wf = true := by decide
theorem test_wf_access_size : (Instr.bar0Access 0 false false 0 0 0).wf = false ∧ (Instr.bar0Access 0 false false 0 4097 0).wf = false := by decide
theorem test_wf_access_reach : (Instr.bar0Access 0 true false 0x7FFFFE 4 0).wf = false ∧ (Instr.bar0Access 0 true false 0x7FFFFC 4 0).wf = true := by decide
theorem test_wf_aperture : (Instr.apertureRead 0 0 0).wf = false ∧ (Instr.apertureWrite 0 0 []).wf = false ∧ (Instr.apertureRead 0 0 4096).wf = true := by decide
theorem test_wf_aperture_long : (Instr.apertureWrite 0 0 (List.replicate 4097 0)).wf = false := by decide +kernel
theorem test_wf_link : (Instr.linkTrained 0 4 false).wf = false ∧ (Instr.linkTrained 5 3 false).wf = false ∧ (Instr.linkTrained 5 4 false).wf = true := by decide
theorem test_wf_vector : (Instr.msixUnmask 1 64).wf = false ∧ (Instr.msixUnmask 0 64).wf = true := by decide
theorem test_wf_completion : (Instr.hostCompletion 0 0 .success (List.replicate 4097 0)).wf = false := by decide +kernel
theorem test_wf_dram_align : (Instr.dramRead .module 32 true [] []).wf = false ∧ (Instr.dramRead .module 64 true [] []).wf = true := by decide
theorem test_wf_dram_errors : (Instr.dramRead .module 64 true [(39, 1)] []).wf = false ∧ (Instr.dramRead .module 64 true [(3, 1), (3, 2)] []).wf = false ∧
    (Instr.dramRead .module 64 true [(3, 65536)] []).wf = false := by decide
theorem test_wf_dram_write : (Instr.dramWrite .module 60 [1, 2, 3, 4, 5]).wf = false ∧ (Instr.dramWrite .module 0 []).wf = false ∧ (Instr.dramWrite .module 60 [1, 2, 3, 4]).wf = true := by decide
theorem test_wf_scrub : (Instr.patrolScrubRead [(39, 1)] []).wf = false := by decide
theorem test_wf_skidway : (Instr.skidwayWriteReceived 0 ⟨0, 0⟩ sw1 []).wf = false ∧ (Instr.skidwayWriteReceived 0 ⟨0, 0⟩ sw1 (List.replicate 1025 0)).wf = false := by decide +kernel
theorem test_wf_gate : (Instr.spadGateRequest true false 4 0).wf = false ∧ (Instr.bankGateEntry true 0 16).wf = false ∧ (Instr.bankUngateComplete true 4 0).wf = false ∧
    (Instr.bankGateEntry false 67 47).wf = true := by decide
theorem test_wf_trip : (Instr.overcurrentTrip 1 false).wf = false ∧ (Instr.overcurrentTrip 2 false).wf = true := by decide
theorem test_wf_stage : (Instr.startupStageComplete 0 obs).wf = false ∧ (Instr.startupStageComplete 1 obs).wf = true := by decide
theorem test_wf_flush : (Instr.decodeFlush 0 [1, 1]).wf = false ∧ (Instr.decodeFlush 0 [1, 2]).wf = true := by decide
theorem test_wf_picture : (Instr.pictureComplete 0 { pe1 with outs := [1, 1] }).wf = false ∧ (Instr.pictureComplete 0 { pe1 with leaves := [2, 2] }).wf = false := by decide

end Sys2Proof.Tests
end

section
/-! PROOFS. The laws of registers (R7, R8): what a write by access codes makes of one field is what `fldWrite` alone makes of it,
because the other fields of its register lie apart from it. -/

namespace Sys2Proof.Machine

/-! ### One field -/

/-- A write of one field leaves every field that lies apart from it. -/
theorem bits_fldWrite_disj (b : Bool) (v old lo w : Nat) (f : Fld) (h : lo + w ≤ f.lo ∨ f.lo + f.w ≤ lo) :
    bits (fldWrite b v old f) lo w = bits old lo w := by
  unfold fldWrite
  cases f.acc with
  | rw | w1c | w1s => exact bits_setBits_disj _ _ _ _ _ _ h
  | rwp => cases b with
    | false => exact bits_setBits_disj _ _ _ _ _ _ h
    | true => rfl
  | ro | wo => rfl

/-- What a write makes of a field depends on what the field held and on nothing else of its register. -/
theorem bits_fldWrite_congr (b : Bool) (v old old' : Nat) (f : Fld) (h : bits old f.lo f.w = bits old' f.lo f.w) :
    bits (fldWrite b v old f) f.lo f.w = bits (fldWrite b v old' f) f.lo f.w := by
  unfold fldWrite
  cases f.acc with
  | rw => simp only [bits_setBits_same]
  | w1c | w1s => simp only [bits_setBits_same, h]
  | rwp => cases b with
    | false => simp [bits_setBits_same]
    | true => exact h
  | ro | wo => exact h

/-- Replacing a field's bits with a value that fits it. -/
theorem bits_setBits_of_lt (v lo w x : Nat) (h : x < 2 ^ w) : bits (setBits v lo w x) lo w = x := by
  rw [bits_setBits_same, Nat.mod_eq_of_lt h]

/-- RW: the field takes the value written. -/
theorem bits_fldWrite_rw (b : Bool) (v old : Nat) (f : Fld) (h : f.acc = .rw) :
    bits (fldWrite b v old f) f.lo f.w = bits v f.lo f.w := by
  simp only [fldWrite, h]
  exact bits_setBits_of_lt _ _ _ _ (bits_lt ..)

/-- RWP: the field takes the value written before seal, and keeps its own after it (R8). -/
theorem bits_fldWrite_rwp (b : Bool) (v old : Nat) (f : Fld) (h : f.acc = .rwp) :
    bits (fldWrite b v old f) f.lo f.w = if b then bits old f.lo f.w else bits v f.lo f.w := by
  simp only [fldWrite, h]
  cases b with
  | false => exact bits_setBits_of_lt _ _ _ _ (bits_lt ..)
  | true => rfl

/-- W1C: the field loses the bits written as 1. -/
theorem bits_fldWrite_w1c (b : Bool) (v old : Nat) (f : Fld) (h : f.acc = .w1c) :
    bits (fldWrite b v old f) f.lo f.w = bits old f.lo f.w - (bits old f.lo f.w &&& bits v f.lo f.w) := by
  simp only [fldWrite, h]
  exact bits_setBits_of_lt _ _ _ _ (Nat.lt_of_le_of_lt (Nat.sub_le ..) (bits_lt ..))

/-- W1S: the field gains the bits written as 1. -/
theorem bits_fldWrite_w1s (b : Bool) (v old : Nat) (f : Fld) (h : f.acc = .w1s) :
    bits (fldWrite b v old f) f.lo f.w = bits old f.lo f.w ||| bits v f.lo f.w := by
  simp only [fldWrite, h]
  exact bits_setBits_of_lt _ _ _ _ (Nat.or_lt_two_pow (bits_lt ..) (bits_lt ..))

/-- RO: the write is ignored. -/
theorem fldWrite_ro (b : Bool) (v old : Nat) (f : Fld) (h : f.acc = .ro) : fldWrite b v old f = old := by
  simp only [fldWrite, h]

/-! ### The fields of one register -/

/-- Writes of fields that all lie apart from a field leave it. -/
theorem bits_foldl_fldWrite_disj (b : Bool) (v lo w : Nat) (fs : List Fld) (old : Nat)
    (h : ∀ g ∈ fs, lo + w ≤ g.lo ∨ g.lo + g.w ≤ lo) : bits (fs.foldl (fldWrite b v) old) lo w = bits old lo w := by
  induction fs generalizing old with
  | nil => rfl
  | cons g fs ih =>
    obtain ⟨hg, hfs⟩ := List.forall_mem_cons.1 h
    rw [List.foldl_cons, ih _ hfs, bits_fldWrite_disj _ _ _ _ _ _ hg]

/-- Among the writes of fields in rising order, one field sees its own write only. -/
theorem bits_foldl_fldWrite_mem (b : Bool) (v : Nat) (f : Fld) (fs : List Fld) (old : Nat) (hf : f ∈ fs)
    (hfs : fs.Pairwise (fun x y => x.lo + x.w ≤ y.lo)) :
    bits (fs.foldl (fldWrite b v) old) f.lo f.w = bits (fldWrite b v old f) f.lo f.w := by
  induction fs generalizing old with
  | nil => cases hf
  | cons g fs ih =>
    obtain ⟨hg, hfs⟩ := List.pairwise_cons.1 hfs
    rw [List.foldl_cons]
    cases hf with
    | head => exact bits_foldl_fldWrite_disj _ _ _ _ _ _ fun x hx => .inl (hg x hx)
    | tail _ hf =>
      have hfg : bits (fldWrite b v old g) f.lo f.w = bits old f.lo f.w := bits_fldWrite_disj _ _ _ _ _ _ (.inr (hg f hf))
      rw [ih _ hf hfs, bits_fldWrite_congr _ _ _ _ _ hfg]

/-! ### The register in the state -/

/-- A write of a register that has a field sets that register to what its fields' writes give. -/
theorem State.regWrite_of_mem (s : State) (o v : Nat) {f : Fld} (hf : f ∈ fldsAt o) :
    s.regWrite o v = s.setReg o (BitVec.ofNat 32 ((fldsAt o).foldl (fldWrite s.sealed v) (s.reg o).toNat)) := by
  unfold State.regWrite
  split
  case h_1 hnil => simp [hnil] at hf
  case h_2 => rfl

/-- A write of a register leaves every other. -/
theorem State.reg_regWrite_ne (s : State) (o v a : Nat) (h : a ≠ o) : (s.regWrite o v).reg a = s.reg a := by
  unfold State.regWrite
  split
  · rfl
  · exact s.reg_setReg_ne _ _ _ h

/-- What a write of a register makes of one of its fields is what the field's own access code makes of it. -/
theorem State.rd_regWrite (s : State) (o v : Nat) (f : Fld) (hf : f ∈ fldsAt o)
    (hfs : (fldsAt o).Pairwise (fun a b => a.lo + a.w ≤ b.lo)) (ho : f.off = o) (hw : f.lo + f.w ≤ 32) :
    (s.regWrite o v).rd f = bits (fldWrite s.sealed v (s.reg f.off).toNat f) f.lo f.w := by
  subst ho
  rw [s.regWrite_of_mem _ v hf, State.rd, State.reg_setReg_same, BitVec.toNat_ofNat, bits_mod_word _ _ _ hw,
    bits_foldl_fldWrite_mem _ _ _ _ _ hf hfs]

/-- Setting a field leaves the bits of its register outside it. -/
theorem State.getLsbD_reg_wr_out (s : State) (f : Fld) (v i : Nat) (hi : i < 32) (h : i < f.lo ∨ f.lo + f.w ≤ i) :
    ((s.wr f v).reg f.off).getLsbD i = (s.reg f.off).getLsbD i := by
  have hout : ¬ (f.lo ≤ i ∧ i < f.lo + f.w) := by omega
  rw [State.wr, State.reg_setReg_same, BitVec.getLsbD_ofNat, testBit_setBits, if_neg hout]
  simp [hi, BitVec.getLsbD]

/-- Settles O4: a field just set by the laws of `State.wr`, and a write by access codes through `State.rd_regWrite`, one access code
at a time. -/
theorem registerLaws : Obligations.RegisterLaws := by
  refine ⟨fun s f v hw => ⟨s.rd_wr_same f v hw, fun g _ hg h => s.rd_wr_disj f g v hg h, s.reg_wr_ne f v,
    s.getLsbD_reg_wr_out f v, rfl⟩, fun s o v f hf hfs hin => ?_⟩
  obtain ⟨ho, hw⟩ := hin f hf
  have hrd := s.rd_regWrite o v f hf hfs ho hw
  refine ⟨fun h => ?rw, fun h => ?rwp, fun h => ?w1c, fun h => ?w1s, fun h => ?ro, s.reg_regWrite_ne o v⟩
  case rw => exact hrd.trans (bits_fldWrite_rw _ _ _ _ h)
  case rwp => exact hrd.trans (bits_fldWrite_rwp _ _ _ _ h)
  case w1c => exact hrd.trans (bits_fldWrite_w1c _ _ _ _ h)
  case w1s => exact hrd.trans (bits_fldWrite_w1s _ _ _ _ h)
  case ro => rw [hrd, fldWrite_ro _ _ _ _ h, State.rd]

end Sys2Proof.Machine
end

section
/-! PROOFS. What the logging of a fault changes (R480, R551, R554, R555): it is a chain of the steps of `LogStep`, so a relation that each of them keeps holds
between the states before and after it. -/

namespace Sys2Proof.Machine

/-! ### The steps of logging -/

/-- The register fields that logging writes itself (R555, R573). -/
def logFields : List Fld :=
  [F.ftLogHead_head, F.ftCnt0_corrected, F.ftCnt0_contained, F.ftCnt1_data, F.ftCnt1_pfatal, F.ftCnt1_dfatal, F.ftLast_code, F.ftLast_class, F.ftLast_valid]

/-- A reflexive and transitive relation that every step of `State.logFault` keeps. -/
structure LogStep (R : State → State → Prop) : Prop where
  refl : ∀ s, R s s
  trans : ∀ s t u, R s t → R t u → R s u
  seq : ∀ s n, R s { s with logSeq := n }
  flash : ∀ s l, R s { s with flashLog := l }
  dram : ∀ s t p a d, s.dramWrite p a d = some t → R s t
  field : ∀ s f v, f ∈ logFields → R s (s.wr f v)
  vec : ∀ s fn v, R s (s.raiseVec fn v)
  aer : ∀ s, R s (s.aer 0 .internalError)
  ring : ∀ s n d, R s (s.publishRecord n d)

/-- Logging a fault does nothing but the steps of `LogStep`. -/
theorem LogStep.logFault {R : State → State → Prop} (h : LogStep R) (s : State) (f : FaultInfo) : R s (s.logFault f) := by
  unfold State.logFault
  extract_lets rec' s1 n a s2 s3 s4 part fatal s5 s6 c ctxField r
  have h1 : R s s1 := h.seq s _
  have h2 : R s1 s2 := by
    unfold s2
    split
    · have hw : R s1 ((s1.dramWrite moduleKey a rec').getD s1) := by
        cases hd : s1.dramWrite moduleKey a rec' with
        | none => exact h.refl s1
        | some t => exact h.dram _ _ _ _ _ hd
      exact h.trans _ _ _ hw (h.field _ _ _ (by decide))
    · exact h.refl s1
  have h3 : R s2 s3 := by
    unfold s3
    cases f.cls with
    | corrected | contained | dataFault | partitionFatal | deviceFatal => exact h.field _ _ _ (by decide)
    | informational | refused => exact h.refl s2
  have h4 : R s3 s4 :=
    h.trans _ _ _ (h.trans _ _ _ (h.field _ _ _ (by decide)) (h.field _ _ _ (by decide))) (h.field _ _ _ (by decide))
  have h5 : R s4 s5 := by
    unfold s5
    split
    · exact h.flash s4 _
    · exact h.refl s4
  have h6 : R s5 s6 := by
    unfold s6
    cases f.cls with
    | partitionFatal => exact h.vec s5 _ _
    | deviceFatal => exact h.trans _ _ _ (h.aer s5) (h.vec _ _ _)
    | informational | corrected | refused | dataFault | contained => exact h.refl s5
  have hs6 : R s s6 :=
    h.trans _ _ _ h1 (h.trans _ _ _ h2 (h.trans _ _ _ h3 (h.trans _ _ _ h4 (h.trans _ _ _ h5 h6))))
  clear_value r s6 part
  cases part with
  | none => exact hs6
  | some p =>
    refine h.trans _ _ _ hs6 (foldl_rel R _ h.refl h.trans (fun t e => ?_) _ s6)
    split
    · exact h.ring t e.1 r
    · exact h.refl t

/-! ### The frame of logging -/

/-- Consumer index of metadata ring n. -/
def State.ringCons (s : State) (n : Nat) : Option Nat := (tget s.mrings n).map Ring.cons

/-- What logging leaves: all but DRAM, registers, endpoint, what is sent, the refused writes that are due, the rings and the two logs; of the rings it leaves
every consumer index. -/
structure LogKeeps (s t : State) : Prop where
  rest : t = { s with
    dram := t.dram, regs := t.regs, ep := t.ep, out := t.out, sched := { s.sched with pfailDue := t.sched.pfailDue }
    mrings := t.mrings, logSeq := t.logSeq, flashLog := t.flashLog }
  cons : ∀ n, t.ringCons n = s.ringCons n

namespace LogKeeps

/-- Nothing differs from itself. -/
theorem refl (s : State) : LogKeeps s s := ⟨rfl, fun _ => rfl⟩

/-- Two such changes are one. -/
theorem trans {s t u : State} (h : LogKeeps s t) (k : LogKeeps t u) : LogKeeps s u :=
  ⟨by rw [k.rest, h.rest], fun n => (k.cons n).trans (h.cons n)⟩

/-- A write of a queue object leaves the rings and the logs. -/
theorem of_queue {s t : State} (h : OnlyQueue s t) : LogKeeps s t := by
  unfold OnlyQueue at h
  rw [h]
  exact ⟨rfl, fun _ => rfl⟩

/-- A new entry of a ring with the ring's consumer index. -/
theorem of_ring {s : State} {n : Nat} {r r' : Ring} (hr : tget s.mrings n = some r) (hc : r'.cons = r.cons) :
    LogKeeps s { s with mrings := tput s.mrings n r' } := by
  refine ⟨rfl, fun m => ?_⟩
  simp only [State.ringCons, tget_tput]
  split
  case isTrue hm => simp [hm, hr, hc]
  case isFalse => rfl

/-- An event on a vector leaves the rings and the logs. -/
theorem raiseVec (s : State) (fn v : Nat) : LogKeeps s (s.raiseVec fn v) := by
  rw [s.raiseVec_frame]
  exact ⟨rfl, fun _ => rfl⟩

/-- A record published on a ring moves the producer index or the discard count only. -/
theorem publishRecord (s : State) (n : Nat) (d : List Byte) : LogKeeps s (s.publishRecord n d) := by
  unfold State.publishRecord
  split
  case h_1 => exact refl s
  case h_2 r hr =>
    split
    · exact of_ring hr rfl
    · extract_lets s1 p s2 s3
      have h1 : OnlyQueue s s1 := s.queueWrite_frame _ _ _ _
      have hr1 : tget s1.mrings n = some r := by
        unfold OnlyQueue at h1
        rw [h1]
        exact hr
      have h3 : LogKeeps s s3 := ((of_queue h1).trans (of_ring (r' := { r with prod := p }) hr1 rfl)).trans (of_queue (s2.queueWrite_frame _ _ _ _))
      split
      · exact h3.trans (raiseVec s3 _ _)
      · exact h3

/-- Every step of logging keeps this frame. -/
theorem logStep : LogStep LogKeeps where
  refl := refl
  trans _ _ _ := trans
  seq _ _ := ⟨rfl, fun _ => rfl⟩
  flash _ _ := ⟨rfl, fun _ => rfl⟩
  dram s t p a d h := of_queue (s.dramWrite_frame t p a d h).queue
  field _ _ _ _ := ⟨rfl, fun _ => rfl⟩
  vec := raiseVec
  aer _ := ⟨rfl, fun _ => rfl⟩
  ring := publishRecord

end LogKeeps

/-- Logging a code about a partition. -/
theorem State.logPart_keeps (s : State) (code p : Nat) (kind : SrcKind) (idx d0 d1 : Nat) : LogKeeps s (s.logPart code p kind idx d0 d1) :=
  LogKeeps.logStep.logFault s _

/-- Logging leaves the SQs. -/
@[simp] theorem State.logPart_sqs (s : State) (code p : Nat) (kind : SrcKind) (idx d0 d1 : Nat) :
    (s.logPart code p kind idx d0 d1).sqs = s.sqs := by
  rw [(s.logPart_keeps code p kind idx d0 d1).rest]

/-- Logging leaves the CQs. -/
@[simp] theorem State.logPart_cqs (s : State) (code p : Nat) (kind : SrcKind) (idx d0 d1 : Nat) :
    (s.logPart code p kind idx d0 d1).cqs = s.cqs := by
  rw [(s.logPart_keeps code p kind idx d0 d1).rest]

/-! ### Registers under logging -/

/-- The subchannel of a data address is one of the 32 (R369). -/
theorem dramMap_subchannel_lt (a : Nat) : (dramMap a).1 < 32 := by
  have h5 (lo : Nat) : bits a lo 5 < 2 ^ 5 := bits_lt ..
  have h1 : bits a 38 1 < 2 ^ 5 := Nat.lt_trans (bits_lt ..) (by decide)
  exact Nat.xor_lt_two_pow (Nat.xor_lt_two_pow (Nat.xor_lt_two_pow (Nat.xor_lt_two_pow (Nat.xor_lt_two_pow (Nat.xor_lt_two_pow
    (h5 8) (h5 13)) (h5 18)) (h5 23)) (h5 28)) (h5 33)) h1

/-- The count of a poison list lies among the DRAM blocks of the physical function's BAR0 (R393). -/
theorem poisonCount_off_bounds {sc : Nat} (h : sc < 32) :
    0x50000 ≤ (F.drScPoison_entries.at (scBase sc)).off ∧ (F.drScPoison_entries.at (scBase sc)).off < fnStride := by
  simp only [Fld.at, scBase, F.drScPoison_entries, fnStride]
  omega

/-- A register of a function that lies below the DRAM blocks of its BAR0: no store into DRAM and no log reaches it. -/
def belowDram (a : Nat) : Prop := a % fnStride < 0x50000 ∧ a < 2 ^ 31

/-- A store into DRAM writes no register but the counts of the poison lists. -/
theorem State.reg_dramWrite {s t : State} {p o : Nat} {d : List Byte} {a : Nat} (ha : belowDram a) (h : s.dramWrite p o d = some t) :
    t.reg a = s.reg a := by
  obtain ⟨hlow, -⟩ := ha
  unfold State.dramWrite at h
  split at h
  case isFalse => cases h
  case isTrue =>
    cases h
    refine foldl_keeps (State.reg · a) _ (fun s b => ?_) _ s
    dsimp only
    split
    case isFalse => rfl
    case isTrue =>
      obtain ⟨hlo, hhi⟩ := poisonCount_off_bounds (dramMap_subchannel_lt b)
      refine State.reg_wr_ne _ _ _ _ fun he => ?_
      rw [he, Nat.mod_eq_of_lt hhi] at hlow
      exact Nat.not_lt.2 hlo hlow

/-- With no ring to publish on, what logging leaves of a register below the DRAM blocks. -/
def KeepsReg (a : Nat) (s t : State) : Prop := s.mrings = [] → t.mrings = [] ∧ t.reg a = s.reg a

/-- Without rings, no step of logging reaches a register below the DRAM blocks. -/
theorem KeepsReg.logStep {a : Nat} (ha : belowDram a) : LogStep (KeepsReg a) where
  refl _ hm := ⟨hm, rfl⟩
  trans _ _ _ h k hm := by
    obtain ⟨hmt, hrt⟩ := h hm
    obtain ⟨hmu, hru⟩ := k hmt
    exact ⟨hmu, hru.trans hrt⟩
  seq _ _ hm := ⟨hm, rfl⟩
  flash _ _ hm := ⟨hm, rfl⟩
  dram s t p o d h hm := by
    refine ⟨?_, State.reg_dramWrite ha h⟩
    have hd := s.dramWrite_frame t p o d h
    unfold OnlyDram at hd
    rw [hd]
    exact hm
  field s f v hf hm := by
    obtain ⟨hlow, -⟩ := ha
    have hlog : ∀ g ∈ logFields, 0x50000 ≤ g.off % fnStride := by decide
    refine ⟨hm, s.reg_wr_ne f v a fun he => ?_⟩
    have := hlog f hf
    rw [← he] at this
    omega
  vec s fn v hm := by
    rw [s.raiseVec_frame]
    exact ⟨hm, rfl⟩
  aer s hm := by
    obtain ⟨-, hbar⟩ := ha
    refine ⟨hm, s.reg_wr_ne (F.cfgAerUnc_internal.cfg 0) 1 a fun he => ?_⟩
    simp only [he, Fld.cfg, Fld.at, cfgOff, F.cfgAerUnc_internal] at hbar
    omega
  ring s n d hm := by
    have hnone : s.publishRecord n d = s := by simp [State.publishRecord, hm, tget]
    rw [hnone]
    exact ⟨hm, rfl⟩

/-- A field below the DRAM blocks is as it was when a code is logged and no ring publishes it. -/
theorem State.rd_logPart {s : State} {f : Fld} (hf : belowDram f.off) (hm : s.mrings = []) (code p : Nat) (kind : SrcKind) (idx d0 d1 : Nat) :
    (s.logPart code p kind idx d0 d1).rd f = s.rd f := by
  have h := ((KeepsReg.logStep hf).logFault s { mkFault code kind idx d0 d1 with part := some p } hm).2
  simp only [State.rd, State.logPart, h]

end Sys2Proof.Machine
end

section
/-! PROOFS. The doorbells (R425, R426, R441, R454 to R456, R481): what a tail or consumer write does to its object, and which writes reach it. -/

namespace Sys2Proof.Machine

/-! ### Writes of an index -/

/-- A stopped SQ ignores its tail. -/
theorem State.sqTail_of_stopped {q : Sq} (s : State) (n tail : Nat) (h : q.stopped = true) : s.sqTail n q tail = s := by
  simp [State.sqTail, h]

/-- R455: a tail between the last valid one and the depth is taken. -/
theorem State.sqTail_of_inRange {q : Sq} (s : State) (n tail : Nat) (h : q.stopped = false)
    (hdepth : (tail + 2 ^ 32 - q.head) % 2 ^ 32 ≤ 2 ^ q.log2)
    (hlast : (q.tail + 2 ^ 32 - q.head) % 2 ^ 32 ≤ (tail + 2 ^ 32 - q.head) % 2 ^ 32) :
    s.sqTail n q tail = { s with sqs := tput s.sqs n { q with tail := tail } } := by
  have hin : ¬ (2 ^ q.log2 < (tail + 2 ^ 32 - q.head) % 2 ^ 32 ∨
      (tail + 2 ^ 32 - q.head) % 2 ^ 32 < (q.tail + 2 ^ 32 - q.head) % 2 ^ 32) := by omega
  simp only [State.sqTail, h, Bool.false_eq_true, if_false, Bool.or_eq_true, decide_eq_true_eq, if_neg hin]

/-- R455: any other tail stops an SQ that is no control SQ. -/
theorem State.sqTail_of_outside {q : Sq} (s : State) {n : Nat} (tail : Nat) (hn : n < 16384) (h : q.stopped = false)
    (hout : 2 ^ q.log2 < (tail + 2 ^ 32 - q.head) % 2 ^ 32 ∨
      (tail + 2 ^ 32 - q.head) % 2 ^ 32 < (q.tail + 2 ^ 32 - q.head) % 2 ^ 32) :
    s.sqTail n q tail = State.qErr (State.logPart { s with sqs := tput s.sqs n { q with stopped := true } }
      0x322 q.part .scheduler 0 n) q.part 0x322 n := by
  simp only [State.sqTail, h, Bool.false_eq_true, if_false, Bool.or_eq_true, decide_eq_true_eq, if_pos hout, if_neg (Nat.not_le.2 hn), Nat.mod_eq_of_lt hn]

/-- R456: a consumer index is allowed where it lies no further than the producer. -/
theorem consumerOk_iff (prod cons new : Nat) :
    consumerOk prod cons new = true ↔ (new + 2 ^ 32 - cons) % 2 ^ 32 ≤ (prod + 2 ^ 32 - cons) % 2 ^ 32 := by
  simp only [consumerOk, decide_eq_true_eq]

/-- R456: an allowed consumer index is taken. -/
theorem State.cqHead_of_inRange {k : Cq} (s : State) (n v : Nat) (h : (v + 2 ^ 32 - k.cons) % 2 ^ 32 ≤ (k.prod + 2 ^ 32 - k.cons) % 2 ^ 32) :
    s.cqHead n k v = { s with cqs := tput s.cqs n { k with cons := v } } :=
  if_pos ((consumerOk_iff ..).2 h)

/-- R456: any other is invalid. -/
theorem State.cqHead_of_outside {k : Cq} (s : State) (n v : Nat) (h : (k.prod + 2 ^ 32 - k.cons) % 2 ^ 32 < (v + 2 ^ 32 - k.cons) % 2 ^ 32) :
    s.cqHead n k v = s.consumerInvalid k.part n :=
  if_neg fun hok => Nat.not_le.2 h ((consumerOk_iff ..).1 hok)

/-- R456: what an invalid consumer index of an object below 16,384 leaves in the log and in SC_Q_ERR. -/
theorem State.consumerInvalid_eq (s : State) (p : Nat) {n : Nat} (hn : n < 16384) :
    s.consumerInvalid p n = (((s.logPart 0x328 p .scheduler 0 n).wr (F.scQErr_code.fn p) 0x328).wr (F.scQErr_number.fn p) n).wr
      (F.scQErr_valid.fn p) 1 := by
  rw [State.consumerInvalid, State.qErr, Nat.mod_eq_of_lt hn]

/-- An invalid consumer index leaves the CQs. -/
@[simp] theorem State.consumerInvalid_cqs (s : State) (p n : Nat) : (s.consumerInvalid p n).cqs = s.cqs := by
  simp [State.consumerInvalid, State.qErr]

/-- A fault logged about a partition leaves the consumer index of every ring. -/
theorem State.logPart_ring_cons {s : State} {n : Nat} {r r' : Ring} {code p : Nat} {kind : SrcKind} {idx d0 d1 : Nat} (hr : tget s.mrings n = some r)
    (hr' : tget (s.logPart code p kind idx d0 d1).mrings n = some r') : r'.cons = r.cons := by
  have h := (s.logPart_keeps code p kind idx d0 d1).cons n
  simpa only [State.ringCons, hr, hr', Option.map_some, Option.some.injEq] using h

/-! ### The dispatch of the doorbell commands -/

theorem exec_sqDoorbell (fn : Fin 16) (n : Fin 16384) (v : Word) (s : State) : exec (.sqDoorbell fn n v) s = execSqDoorbell fn n v s := rfl

theorem exec_cqDoorbell (fn : Fin 16) (n : Fin 4096) (v : Word) (s : State) : exec (.cqDoorbell fn n v) s = execCqDoorbell fn n v s := rfl

theorem exec_ringDoorbell (fn : Fin 16) (n : Fin 1024) (v : Word) (s : State) : exec (.ringDoorbell fn n v) s = execRingDoorbell fn n v s := rfl

theorem exec_scCtlSqTailWrite (p : Fin 16) (v : Word) (s : State) : exec (.scCtlSqTailWrite p v) s = execScCtlSqTailWrite p v s := rfl

theorem exec_scCtlCqHeadWrite (p : Fin 16) (v : Word) (s : State) : exec (.scCtlCqHeadWrite p v) s = execScCtlCqHeadWrite p v s := rfl

/-! ### Doorbells of a function -/

/-- R426, R441: no doorbell of a function that cannot be reached does anything. -/
theorem exec_doorbell_of_barClosed {s : State} {fn : Fin 16} (v : Word) (h : s.barOpen fn.val = false) :
    (∀ n, exec (.sqDoorbell fn n v) s = .next s.settle) ∧ (∀ n, exec (.cqDoorbell fn n v) s = .next s.settle) ∧
      ∀ n, exec (.ringDoorbell fn n v) s = .next s.settle := by
  refine ⟨fun n => ?_, fun n => ?_, fun n => ?_⟩
  · simp [exec_sqDoorbell, execSqDoorbell, finish, h]
  · simp [exec_cqDoorbell, execCqDoorbell, finish, h]
  · simp [exec_ringDoorbell, execRingDoorbell, finish, h]

/-- R454: the doorbell of an SQ of the function is a tail write. -/
theorem exec_sqDoorbell_of_owned {s : State} {fn : Fin 16} {n : Fin 16384} {q : Sq} (v : Word) (hb : s.barOpen fn.val = true)
    (hq : tget s.sqs n.val = some q) (hp : q.part = fn.val) (ht : q.templated = false) :
    exec (.sqDoorbell fn n v) s = .next (s.sqTail n.val q v.toNat).settle := by
  simp [exec_sqDoorbell, execSqDoorbell, finish, hb, hq, hp, ht]

/-- R425: any other SQ doorbell is ignored. -/
theorem exec_sqDoorbell_of_notOwned {s : State} {fn : Fin 16} {n : Fin 16384} (v : Word) (hb : s.barOpen fn.val = true)
    (h : ∀ q, tget s.sqs n.val = some q → q.part ≠ fn.val ∨ q.templated = true) :
    exec (.sqDoorbell fn n v) s = .next (s.doorbellIgnored fn.val n.val).settle := by
  cases hq : tget s.sqs n.val with
  | none => simp [exec_sqDoorbell, execSqDoorbell, finish, hb, hq]
  | some q =>
    have hno : (decide (q.part = fn.val) && !q.templated) = false := by
      rcases h q hq with hp | ht
      · simp [hp]
      · simp [ht]
    simp [exec_sqDoorbell, execSqDoorbell, finish, hb, hq, hno]

/-- R454: the doorbell of a CQ of the function is a consumer write. -/
theorem exec_cqDoorbell_of_owned {s : State} {fn : Fin 16} {n : Fin 4096} {k : Cq} (v : Word) (hb : s.barOpen fn.val = true)
    (hk : tget s.cqs n.val = some k) (hp : k.part = fn.val) : exec (.cqDoorbell fn n v) s = .next (s.cqHead n.val k v.toNat).settle := by
  simp [exec_cqDoorbell, execCqDoorbell, finish, hb, hk, hp]

/-- R425: any other CQ doorbell is ignored. -/
theorem exec_cqDoorbell_of_notOwned {s : State} {fn : Fin 16} {n : Fin 4096} (v : Word) (hb : s.barOpen fn.val = true)
    (h : ∀ k, tget s.cqs n.val = some k → k.part ≠ fn.val) :
    exec (.cqDoorbell fn n v) s = .next (s.doorbellIgnored fn.val n.val).settle := by
  cases hk : tget s.cqs n.val with
  | none => simp [exec_cqDoorbell, execCqDoorbell, finish, hb, hk]
  | some k => simp [exec_cqDoorbell, execCqDoorbell, finish, hb, hk, h k hk]

/-- R456: the doorbell of a ring of the function takes an allowed consumer index. -/
theorem exec_ringDoorbell_of_inRange {s : State} {fn : Fin 16} {n : Fin 1024} {v : Word} {r : Ring} (hb : s.barOpen fn.val = true)
    (hr : tget s.mrings n.val = some r) (hp : r.part = fn.val)
    (h : (v.toNat + 2 ^ 32 - r.cons) % 2 ^ 32 ≤ (r.prod + 2 ^ 32 - r.cons) % 2 ^ 32) :
    exec (.ringDoorbell fn n v) s = .next (State.settle { s with mrings := tput s.mrings n.val { r with cons := v.toNat } }) := by
  simp [exec_ringDoorbell, execRingDoorbell, finish, hb, hr, hp, (consumerOk_iff ..).2 h]

/-- R456: any other consumer index of it is invalid. -/
theorem exec_ringDoorbell_of_outside {s : State} {fn : Fin 16} {n : Fin 1024} {v : Word} {r : Ring} (hb : s.barOpen fn.val = true)
    (hr : tget s.mrings n.val = some r) (hp : r.part = fn.val)
    (h : (r.prod + 2 ^ 32 - r.cons) % 2 ^ 32 < (v.toNat + 2 ^ 32 - r.cons) % 2 ^ 32) :
    exec (.ringDoorbell fn n v) s = .next (s.consumerInvalid fn.val n.val).settle := by
  have hno : consumerOk r.prod r.cons v.toNat = false :=
    Bool.eq_false_iff.2 fun hok => Nat.not_le.2 h ((consumerOk_iff ..).1 hok)
  simp [exec_ringDoorbell, execRingDoorbell, finish, hb, hr, hp, hno]

/-- R425: any other ring doorbell is ignored. -/
theorem exec_ringDoorbell_of_notOwned {s : State} {fn : Fin 16} {n : Fin 1024} (v : Word) (hb : s.barOpen fn.val = true)
    (h : ∀ r, tget s.mrings n.val = some r → r.part ≠ fn.val) :
    exec (.ringDoorbell fn n v) s = .next (s.doorbellIgnored fn.val n.val).settle := by
  cases hr : tget s.mrings n.val with
  | none => simp [exec_ringDoorbell, execRingDoorbell, finish, hb, hr]
  | some r => simp [exec_ringDoorbell, execRingDoorbell, finish, hb, hr, h r hr]

/-! ### Control queues -/

/-- R481: SC_CTL_SQ_TAIL of an enabled pair is a tail write of the control SQ. -/
theorem exec_scCtlSqTailWrite_of_enabled {s : State} {p : Fin 16} {q : Sq} (v : Word) (hq : tget s.sqs (16384 + p.val) = some q)
    (hen : s.rd (F.ctlCfg_en.at (ctlBase p.val)) = 1) :
    exec (.scCtlSqTailWrite p v) s = .next (s.sqTail (16384 + p.val) q v.toNat).settle := by
  simp [exec_scCtlSqTailWrite, execScCtlSqTailWrite, finish, ctlSq, hq, State.rdB, hen]

/-- R481: SC_CTL_CQ_HEAD of an enabled pair is a consumer write of the control CQ. -/
theorem exec_scCtlCqHeadWrite_of_enabled {s : State} {p : Fin 16} {k : Cq} (v : Word) (hk : tget s.cqs (4096 + p.val) = some k)
    (hen : s.rd (F.ctlCfg_en.at (ctlBase p.val)) = 1) :
    exec (.scCtlCqHeadWrite p v) s = .next (s.cqHead (4096 + p.val) k v.toNat).settle := by
  simp [exec_scCtlCqHeadWrite, execScCtlCqHeadWrite, finish, ctlCq, hk, State.rdB, hen]

/-! ### Ignored doorbells -/

/-- A register of a function that lies below 0x50000 of its BAR0. -/
theorem belowDram_fn {f : Fld} (h : f.off < 0x50000) (fn : Fin 16) : belowDram (f.fn fn.val).off := by
  have := fn.isLt
  simp only [belowDram, Fld.fn, Fld.at, fnStride]
  omega

/-- GL_HOST_LAST keeps the code just recorded. -/
theorem State.rd_hostLast_code (s : State) (fn code tag : Nat) (h : code < 2 ^ 16) :
    (s.hostLast fn code tag).rd (F.glHostLast_code.fn fn) = code := by
  have hin : F.glHostLast_code.lo + F.glHostLast_code.w ≤ 32 := by decide
  have htag : F.glHostLast_code.lo + F.glHostLast_code.w ≤ F.glHostLast_tag.lo := by decide
  have hvalid : F.glHostLast_code.lo + F.glHostLast_code.w ≤ F.glHostLast_valid.lo := by decide
  rw [State.hostLast, State.rd_wr_disj _ (F.glHostLast_valid.fn fn) (F.glHostLast_code.fn fn) _ hin (.inl hvalid),
    State.rd_wr_disj _ (F.glHostLast_tag.fn fn) (F.glHostLast_code.fn fn) _ hin (.inl htag), State.rd_wr_same _ (F.glHostLast_code.fn fn) _ hin]
  exact Nat.mod_eq_of_lt h

/-- Recording a code in GL_HOST_LAST leaves GL_DB_REJ. -/
theorem State.rd_hostLast_dbRej (s : State) (fn code tag : Nat) :
    (s.hostLast fn code tag).rd (F.glDbRej_count.fn fn) = s.rd (F.glDbRej_count.fn fn) := by
  have hne : (F.glDbRej_count.fn fn).off ≠ (F.glHostLast_code.fn fn).off := by
    simp [Fld.fn, Fld.at, F.glDbRej_count, F.glHostLast_code]
  rw [State.hostLast, State.rd_wr_ne _ (F.glHostLast_valid.fn fn) _ _ hne, State.rd_wr_ne _ (F.glHostLast_tag.fn fn) _ _ hne,
    State.rd_wr_ne _ (F.glHostLast_code.fn fn) _ _ hne]

/-- R425: an ignored doorbell changes no SQ and no CQ. -/
theorem State.doorbellIgnored_queues (s : State) (fn n : Nat) : (s.doorbellIgnored fn n).sqs = s.sqs ∧ (s.doorbellIgnored fn n).cqs = s.cqs := by
  simp [State.doorbellIgnored, State.hostLast, State.inc]

/-- Logging an ignored doorbell leaves the function's registers below the DRAM blocks. -/
theorem State.rd_doorbellIgnored {s : State} {f : Fld} (hf : f.off < 0x50000) (fn : Fin 16) (n : Nat) (hm : s.mrings = []) :
    (s.doorbellIgnored fn.val n).rd (f.fn fn.val) = ((s.inc (F.glDbRej_count.fn fn.val) 1).hostLast fn.val 0xD0B 0).rd (f.fn fn.val) := by
  have hrings : ((s.inc (F.glDbRej_count.fn fn.val) 1).hostLast fn.val 0xD0B 0).mrings = [] := hm
  exact State.rd_logPart (belowDram_fn hf fn) hrings ..

/-- R425: an ignored doorbell is counted in GL_DB_REJ. -/
theorem State.doorbellIgnored_count (s : State) (fn : Fin 16) (n : Nat) (hm : s.mrings = []) :
    (s.doorbellIgnored fn.val n).rd (F.glDbRej_count.fn fn.val) = (s.rd (F.glDbRej_count.fn fn.val) + 1) % 2 ^ F.glDbRej_count.w := by
  have hin : F.glDbRej_count.lo + F.glDbRej_count.w ≤ 32 := by decide
  rw [State.rd_doorbellIgnored (by decide) fn n hm, State.rd_hostLast_dbRej]
  exact State.rd_wr_same _ (F.glDbRej_count.fn fn.val) _ hin

/-- R425: an ignored doorbell is recorded in GL_HOST_LAST. -/
theorem State.doorbellIgnored_code (s : State) (fn : Fin 16) (n : Nat) (hm : s.mrings = []) :
    (s.doorbellIgnored fn.val n).rd (F.glHostLast_code.fn fn.val) = 0xD0B := by
  rw [State.rd_doorbellIgnored (by decide) fn n hm, State.rd_hostLast_code _ _ _ _ (by decide)]

/-! ### The statement -/

/-- Settles O18: each doorbell is a tail or consumer write of its object, or ignored (`exec_…`); what such a write does follows from its range, and what an
ignored or invalid one leaves follows from `LogStep.logFault`. -/
theorem doorbells : Obligations.Doorbells := by
  unfold Obligations.Doorbells
  refine ⟨fun s fn v hb => exec_doorbell_of_barClosed v hb, ⟨?sqTaken, ?cqTaken, ?ringTaken, ?cqInvalid, ?control⟩, ?ringInvalid, ?controlCqInvalid,
    ?sqOther, ?sqIgnored, ?cqIgnored, ?ringIgnored, ?ignored⟩
  case sqTaken =>
    intro s fn n v q hb hq hp ht hs hdepth hlast
    rw [exec_sqDoorbell_of_owned v hb hq hp ht, s.sqTail_of_inRange _ _ hs hdepth hlast]
  case cqTaken =>
    intro s fn n v k hb hk hp hin
    rw [exec_cqDoorbell_of_owned v hb hk hp, s.cqHead_of_inRange _ _ hin]
  case ringTaken =>
    intro s fn n v r hb hr hp hin
    exact exec_ringDoorbell_of_inRange hb hr hp hin
  case cqInvalid =>
    intro s fn n v k hb hk hp hout
    rw [exec_cqDoorbell_of_owned v hb hk hp, s.cqHead_of_outside _ _ hout, s.consumerInvalid_eq _ (by omega)]
  case control =>
    intro s p v q k hq hk hen
    refine ⟨fun hs hdepth hlast => ?_, fun hin => ?_⟩
    · rw [exec_scCtlSqTailWrite_of_enabled v hq hen, s.sqTail_of_inRange _ _ hs hdepth hlast]
    · rw [exec_scCtlCqHeadWrite_of_enabled v hk hen, s.cqHead_of_inRange _ _ hin]
  case ringInvalid =>
    intro s fn n v r hb hr hp hout
    rw [exec_ringDoorbell_of_outside hb hr hp hout, s.consumerInvalid_eq _ (by omega)]
    exact ⟨rfl, fun r' hr' => State.logPart_ring_cons hr hr'⟩
  case controlCqInvalid =>
    intro s p v k hk hen hout
    rw [exec_scCtlCqHeadWrite_of_enabled v hk hen, s.cqHead_of_outside _ _ hout]
    exact ⟨rfl, s.consumerInvalid_cqs _ _⟩
  case sqOther =>
    intro s fn n v q hb hq hp ht
    rw [exec_sqDoorbell_of_owned v hb hq hp ht]
    refine ⟨fun hs => ?_, fun hs hout => ?_⟩
    · rw [s.sqTail_of_stopped _ _ hs]
    · rw [s.sqTail_of_outside _ n.isLt hs hout]
  case sqIgnored => exact fun s fn n v hb h => exec_sqDoorbell_of_notOwned v hb h
  case cqIgnored => exact fun s fn n v hb h => exec_cqDoorbell_of_notOwned v hb h
  case ringIgnored => exact fun s fn n v hb h => exec_ringDoorbell_of_notOwned v hb h
  case ignored =>
    intro s fn n
    obtain ⟨hsqs, hcqs⟩ := s.doorbellIgnored_queues fn.val n
    exact ⟨hsqs, hcqs, fun hm => ⟨s.doorbellIgnored_count fn n hm, s.doorbellIgnored_code fn n hm⟩⟩

end Sys2Proof.Machine
end

section
/-! PROOFS. The refusals of service requests (R570): each operation of FT_SVC_CTRL is a service request with a validity of its own, and a request that finds the
module busy or recovering, or that is not valid, is refused whatever it would run. -/

namespace Sys2Proof.Machine

/-! ### A request is refused -/

/-- R570: a request while another is busy, or while the module recovers, shows result 1, valid or not. -/
theorem State.service_of_occupied {s : State} (valid : Bool) (run : State → State)
    (h : s.rdB F.ftSvcStat_busy = true ∨ s.rdB F.ftStat_recovering = true) : s.service valid run = s.wr F.ftSvcStat_result 1 :=
  if_pos (Bool.or_eq_true_iff.2 h)

/-- R570: an invalid request that nothing is in the way of shows result 2. -/
theorem State.service_of_invalid {s : State} (run : State → State) (hbusy : s.rdB F.ftSvcStat_busy = false)
    (hrec : s.rdB F.ftStat_recovering = false) : s.service false run = s.wr F.ftSvcStat_result 2 := by
  simp [State.service, hbusy, hrec]

/-! ### The commands are service requests -/

/-- R567: taking a bole out of service is valid for the 68 physical indices. -/
theorem exec_boleOutOfService_service (p : Fin 128) (s : State) :
    ∃ run, exec (.boleOutOfService p) s = .next (s.service (p.val < 68) run).settle := ⟨_, rfl⟩

/-- R568: so is bringing one back. -/
theorem exec_boleIntoService_service (p : Fin 128) (s : State) :
    ∃ run, exec (.boleIntoService p) s = .next (s.service (p.val < 68) run).settle := ⟨_, rfl⟩

/-- R569: a row repair is valid for an address in DRAM. -/
theorem exec_rowRepairRequest_service (s : State) :
    ∃ run, exec .rowRepairRequest s = .next (s.service (s.rd2 F.ftSvcAddrLo_addr F.ftSvcAddrHi_addr < dramSize) run).settle := ⟨_, rfl⟩

/-! ### The write of FT_SVC_CTRL -/

/-- R573: in the physical function, a write of FT_SVC_CTRL is a service request. -/
theorem State.barWrite_ftSvcCtrl (s : State) {fn : Fin 16} (v : Word) (hfn : fn.val = 0) : s.barWrite fn 0x90100 v = s.storeService v := by
  have hcomp : s.storeComp 0x90100 v = none := rfl
  have htime : s.storeTime 0x90100 v = none := rfl
  have hpower : s.storePower fn 0x90100 v = none := rfl
  have hsched : s.storeSched fn 0x90100 v = none := rfl
  have hdeck : s.storeDeck fn 0x90100 v = none := rfl
  have hmedia : s.storeMedia 0x90100 v = none := rfl
  have hsecure : s.storeSecure fn 0x90100 v = some (s.storeService v) := rfl
  simp [State.barWrite, hfn, hcomp, htime, hpower, hsched, hdeck, hmedia, hsecure]

/-- R570: an operation that is none of 1, 2 and 3 is an invalid request. -/
theorem State.storeService_of_badOp (s : State) {v : Word} (h : v.toNat % 8 = 0 ∨ 3 < v.toNat % 8) : s.storeService v = s.service false id := by
  have hop : bits v.toNat 0 3 = v.toNat % 8 := rfl
  rw [State.storeService, hop]
  split
  case h_1 | h_2 | h_3 => omega
  case h_4 => rfl

/-! ### The statement -/

/-- Settles O56: the three commands are service requests (`exec_…_service`), and so is a write of FT_SVC_CTRL with an operation that does not exist
(`storeService_of_badOp`); what refuses them follows from `service_of_occupied` and `service_of_invalid`. -/
theorem serviceRefusals : Obligations.ServiceRefusals := by
  unfold Obligations.ServiceRefusals
  refine ⟨?occupied, ?badIndex, ?badAddress, ?badOp⟩
  case occupied =>
    intro s p h
    obtain ⟨_, hout⟩ := exec_boleOutOfService_service p s
    obtain ⟨_, hinto⟩ := exec_boleIntoService_service p s
    obtain ⟨_, hrow⟩ := exec_rowRepairRequest_service s
    simp only [hout, hinto, hrow, State.service_of_occupied _ _ h, and_self]
  case badIndex =>
    intro s p hbusy hrec hp
    have hvalid : decide (p.val < 68) = false := decide_eq_false (Nat.not_lt.2 hp)
    obtain ⟨_, hout⟩ := exec_boleOutOfService_service p s
    obtain ⟨_, hinto⟩ := exec_boleIntoService_service p s
    simp only [hout, hinto, hvalid, State.service_of_invalid _ hbusy hrec, and_self]
  case badAddress =>
    intro s hbusy hrec ha
    obtain ⟨_, hrow⟩ := exec_rowRepairRequest_service s
    rw [hrow, decide_eq_false (Nat.not_lt.2 ha), State.service_of_invalid _ hbusy hrec]
  case badOp =>
    intro s fn v hop hfn
    rw [s.barWrite_ftSvcCtrl v hfn, s.storeService_of_badOp hop]
    exact ⟨State.service_of_occupied _ _, State.service_of_invalid _⟩

end Sys2Proof.Machine
end
